-- ==== Sys2Proof/Word.lean ====
section
/-! DEFINITION. Word types of the device and their plainest arithmetic (R3, R4, R6). -/

namespace Sys2Proof

/-- One byte, the smallest unit of cell space, I/O space and EK8 registers. -/
abbrev Byte := BitVec 8

/-- A 16-bit word: an EK8 register pair, a two-byte register (R6). -/
abbrev Half := BitVec 16

/-- A 32-bit word. -/
abbrev Word := BitVec 32

/-- A 64-bit word: device time (R28), placement entries. -/
abbrev Long := BitVec 64

end Sys2Proof
end

