-- ==== Sys2Proof/Syntax.lean ====
section
/-! DEFINITION. The commands of the device: one constructor per row of the table of operations and events, with the
row's operands, and the operand types. Choices that the spec leaves to the environment (measurements, the keeper's
decisions, arriving data) are operands. -/

namespace Sys2Proof

/-- A cell number (R5); an AK-6424 has cells 0 to 95 only. -/
abbrev CellNo := Fin 128

/-- Who makes an I/O access. -/
inductive Agent where
  | core | forager | debugger
  deriving DecidableEq, Repr

/-- Source operand of the byte operations 10h to 19h and 20h to 29h (R70, R71), and selector of PERM. -/
inductive ByteSrc where
  | reg (s : Fin 16)
  | imm (v : Byte)
  deriving DecidableEq, Repr

/-- Source operand of MOVW and CMPW (R71, R73). -/
inductive WordSrc where
  | reg (s : Fin 8)
  | imm (v : Half)
  deriving DecidableEq, Repr

/-- Source operand of ADDW (R71, R73). -/
inductive AddwSrc where
  | reg (s : Fin 8)
  | imm (v : Byte)
  deriving DecidableEq, Repr

/-- Address operand of LD and ST (R74). -/
inductive LdMode where
  | ind (b : Fin 8)
  | inc (b : Fin 8)
  | disp (b : Fin 8) (d8 : Byte)
  | abs (a : Half)
  | sp (u8 : Byte)
  | idx (b : Fin 8) (i : Fin 16)
  deriving DecidableEq, Repr

/-- Address operand of IN and OUT (R75). -/
inductive IoMode where
  | ind (b : Fin 8)
  | inc (b : Fin 8)
  | abs (a : Half)
  deriving DecidableEq, Repr

/-- Target of JMP and CALL (R80). -/
inductive Target where
  | abs (a : Half)
  | ind (b : Fin 8)
  deriving DecidableEq, Repr

/-- Count operand of LOOP (R81). -/
inductive LoopSrc where
  | reg (w : Fin 8)
  | imm (n : Byte)
  deriving DecidableEq, Repr

/-- The check bits of a memory word as a read finds them (R519, R520). -/
inductive EccState where
  | clean | correctable | uncorrectable
  deriving DecidableEq, Repr

/-- A control store that serves cells (R120). -/
inductive StoreUnit where
  | cluster (k : Fin 16)
  | comb (k : Fin 24)
  deriving DecidableEq, Repr

/-- A privileged sequencer (R120). -/
inductive SeqUnit where
  | mc | placement | migration
  deriving DecidableEq, Repr

/-- A microword error: its micro-address and the quarters with even parity (R136, CS_LAST_ERR). -/
structure MicroErr where
  addr : BitVec 13
  quarters : BitVec 4
  deriving DecidableEq, Repr

/-- What a privileged sequencer meets (R135, R137). -/
inductive MicroEvent where
  | request (entry : BitVec 13)
  | mret
  | error (e : MicroErr)
  deriving DecidableEq, Repr

/-- Who sends a request to the management controller (R439, R440): transport code, the device at which it entered the
swarm, the node and the session. -/
structure Origin where
  transport : Fin 7
  dev : Fin 8
  node : Byte
  session : Half
  deriving DecidableEq, Repr

/-- A page of data memory, an entry of the placement table (R30). -/
abbrev PageNo := Fin 131072

/-- A wanted slot-table entry of the keeper (R263 to R265). -/
structure SlotAssign where
  cell : CellNo
  entry : Word
  deriving DecidableEq, Repr

/-- One scout's judgement of its unit at a house frame start (R363). -/
structure ScoutRead where
  kind : Nat
  unit : Nat
  value : Nat
  deriving DecidableEq, Repr

/-- A rate bridge (R338): a cell's, or the one of a port's earpiece path. -/
inductive BridgeId where
  | cell (c : CellNo)
  | port (n : Fin 4)
  deriving DecidableEq, Repr

/-- A gain stage (R337): the host path of a cell, or one of a port. -/
inductive GainId where
  | host (c : CellNo)
  | ear (n : Fin 4)
  | side (n : Fin 4)
  | mic (n : Fin 4)
  deriving DecidableEq, Repr

/-- Where a page lies (R23). -/
inductive Place where
  | wax (slot : Fin 1536)
  | sram (cluster : Fin 16) (slot : Fin 32)
  /-- A frame as bits [20:4] of an entry hold it: channel, rank, bank, slot. -/
  | rld (frame : BitVec 17)
  deriving DecidableEq, Repr

/-- The keeper's placement of a page that enters a cell's space (R351, R355): its identity, the RLD frame it reserves and
where its data lies. -/
structure PageAlloc where
  page : PageNo
  frame : BitVec 17
  place : Place
  deriving DecidableEq, Repr

/-- A queue of R400. -/
inductive QueueId where
  | slice (c : CellNo)
  | audio (c : CellNo)
  | event (c : CellNo)
  | input (c : CellNo)
  | command
  | notice
  deriving DecidableEq, Repr

/-- A host write of a 16-byte window or of an 8-byte register: whole, its data word or low half, its tag or high half. -/
inductive WinPart where
  | whole | low | high
  deriving DecidableEq, Repr

/-- The election key of a member (R383): HB_STATE LOCKED, SW_MASTER_PRI, and whether its HB_SOURCE makes it a candidate. -/
structure MemberKey where
  locked : Bool
  pri : Byte
  candidate : Bool
  deriving DecidableEq, Repr

/-- What a HELLO payload carries (R375), and the members that the peer reaches directly. -/
structure HelloInfo where
  id : Fin 8
  swarm : Half
  cells : Nat
  combs : Nat
  extStat : Byte
  extId : Word
  extOps : Word
  extIob : Word
  key : MemberKey
  link : Fin 7
  reaches : BitVec 8
  deriving DecidableEq, Repr

/-- What the measurement of an arriving beam pulse gives (R38 to R40). -/
structure PulseMeas where
  ofs : Int
  err : Int
  rate : Int
  disc : Int
  deriving DecidableEq, Repr

/-- What a migration START asks of the new device (R390). -/
structure MigNeeds where
  pages : List PageAlloc
  roPages : Nat
  tenant : Half
  profile : Byte
  deriving DecidableEq, Repr

/-- What a sink offers (R424): lanes and the highest rate code. -/
structure SinkCaps where
  lanes : Nat
  rate : Nat
  deriving DecidableEq, Repr

/-- The fuses (R497). -/
structure FuseData where
  rev : Byte
  serial : Long
  mac : Long
  key : List Byte
  kill : Bool
  deriving DecidableEq, Repr

/-- How the training of an RLD channel ends (R514, R515): density 1 or 2, or the failure code of RLD_TRAIN_FAIL. -/
inductive ChanTrain where
  | ok (density : Fin 3) (us : Nat)
  | fail (code : Fin 5) (us : Nat)
  | unpowered
  deriving DecidableEq, Repr

/-- Where a boot image came from (R498, R500): the read mode of the flash, the bytes at offset 0 and at half the density;
`none` for a transfer error, and no second image for a flash without SFDP. -/
structure BootRead where
  spiMode : Fin 7
  primary : Option (List Byte)
  alternate : Option (Option (List Byte))
  us : Nat
  deriving DecidableEq, Repr

/-- What happens to the host link (R397, R398). -/
inductive LinkChange where
  | up (gen : Fin 6) (width : Nat) (payload : Nat)
  | down
  | retrain (gen : Fin 6) (width : Nat) (payload : Nat)
  | reset
  | corrected
  deriving DecidableEq, Repr

/-- A word that the patrol scrub reads (R519 to R521): of an RLD frame's page, of the wax store, of a cluster SRAM. -/
inductive ScrubUnit where
  | channel (c : Fin 8)
  | wax
  | sram (k : Fin 16)
  deriving DecidableEq, Repr

/-- Public TAP instructions (R479). -/
inductive TapInstr where
  | bypass | idcode | sample | extest | clamp | highz | vendor
  deriving DecidableEq, Repr

/-- The commands (R-numbers as in the table of operations and events). -/
inductive Instr where
  /-- HOUSE_FRAME_START (R33), with the keeper's assignments and the scouts' judgements of that instant. -/
  | houseFrameStart (slots : List SlotAssign) (scouts : List ScoutRead)
  /-- FRAME_PULSE (R40): distance from the expected instant and phase error in ns, input rate offset in ppm,
  disciplined frequency offset in ppb. -/
  | framePulse (ofs err rate disc : Int)
  /-- LINE_PULSE (R40): line window, distance from its centre in ns, phase error in ns. -/
  | linePulse (win : Nat) (ofs err : Int)
  | syncWindowExpire
  | holdoverExpire
  | cellLineStart (c : CellNo)
  | geomSwitch (c : CellNo)
  | spriteSnapshotDone (c : CellNo)
  /-- PROGRAM_LINE_START (R47); `sw` marks the last program line before a geometry switch (R53). -/
  | programLineStart (c : CellNo) (sw : Bool)
  | programFrameStart (c : CellNo)
  | paceCredit (c : CellNo)
  | vidCommit (c : CellNo)
  /-- VB_CAPTURE_READ (R54): a read of IO 040Ch with the beam at pixel clock `pix`. -/
  | vbCaptureRead (c : CellNo) (pix : Nat)
  | regCaptureRead (c : CellNo) (addr : Half)
  | regWrite (c : CellNo) (by_ : Agent) (addr : Half) (v : Byte)
  | lineLiveWrite (c : CellNo) (by_ : Agent) (addr : Half) (v : Byte) (pix : Nat)
  /-- NOP (R69); `err` is a microword error met while it executes (R136). -/
  | nop (c : CellNo) (err : Option MicroErr)
  | sleep (c : CellNo)
  | ei (c : CellNo)
  | di (c : CellNo)
  | ret (c : CellNo)
  | reti (c : CellNo)
  | rett (c : CellNo)
  | scf (c : CellNo)
  | clc (c : CellNo)
  | ccf (c : CellNo)
  | pushf (c : CellNo)
  | popf (c : CellNo)
  | add (c : CellNo) (d : Fin 16) (x : ByteSrc)
  | adc (c : CellNo) (d : Fin 16) (x : ByteSrc)
  | sub (c : CellNo) (d : Fin 16) (x : ByteSrc)
  | sbc (c : CellNo) (d : Fin 16) (x : ByteSrc)
  | and (c : CellNo) (d : Fin 16) (x : ByteSrc)
  | or (c : CellNo) (d : Fin 16) (x : ByteSrc)
  | xor (c : CellNo) (d : Fin 16) (x : ByteSrc)
  | cmp (c : CellNo) (d : Fin 16) (x : ByteSrc)
  | mov (c : CellNo) (d : Fin 16) (x : ByteSrc)
  | tst (c : CellNo) (d : Fin 16) (x : ByteSrc)
  | mul (c : CellNo) (d s : Fin 16)
  | muls (c : CellNo) (d s : Fin 16)
  | mulProductLand (c : CellNo)
  | xch (c : CellNo) (d s : Fin 16)
  | clz (c : CellNo) (d s : Fin 16)
  | movw (c : CellNo) (d : Fin 8) (x : WordSrc)
  | addw (c : CellNo) (d : Fin 8) (x : AddwSrc)
  | subw (c : CellNo) (d s : Fin 8)
  | cmpw (c : CellNo) (d : Fin 8) (x : WordSrc)
  | incw (c : CellNo) (d : Fin 8)
  | decw (c : CellNo) (d : Fin 8)
  | pushw (c : CellNo) (r : Fin 8)
  | popw (c : CellNo) (d : Fin 8)
  | ldsp (c : CellNo) (r : Fin 8)
  | stsp (c : CellNo) (d : Fin 8)
  | mfm (c : CellNo) (d : Fin 8)
  | mtm (c : CellNo) (r : Fin 8)
  | inc (c : CellNo) (d : Fin 16)
  | dec (c : CellNo) (d : Fin 16)
  | neg (c : CellNo) (d : Fin 16)
  | not (c : CellNo) (d : Fin 16)
  | shl (c : CellNo) (d : Fin 16)
  | shr (c : CellNo) (d : Fin 16)
  | sar (c : CellNo) (d : Fin 16)
  | rol (c : CellNo) (d : Fin 16)
  | ror (c : CellNo) (d : Fin 16)
  | swap (c : CellNo) (d : Fin 16)
  | push (c : CellNo) (r : Fin 16)
  | pop (c : CellNo) (d : Fin 16)
  | mff (c : CellNo) (d : Fin 16)
  | mtf (c : CellNo) (r : Fin 16)
  /-- LD (R74); `ecc` is the state of the memory word read (R519, R520). -/
  | ld (c : CellNo) (d : Fin 16) (m : LdMode) (ecc : EccState)
  | st (c : CellNo) (r : Fin 16) (m : LdMode)
  | ldw (c : CellNo) (d b : Fin 8) (inc : Bool)
  | stw (c : CellNo) (r b : Fin 8) (inc : Bool)
  | ldc (c : CellNo) (d : Fin 16) (b : Fin 8) (inc : Bool)
  | ldcw (c : CellNo) (d b : Fin 8) (inc : Bool)
  | in (c : CellNo) (d : Fin 16) (m : IoMode)
  | out (c : CellNo) (r : Fin 16) (m : IoMode)
  | ins (c : CellNo) (d s : Fin 16) (w o : Fin 8)
  | ext (c : CellNo) (d s : Fin 16) (w o : Fin 8)
  | exts (c : CellNo) (d s : Fin 16) (w o : Fin 8)
  | perm (c : CellNo) (d s : Fin 4) (x : ByteSrc)
  | bit (c : CellNo) (r : Fin 16) (n : Fin 8)
  | setb (c : CellNo) (d : Fin 16) (n : Fin 8)
  | clrb (c : CellNo) (d : Fin 16) (n : Fin 8)
  | bra (c : CellNo) (d8 : Byte)
  | beq (c : CellNo) (d8 : Byte)
  | bne (c : CellNo) (d8 : Byte)
  | bcs (c : CellNo) (d8 : Byte)
  | bcc (c : CellNo) (d8 : Byte)
  | bmi (c : CellNo) (d8 : Byte)
  | bpl (c : CellNo) (d8 : Byte)
  | bvs (c : CellNo) (d8 : Byte)
  | bvc (c : CellNo) (d8 : Byte)
  | bhi (c : CellNo) (d8 : Byte)
  | bls (c : CellNo) (d8 : Byte)
  | bge (c : CellNo) (d8 : Byte)
  | blt (c : CellNo) (d8 : Byte)
  | bgt (c : CellNo) (d8 : Byte)
  | ble (c : CellNo) (d8 : Byte)
  | bsr (c : CellNo) (d8 : Byte)
  | jmp (c : CellNo) (t : Target)
  | call (c : CellNo) (t : Target)
  | djnz (c : CellNo) (d : Fin 16) (d8 : Byte)
  | trap (c : CellNo) (n : Fin 4)
  | loop (c : CellNo) (x : LoopSrc) (len : Byte)
  | leave (c : CellNo)
  | pushl (c : CellNo)
  | popl (c : CellNo)
  | mflc (c : CellNo) (d : Fin 8)
  | extensionOpcode (c : CellNo)
  | reservedOpcode (c : CellNo)
  | interruptEntry (c : CellNo)
  | wdwEntry (c : CellNo)
  | paceEntry (c : CellNo)
  /-- CS_REPAIR_DONE (R138): the readback of the first waiting repair passes or fails. -/
  | csRepairDone (ok : Bool)
  | microTrap (q : SeqUnit) (e : MicroEvent)
  /-- CELL_START (R97), with the keeper's first placement (R351, R362): core and stagger S. -/
  | cellStart (c : CellNo) (core : Fin 128) (stagger : Nat)
  | cellPause (c : CellNo)
  | cellResume (c : CellNo) (pix : Nat)
  | cellStop (c : CellNo)
  | cellResetCmd (c : CellNo)
  | cellUnload (c : CellNo)
  | cellProfileWrite (c : CellNo) (o : Origin) (v : Byte)
  /-- WAKE (R114): pixel-clock position, and the slow-clock cycles that the sleep lasted (R115). -/
  | wake (c : CellNo) (pix ticks : Nat)
  | sleepAlarm (c : CellNo) (n : Fin 4)
  | sysResetWrite (c : CellNo) (v : Byte)
  | lockedSeqExpire (c : CellNo)
  | resetCauseRead (c : CellNo)
  | paceOvrCntRead (c : CellNo)
  | icPendsetWrite (c : CellNo) (byte : Fin 4) (v : Byte)
  | icEoiWrite (c : CellNo) (v : Byte)
  | intSourceEdge (c : CellNo) (n : Fin 32)
  | sharedSourceEvent (n : Fin 153)
  | shRouteWrite (n : Fin 153) (o : Origin) (v : Word)
  | mapWindowWrite (c : CellNo) (n : Fin 16) (high : Bool) (v : Byte)
  | mapKeyWrite (c : CellNo) (v : Byte)
  | imgLoad (c : CellNo) (o : Origin) (v : Byte)
  /-- IMG_LOAD_DONE (R178): the bytes read from the source, `none` for a transfer error, and the
  keeper's placement of its pages. -/
  | imgLoadDone (c : CellNo) (img : Option (List Byte)) (pages : List PageAlloc)
  | shareScopeWrite (c : CellNo) (o : Origin) (v : Byte)
  | pageMoveStart (page : PageNo) (dest : Place) (forced : Bool)
  | pageRedirect (page : PageNo)
  | pageShareCompare (a b : PageNo)
  /-- SLOT_RELEASE (R256), with the deadline in comb clocks of device time. -/
  | slotRelease (c : CellNo) (deadline : Nat)
  /-- SLOT_START (R257) on comb `k`; `err` is a microword error of its sequencer (R137). -/
  | slotStart (k : Fin 24) (err : Option MicroErr)
  /-- SLOT_FETCH_ARRIVE (R255): the wait clocks the fetch has cost. -/
  | slotFetchArrive (k : Fin 24) (waits : Nat)
  | slotComplete (k : Fin 24)
  | slotMiss (c : CellNo)
  | prefillRelease (c : CellNo)
  | prefillEnd (c : CellNo)
  | lsMisscntRead (c : CellNo)
  | sprStatRead (c : CellNo)
  | wgEnd (c : CellNo)
  | wgWait (c : CellNo)
  | wgWr8 (c : CellNo)
  | wgWr16 (c : CellNo)
  | wgPal (c : CellNo)
  | wgTbl (c : CellNo)
  | wgRepl (c : CellNo)
  | wgEndr (c : CellNo)
  | wgIrq (c : CellNo)
  | wgNop (c : CellNo)
  | wgJmp (c : CellNo)
  | wgStatRead (c : CellNo)
  | palDataWrite (c : CellNo) (by_ : Agent) (v : Byte) (pix : Nat)
  | palDataRead (c : CellNo)
  | wbStatRead (c : CellNo)
  /-- FLIP_SEAL_WRITE (R249): a host write of the flip block of a head's layer, FLIP_SEAL or the surface that it arms
  (R248): offset in the block, an 8-byte write or a 4-byte one, value. -/
  | flipSealWrite (h : Fin 4) (l : Fin 2) (off : Nat) (wide : Bool) (v : Long)
  /-- SEAL_WRITE (R421): an 8-byte write, or a 4-byte write of the low or high half. -/
  | sealWrite (h : Fin 4) (l : Fin 2) (high : Bool) (wide : Bool) (v : Long)
  /-- WINDOW_WRITE (R242): a dictionary write of a window object. -/
  | windowWrite (h : Fin 4) (w : Fin 16) (sub : Byte) (o : Origin) (v : Long)
  | blitStart (c : CellNo)
  | blitCancel (c : CellNo)
  | blitOpBegin (c : CellNo)
  /-- BLIT_BURST_DONE (R278) of the engine of cluster `g`; `err` is a microword error of the engine. -/
  | blitBurstDone (g : Fin 16) (err : Option MicroErr)
  | fgStart (c : CellNo) (k : Fin 4)
  | fgCancel (c : CellNo) (k : Fin 4)
  | fgDescFetch (c : CellNo) (k : Fin 4)
  /-- FG_BEAT (R287); `busyDomain`: the request reaches a power domain that is DRAINING (R289). -/
  | fgBeat (c : CellNo) (k : Fin 4) (busyDomain : Bool)
  | ckStart (c : CellNo)
  | ckFinish (c : CellNo)
  | ckAbort (c : CellNo)
  | ckFeed (c : CellNo) (by_ : Agent) (i : Fin 4) (v : Byte)
  | ckResultReady (c : CellNo)
  /-- TIMER_COUNT (R298): the timers of the cell whose clocks tick in one cluster cycle. -/
  | timerCount (c : CellNo) (who : BitVec 4)
  | tgStartTimers (c : CellNo) (who : BitVec 4)
  | tgStopTimers (c : CellNo) (who : BitVec 4)
  | timerCaptureCmd (c : CellNo) (n : Fin 4)
  | timerCapRead (c : CellNo) (n : Fin 4)
  | timerCmpWrite (c : CellNo) (n : Fin 4) (high : Bool) (v : Byte)
  | timerCntRead (c : CellNo) (n : Fin 4)
  | wdTick (c : CellNo)
  | wdWarnReached (c : CellNo)
  | wdExpire (c : CellNo)
  | wdKickWrite (c : CellNo) (v : Byte)
  | wdKeyWrite (c : CellNo) (v : Byte)
  | wdCtlWrite (c : CellNo) (v : Byte)
  | wdConfigWrite (c : CellNo) (warn : Bool) (high : Bool) (v : Byte)
  /-- SAMPLE_POINT (R319); `late` marks the voices whose wave read has not arrived (R330). -/
  | samplePoint (c : CellNo) (late : BitVec 16)
  | soundRegWrite (c : CellNo) (by_ : Agent) (addr : Half) (v : Byte) (pix : Nat)
  | vcFifoPush (c : CellNo) (v : Fin 2) (b : Byte)
  | vcFlush (c : CellNo) (v : Fin 2)
  | waveFetch (c : CellNo) (v : Fin 8)
  /-- MASTER_CLOCK_LOSS (R336) of the 48 kHz family (`false`) or the 44.1 kHz family. -/
  | masterClockLoss (fam : Bool)
  | masterClockReturn (fam : Bool)
  | bridgeLock (b : BridgeId)
  | hsSrcWrite (n : Fin 4) (o : Origin) (v : Word)
  | gainWrite (g : GainId) (o : Origin) (v : Half)
  | gainStepTimeout (g : GainId)
  | jackInsert (n : Fin 4)
  | jackTyped (n : Fin 4) (codes : List Nat)
  | jackRemove (n : Fin 4)
  | buttonSample (n : Fin 4) (code : Nat)
  /-- AUDIO_PACKET (R413): stream 0, or stream 1 of a port. -/
  | audioPacket (c : CellNo) (port : Option (Fin 4))
  /-- KEEPER_CORE_DECISION (R351, R360): the core that cell `c` gets at its next program frame start. -/
  | keeperCoreDecision (c : CellNo) (core : Fin 128) (forced : Bool)
  /-- KEEPER_PAGE_DECISION (R356): the accesses that reached each page since the last one. -/
  | keeperPageDecision (heat : List (PageNo × Nat))
  /-- KEEPER_RUNDEV_DECISION (R369, R390): the new run device and its answer to START. -/
  | keeperRundevDecision (c : CellNo) (dev : Fin 8) (accepted forced : Bool)
  | coreMoveDone (c : CellNo)
  | fenceWrite (sub : Byte) (o : Origin) (v : Long)
  | capRecordWrite (r : Fin 32) (sub : Byte) (o : Origin) (v : Long)
  | linkSignal (l : Fin 7) (present : Bool)
  | linkTrainRateDone (l : Fin 7) (accepted : Bool)
  | linkRetryTimeout (l : Fin 7)
  | lkRetrainWrite (l : Fin 7) (o : Origin) (v : Byte)
  | jajanHello (l : Fin 7) (h : HelloInfo)
  /-- JAJAN_CTRL (R377), like the other frame commands: the frame's bytes as the link's receiver has them (R376). -/
  | jajanCtrl (l : Fin 7) (bytes : List Byte)
  | jajanNak (l : Fin 7) (bytes : List Byte)
  | jajanBeam (l : Fin 7) (bytes : List Byte) (m : PulseMeas)
  | jajanSlice (l : Fin 7) (bytes : List Byte)
  | jajanAudio (l : Fin 7) (bytes : List Byte)
  /-- JAJAN_EVENT (R160), with the INPUT of the route that the owner holds. -/
  | jajanEvent (l : Fin 7) (bytes : List Byte) (input : Fin 4)
  | jajanCellio (l : Fin 7) (bytes : List Byte)
  | jajanDict (l : Fin 7) (bytes : List Byte)
  | jajanPage (l : Fin 7) (bytes : List Byte)
  | jajanState (l : Fin 7) (bytes : List Byte)
  | migcStart (l : Fin 7) (bytes : List Byte) (n : MigNeeds)
  | migcReady (l : Fin 7) (bytes : List Byte)
  /-- MIGC_GO (R393), with the core that the keeper of the new device gives the cell. -/
  | migcGo (l : Fin 7) (bytes : List Byte) (core : Fin 128)
  | migcAck (l : Fin 7) (bytes : List Byte)
  /-- MIGC_CANCEL (R392, R394); `over` when the migration is abandoned with it. -/
  | migcCancel (l : Fin 7) (bytes : List Byte) (exceeded : Bool)
  | replayTimeout (l : Fin 7)
  | idleCtrlTimer (l : Fin 7)
  /-- DELAY_MEASURE (R384): the mean of the two directions, ns. -/
  | delayMeasure (l : Fin 7) (ns : Half)
  | swElectWrite (o : Origin) (v : Byte)
  | masterLost
  | precopyPassDone (c : CellNo)
  | switchWindowOpen (c : CellNo)
  | vfFlr (c : CellNo)
  | pf0Flr
  /-- QUEUE_CTL_WRITE (R409): a host write of the register at `off` of a queue block, HEAD, CMD and WINDOW aside. -/
  | queueCtlWrite (q : QueueId) (off : Nat) (v : Long)
  | queueHeadWrite (q : QueueId) (v : Word)
  /-- QUEUE_POP (R404): a read of `bytes` bytes of POP. -/
  | queuePop (q : QueueId) (bytes : Nat)
  | queueWindowWrite (q : QueueId) (part : WinPart) (data tag : Long)
  | queueDrop (q : QueueId)
  | packetDeliver (q : QueueId)
  | queueStall (q : QueueId)
  | commandPacketTake
  /-- HOST_MAILBOX_WRITE (R418): MB_DATA, whole or by halves; `stat` names MB_STAT instead. -/
  | hostMailboxWrite (c : CellNo) (part : WinPart) (stat : Bool) (v : Long)
  | mbAckWrite (c : CellNo) (v : Byte)
  /-- EVENT_PUSH (R419): a write of byte 0F10h + `i` of EV_DATA; byte 7 pushes. -/
  | eventPush (c : CellNo) (by_ : Agent) (i : Fin 8) (v : Byte)
  | eventDrop (c : CellNo)
  | hdEnWrite (h : Fin 4) (o : Origin) (v : Byte)
  | headLineStart (h : Fin 4)
  /-- OVERLAY_ROW_ARRIVE (R428): the row for head line `line`, its directory entry (packed surfaces) and its bytes. -/
  | overlayRowArrive (h : Fin 4) (l : Fin 2) (line : Nat) (dir : Word) (bytes : List Byte)
  | hotplug (h : Fin 4) (sink : Option SinkCaps)
  | headTrainDone (h : Fin 4) (ok : Bool)
  | headTrainRetry (h : Fin 4)
  /-- DICT_OPEN (R439), like the other dictionary commands: who sends it, and the message body of R441. -/
  | dictOpen (o : Origin) (mac : Long) (body : List Byte)
  | dictClose (o : Origin) (body : List Byte)
  | dictRead (o : Origin) (body : List Byte)
  | dictWrite (o : Origin) (body : List Byte)
  | dictKeep (o : Origin) (body : List Byte)
  /-- SESSION_IDLE_TIMEOUT (R439). -/
  | sessionIdleTimeout (session : Half)
  /-- MBX_GO (R448): MBX_REQ_LEN and the request as the host wrote it into MBX_BUF. -/
  | mbxGo (len : Nat) (buf : List Byte)
  /-- T1S_FRAME (R445): a received frame from its destination address, its CRC aside. -/
  | t1sFrame (ok : Bool) (bytes : List Byte)
  | t1sAppRxRead (o : Origin)
  /-- CAN_FRAME (R446, R447): controller, FD format, identifier and data bytes. -/
  | canFrame (k : Fin 2) (fd : Bool) (id : BitVec 11) (data : List Byte)
  | canSegTimeout (k : Fin 2) (node : Byte)
  | canAppRxRead (k : Fin 2) (o : Origin)
  | jrBlockRead (o : Origin)
  | dbgChalRead (c : CellNo) (o : Origin)
  | dbgRespWrite (c : CellNo) (o : Origin) (resp : List Byte)
  | challengeExpire (session : Half)
  | dbgLockoutEnd
  | dbgDropWrite (c : CellNo) (o : Origin) (v : Byte)
  | dbgHalt (c : CellNo) (o : Origin)
  | dbgStep (c : CellNo) (o : Origin)
  | dbgResume (c : CellNo) (o : Origin) (pix : Nat)
  | dbgDataRead (c : CellNo) (o : Origin)
  | dbgDataWrite (c : CellNo) (o : Origin) (bytes : List Byte)
  | dbgVtOutRead (c : CellNo) (o : Origin)
  | dbgVtInWrite (c : CellNo) (o : Origin) (bytes : List Byte)
  | vtTxWrite (c : CellNo) (v : Byte)
  | vtRxRead (c : CellNo)
  | vtHostRxRead (c : CellNo)
  /-- VT_HOST_TX_WRITE (R476); `stat` names VT_HOST_STAT instead. -/
  | vtHostTxWrite (c : CellNo) (stat : Bool) (v : Word)
  | powerOn
  /-- RAILS_GOOD (R484, R497): the straps ID[2:0] and BOOT[1:0]. -/
  | railsGood (id : BitVec 3) (boot : BitVec 2)
  | fusesRead (f : Option FuseData)
  /-- BOOT_IMAGE_DONE (R500); the bytes of the host image are those that BOOT_GO asked for. -/
  | bootImageDone (r : BootRead)
  | bootGo (addr : Long) (len : Word)
  /-- TRAIN_DONE (R503): how each channel's training ended, and the frames of the suspension area's pages (R486). -/
  | trainDone (ch : List ChanTrain) (area : List (BitVec 17))
  | modeReqReady (o : Origin)
  | modeReqServe (o : Origin)
  | modeReqRetain (o : Origin)
  | modeReqDiag (o : Origin)
  | drainComplete
  | throttleStep (t : Fin 8)
  | pdEnWrite (d : Fin 63) (o : Origin) (v : Byte)
  /-- PD_DRAIN_END (R491): transfers still in flight after 2 µs. -/
  | pdDrainEnd (d : Fin 63) (left : Nat)
  | pdRampDownEnd (d : Fin 63)
  | pdRampUpEnd (d : Fin 63)
  | wakeNLow
  | padWakeEdge (p : Fin 128) (rising : Bool)
  | wakeWordWrite
  | fieldWakeFrame
  | wakeTimeAlarm
  | resetNLow
  /-- DEV_RESET_WRITE (R496): by a dictionary write, or through the PF0 word of R505. -/
  | devResetWrite (o : Option Origin) (v : Byte)
  | mcWdogExpire
  | fhAutoReset
  | thermalTrip (t : Fin 16)
  /-- CONVERTER_FRAME (R506): the readings of TS0 to TS15 in 1/8 °C, SP0 to SP15 in mV, and the codes of AIN0 to AIN3. -/
  | converterFrame (temps : List Int) (taps : List Nat) (ain : List (List Nat))
  | rldRefresh (ch : Fin 8) (rank : Fin 2) (bank : Fin 32)
  | rldDriftTrack (ch : Fin 8)
  /-- PATROL_SCRUB (R521): the unit, the page and word read, and what its check bits show. -/
  | patrolScrub (u : ScrubUnit) (page : Option PageNo) (word : Fin 4096) (ecc : EccState)
  | gpOwnerWrite (p : Fin 128) (o : Origin) (v : Word)
  | gvSetWrite (c : CellNo) (by_ : Agent) (high : Bool) (v : Byte)
  | gvClrWrite (c : CellNo) (by_ : Agent) (high : Bool) (v : Byte)
  | pinFilterSettle (p : Fin 128) (level : Bool)
  | bankVoltageChange (b : Fin 8) (v : Fin 3)
  | suppliesRemoved
  | hostLinkChange (k : LinkChange)
  | vfEnableWrite (on : Bool)
  | linkUncorrectableCodewords (l : Fin 7)
  /-- AUDIO_FAMILY_SAMPLE (R341): a sample of the 48 kHz family (`false`) or the 44.1 kHz family, with slot 0 of each
  port's HSn_DIN. -/
  | audioFamilySample (fam : Bool) (mics : List (BitVec 24))
  | switchDeadline (c : CellNo)
  | writebackWriteDone (c : CellNo)
  | channelTrainDone (ch : Fin 8) (t : ChanTrain)
  | canControllerStateChange (k : Fin 2) (st : Fin 4)
  | thermalTripRelease (t : Fin 16)
  /-- TAP_CLOCK_EDGE (R479): TRST_N, the edge's direction, TMS and TDI, and the instruction that the instruction register
  names. -/
  | tapClockEdge (trst rising tms tdi : Bool) (ir : TapInstr)
  deriving DecidableEq, Repr

end Sys2Proof
end

