-- ==== Sys2Proof/Decode.lean ====
section
/-! DEFINITION. The commands of the table have no encoding in bits: no word spells one. -/

namespace Sys2Proof

/-- The command that a word spells by the table's bits: the table gives no row any bits. -/
def decodeTableWord (_nbits _w : Nat) : Option Instr := none

end Sys2Proof
end

