-- ==== Sys2Proof/Machine/Flags.lean ====
section
/-! DEFINITION. The flags of the EK8 and every flag computation of R60, R61 and R69 to R78. -/

namespace Sys2Proof.Machine

/-- Bits of F (R60). -/
def fC : Byte := 0x01
def fZ : Byte := 0x02
def fN : Byte := 0x04
def fV : Byte := 0x08
def fH : Byte := 0x10
def fI : Byte := 0x20

/-- A flag bit where `b` holds. -/
def flagIf (b : Bool) (m : Byte) : Byte := if b then m else 0

/-- F with the flags of `mask` replaced by those of `v`. -/
def setFlags (f mask v : Byte) : Byte := (f &&& ~~~mask) ||| (v &&& mask)

/-- F as a whole written from a byte: bits [7:6] read as 0 (R60). -/
def loadF (v : Byte) : Byte := v &&& 0x3F

/-- A flag of F. -/
def hasFlag (f m : Byte) : Bool := f &&& m != 0

/-- The carry as a number. -/
def carryIn (f : Byte) : Nat := if hasFlag f fC then 1 else 0

/-- Z and N of a byte result. -/
def zn8 (r : Byte) : Byte := flagIf (r == 0) fZ ||| flagIf r.msb fN

/-- Z and N of a word result. -/
def zn16 (r : Half) : Byte := flagIf (r == 0) fZ ||| flagIf r.msb fN

/-- The sum of a byte addition with carry in. -/
def add8 (a b : Byte) (cin : Nat) : Byte := a + b + BitVec.ofNat 8 cin

/-- C, Z, N, V and H of a byte addition (R61). -/
def addFlags8 (a b : Byte) (cin : Nat) : Byte :=
  let r := add8 a b cin
  flagIf (decide (255 < a.toNat + b.toNat + cin)) fC ||| zn8 r |||
  flagIf (decide (a.toInt + b.toInt + cin ≠ r.toInt)) fV |||
  flagIf (decide (15 < a.toNat % 16 + b.toNat % 16 + cin)) fH

/-- The difference of a byte subtraction with borrow in. -/
def sub8 (a b : Byte) (cin : Nat) : Byte := a - b - BitVec.ofNat 8 cin

/-- C, Z, N, V and H of a byte subtraction (R61). -/
def subFlags8 (a b : Byte) (cin : Nat) : Byte :=
  let r := sub8 a b cin
  flagIf (decide (a.toNat < b.toNat + cin)) fC ||| zn8 r |||
  flagIf (decide (a.toInt - b.toInt - cin ≠ r.toInt)) fV |||
  flagIf (decide (a.toNat % 16 < b.toNat % 16 + cin)) fH

/-- C, Z, N and V of a word addition (R61). -/
def addFlags16 (a b : Half) : Byte :=
  let r := a + b
  flagIf (decide (65535 < a.toNat + b.toNat)) fC ||| zn16 r ||| flagIf (decide (a.toInt + b.toInt ≠ r.toInt)) fV

/-- C, Z, N and V of a word subtraction (R61). -/
def subFlags16 (a b : Half) : Byte :=
  let r := a - b
  flagIf (decide (a.toNat < b.toNat)) fC ||| zn16 r ||| flagIf (decide (a.toInt - b.toInt ≠ r.toInt)) fV

/-- All five arithmetic flags. -/
def mArith : Byte := 0x1F

/-- C, Z, N and V: word arithmetic, logic and shifts leave H. -/
def mLogic : Byte := 0x0F

/-- Leading zero bits of a byte, 0 to 8 (R70). -/
def clz8 (v : Byte) : Byte :=
  if v.getLsbD 7 then 0 else if v.getLsbD 6 then 1 else if v.getLsbD 5 then 2 else if v.getLsbD 4 then 3
  else if v.getLsbD 3 then 4 else if v.getLsbD 2 then 5 else if v.getLsbD 1 then 6 else if v.getLsbD 0 then 7 else 8

/-- The low `w` bits of a byte set, `w` from 1 to 8. -/
def ones8 (w : Nat) : Byte := BitVec.ofNat 8 (2 ^ w - 1)

/-- EXT (R78): the field of width `w` at offset `o`, zero-extended. -/
def ext8 (v : Byte) (w o : Nat) : Byte := (v >>> o) &&& ones8 w

/-- EXTS (R78): the field sign-extended from bit w − 1. -/
def exts8 (v : Byte) (w o : Nat) : Byte :=
  let r := ext8 v w o
  if r.getLsbD (w - 1) then r ||| ~~~(ones8 w) else r

/-- INS (R78): the low bits of `v` inserted into `d` at offset `o`, bits beyond 7 dropped. -/
def ins8 (d v : Byte) (w o : Nat) : Byte :=
  let m := ones8 w <<< o
  (d &&& ~~~m) ||| ((v <<< o) &&& m)

end Sys2Proof.Machine
end

