-- ==== Sys2Proof/Config.lean ====
section
/-! DEFINITION. What one part or one implementation fixes, and the free values that the spec leaves open. -/

namespace Sys2Proof

/-- The parts of R1. -/
inductive Part where
  | ak6440fc | ak6440sc | ak6424fc | ak6424sc
  deriving DecidableEq, Repr

namespace Config

/-- Cells present (R1, R2). -/
def cellCount : Part → Nat
  | .ak6440fc => 128 | .ak6440sc => 128 | .ak6424fc => 96 | .ak6424sc => 96

/-- Combs present (R1, R2). -/
def combCount : Part → Nat
  | .ak6440fc => 24 | .ak6440sc => 24 | .ak6424fc => 18 | .ak6424sc => 18

/-- DBG_KILL is blown at the factory on the SC parts (R1). -/
def dbgKill : Part → Bool
  | .ak6440fc => false | .ak6440sc => true | .ak6424fc => false | .ak6424sc => true

/-- FREE VALUE. A byte that the spec leaves open, indexed by State's counter of such values (assumption 6). -/
opaque freeByte : Nat → Byte

/-- FREE VALUE. The result of a byte-only ALU operation in a microword that asks for a word (R126, assumption 6). -/
opaque microOpen : Nat → Half → Half → Half

/-- FREE VALUE. A 24-bit audio sample that the spec leaves open (assumption 6). -/
opaque freeSample : Nat → BitVec 24

/-- FREE VALUE. A 32-bit measurement that the spec leaves open (assumption 6). -/
opaque freeWord : Nat → Word

/-- FREE VALUE. The multiplier of a gain code of 1 to 255, scaled by 2^24: the device's own within ±0.05 dB (R340,
assumption 32). -/
opaque gainMul : Byte → Nat

end Config
end Sys2Proof
end

