-- ==== Sys2Proof/Machine/Sparse.lean ====
section
/-! DEFINITION. Canonical sparse tables: lists of (key, value) pairs, keys strictly rising, no entry equal to what an
unlisted key reads as. Every memory of the model (cell space, I/O bytes, objects, placement entries) is one. -/

namespace Sys2Proof.Machine

/-- A sparse table: only the entries that differ from what an unlisted key reads as. -/
abbrev Table (β : Type) := List (Nat × β)

/-- The value under key `a`; `d a` where the table lists nothing. -/
def Table.read {β : Type} (d : Nat → β) : Table β → Nat → β
  | [], a => d a
  | (k, v) :: r, a => if k = a then v else Table.read d r a

/-- Insert or replace the entry of key `a`, keeping the keys rising. -/
def Table.insert {β : Type} : Table β → Nat → β → Table β
  | [], a, v => [(a, v)]
  | (k, w) :: r, a, v =>
    if k = a then (a, v) :: r else if a < k then (a, v) :: (k, w) :: r else (k, w) :: Table.insert r a v

/-- Remove every entry of key `a`. -/
def Table.erase {β : Type} : Table β → Nat → Table β
  | [], _ => []
  | (k, w) :: r, a => if k = a then Table.erase r a else (k, w) :: Table.erase r a

/-- Write `v` under key `a`; writing what an unlisted key reads as removes the entry. -/
def Table.write {β : Type} [DecidableEq β] (d : Nat → β) (t : Table β) (a : Nat) (v : β) : Table β :=
  if v = d a then t.erase a else t.insert a v

/-- The keys rise strictly, from above `lo`. -/
def Table.risingFrom {β : Type} : Nat → Table β → Bool
  | _, [] => true
  | lo, (k, _) :: r => decide (lo < k) && Table.risingFrom k r

/-- The keys of a table rise strictly. -/
def Table.rising {β : Type} : Table β → Bool
  | [] => true
  | (k, _) :: r => Table.risingFrom k r

/-- No entry equals what an unlisted key reads as. -/
def Table.minimal {β : Type} [DecidableEq β] (d : Nat → β) : Table β → Bool
  | [] => true
  | (k, v) :: r => (!decide (v = d k)) && Table.minimal d r

/-- The canonical form: equal tables are equal data. -/
def Table.wf {β : Type} [DecidableEq β] (d : Nat → β) (t : Table β) : Bool :=
  t.rising && t.minimal d

/-- Write a run of bytes at rising keys. -/
def Table.writeList {β : Type} [DecidableEq β] (d : Nat → β) (t : Table β) (a : Nat) : List β → Table β
  | [] => t
  | v :: r => Table.writeList d (t.write d a v) (a + 1) r

/-- Read `n` values at rising keys. -/
def Table.readList {β : Type} (d : Nat → β) (t : Table β) (a : Nat) : Nat → List β
  | 0 => []
  | n + 1 => t.read d a :: Table.readList d t (a + 1) n

end Sys2Proof.Machine
end

