-- ==== Sys2Proof/Machine/State.lean ====
section
/-! DEFINITION. The state of the whole device as plain data: cells, beams, queues, objects, power, and the queue of
commands that wait. Every piece of state the spec gives the device is a field here; `State.reset` is the device right
after power-on reset. -/

namespace Sys2Proof.Machine

/-- Why a command stops the model. -/
inductive Fault where
  /-- Raised by no meaning at present: kept so that the type is a closed list of reasons. Safe: the model would stop. -/
  | none
  deriving DecidableEq, Repr

/-- Why a command has no meaning in the model. -/
inductive Refusal where
  /-- A command that the model has not given a meaning yet, raised by the dispatch only. Safe: the model stops. -/
  | notModelled (mnemonic : String)
  /-- A command for a unit that the part does not have (R2): nothing in the device receives it. Safe: the model stops. -/
  | absentUnit
  /-- An extension entry leads into the vendor region of the control store, whose words the spec does not give (R120).
  Safe: the model stops. -/
  | vendorMicrocode
  deriving DecidableEq, Repr

/-! ## Journal, notices and queue packets -/

/-- One entry of the change journal (R453). -/
structure JEntry where
  time : Long
  transport : BitVec 4
  dev : BitVec 3
  digest : Bool
  node : Byte
  session : Half
  index : Half
  sub : Byte
  result : Byte
  old : Long
  new : Long
  deriving DecidableEq, Repr

/-- A packet of a queue: its data words, first word first, and the tag fields that are fixed when it is formed. -/
structure Packet where
  words : List Long
  dropped : Bool := false
  prio : BitVec 3 := 0
  pseq : Half := 0
  deriving DecidableEq, Repr

/-! ## House beam and cell beams (R33 to R54) -/

/-- Lock state of the house beam, HB_STATE (R36, R38). -/
inductive LockState where
  | free | acquiring | locked | holdover
  deriving DecidableEq, Repr

/-- The house beam: what is in force, its lock state and the run lengths that R38 counts. -/
structure HouseBeam where
  /-- Source in force, which a written HB_SOURCE becomes at a house frame start (R38). -/
  src : Byte := 0
  /-- HB_RATE in force, mHz (R36). -/
  rate : Word := 60000
  /-- HB_FRAME_CLKS (R33). -/
  frameClks : Nat := 9900000
  lock : LockState := .free
  phaseErr : BitVec 32 := 0
  freqOfs : BitVec 32 := 0
  frame : Long := 0
  glitch : Word := 0
  /-- Consecutive valid pulses. -/
  validRun : Nat := 0
  /-- Consecutive frames in ACQUIRING with a phase error of at most 100 ns. -/
  goodRun : Nat := 0
  /-- Consecutive windows without a valid pulse. -/
  missRun : Nat := 0
  /-- Consecutive frames in LOCKED with the input rate out of the pull range. -/
  rateRun : Nat := 0
  /-- Consecutive frames in LOCKED with a phase error above 10 µs. -/
  phaseRun : Nat := 0
  /-- House frames spent in HOLDOVER. -/
  holdFrames : Nat := 0
  /-- LOCKED since HB_SOURCE was last written (R38). -/
  wasLocked : Bool := false
  /-- A valid pulse has been taken in the present window (R40). -/
  pulseSeen : Bool := false
  /-- Line-pulse window in which a valid line pulse was last taken (R40). -/
  lineWin : Option Nat := none
  /-- A phase jump is due at the next house frame start (R39). -/
  jumpDue : Bool := false
  /-- HB_SOURCE has been written since the last house frame start (R38). -/
  srcDue : Bool := false
  /-- Length of the present house frame in beam clocks (R33, R39). -/
  frameLen : Nat := 9900000
  deriving DecidableEq, Repr

/-- The geometry group of a cell beam (R53). -/
structure Geom where
  num : Nat
  den : Nat
  htotal : Nat
  hactive : Nat
  vtotal : Nat
  vactive : Nat
  deriving DecidableEq, Repr

/-- A write of a line-live register byte or of a palette entry (R214). -/
inductive LlWrite where
  | reg (addr : Nat) (v : Byte)
  | pal (index : Nat) (rgb : BitVec 24)
  deriving DecidableEq, Repr

/-- One entry of the line-live write log (R49): the active line and pixel from which it takes effect. -/
structure LogEnt where
  line : Nat
  pixel : Nat
  what : LlWrite
  deriving DecidableEq, Repr

/-- The beam of one cell. -/
structure CellBeam where
  /-- The beam runs (R44). -/
  on : Bool := false
  /-- Waiting for the first program frame start (R44). -/
  waiting : Bool := false
  /-- Stagger offset S, beam clocks (R45). -/
  stagger : Nat := 0
  /-- Live geometry of the cell beam. -/
  geom : Geom := ⟨1, 1, 1650, 1280, 750, 720⟩
  /-- Geometry of the program beam's present frame, which switches two line times ahead (R53). -/
  pgeom : Geom := ⟨1, 1, 1650, 1280, 750, 720⟩
  /-- Geometry held by R53. -/
  held : Option Geom := none
  /-- House frames since the transfer that first held it. -/
  heldAge : Nat := 0
  /-- The next program frame is the first of the held geometry. -/
  switchNext : Bool := false
  /-- D of R41 with 24 fraction bits. -/
  d : Nat := 134217728
  /-- Present cell beam line. -/
  line : Nat := 0
  /-- The cell beam has started its first frame. -/
  started : Bool := false
  /-- Cell frame count, the VB_FRAME the program read during that frame (R410). -/
  frame : Half := 0
  /-- Present program line. -/
  pline : Nat := 0
  /-- Program frame count, VB_FRAME. -/
  pframe : Half := 0
  /-- Frame number within the lock interval of the program beam (R45). -/
  pIv : Nat := 0
  /-- Pixel-clock position of the last event that named one. -/
  hpix : Nat := 0
  geomErr : Bool := false
  llwOvf : Bool := false
  commitDone : Bool := false
  commit : Bool := false
  /-- VB_LINECMP in force, taken at each program line start. -/
  linecmp : Nat := 65535
  /-- The line-live write log (R49), oldest first. -/
  log : List LogEnt := []
  /-- Writes entered in the log in the present program line. -/
  logCount : Nat := 0
  deriving DecidableEq, Repr

/-! ## The EK8 core and its pace (R55 to R119) -/

/-- One entry of the loop stack (R82). -/
structure LoopEnt where
  ls : Half
  le : Half
  lc : Half
  ed : Byte
  deriving DecidableEq, Repr

/-- The EK8 registers a program sees (R59), and the product in flight (R87). -/
structure Core where
  b : Vector Byte 16 := Vector.replicate 16 0
  pc : Half := 0
  sp : Half := 0
  f : Byte := 0
  mhml : Half := 0
  /-- A product that has not landed, with the micro-cycles in which the old value is still read. -/
  prod : Option (Half × Nat) := none
  /-- The loop stack, innermost entry first, at most four. -/
  loops : List LoopEnt := []
  ed : Byte := 0
  /-- The entry of this instruction boundary has been taken (R92). -/
  entered : Bool := false
  deriving DecidableEq, Repr

/-- Registers with locked sequences (R557). -/
inductive LockedReg where
  | sysReset | mapKey | wdKick | wdKey
  deriving DecidableEq, Repr

/-- An open locked sequence and the instructions counted since its first key. -/
structure LockedSeq where
  reg : LockedReg
  count : Nat
  /-- The OUT that opened the sequence has not completed. -/
  fresh : Bool := false
  deriving DecidableEq, Repr

/-- Pace of one cell (R102 to R106). -/
structure Pace where
  /-- Rate in force for the present program line. -/
  m : Nat := 100
  /-- Beam clocks with 24 fraction bits since the first program frame start, at the start of the present line. -/
  t : Nat := 0
  /-- The same at the end of the present line. -/
  tEnd : Nat := 0
  /-- Beam clocks, 24 fraction bits, at the start of the present lock interval of the program beam. -/
  tIv : Nat := 0
  /-- Length of program lines 0 and 1 after a geometry switch that shortens them (R53). -/
  line01 : Option Nat := none
  /-- Cumulative credit at the end of the present line, with the credit of earlier rates included. -/
  q : Nat := 0
  /-- Credits accrued in the present line. -/
  acc : Nat := 0
  avail : Nat := 0
  /-- Instructions counted since the line started. -/
  k : Nat := 0
  last : Half := 0
  /-- Credit was discarded while the cell was runnable (R104). -/
  shortfall : Bool := false
  /-- The cell, while runnable, waited for its core in this line. -/
  waited : Bool := false
  ovr : Bool := false
  shared : Bool := false
  ovrCnt : Half := 0
  /-- PACE is pending (R106). -/
  pend : Bool := false
  /-- Notice PACE_OVR has been raised in this house frame. -/
  noticed : Bool := false
  deriving DecidableEq, Repr

/-- Cell states of R96. -/
inductive CState where
  | empty | loaded | running | paused | sleep | halted | migrating | faulted
  deriving DecidableEq, Repr

/-- The commands of CELL_CMD and DBG_CMD that wait for the instruction boundary (R97, R464). -/
inductive CellCmd where
  | start | pause | resume | stop | reset | unload | halt | step | dbgResume
  deriving DecidableEq, Repr

/-- Control and identity of a cell: its state objects (R101) and what the core and system block holds (R119). -/
structure CellCtl where
  st : CState := .empty
  prior : CState := .empty
  pausePrior : CState := .empty
  /-- An accepted command that has not taken effect, oldest first (R97). -/
  cmds : List CellCmd := []
  faultCause : Byte := 0
  paceOvrTotal : Word := 0
  cellResets : Word := 0
  ioUnmapped : Bool := false
  resetCause : BitVec 4 := 0
  trapCause : BitVec 4 := 0
  trapData : Byte := 0
  trapAddr : Half := 0
  trapOp : Word := 0
  slpLast : Word := 0
  slpCnt : Half := 0
  /-- Position on the program beam, beam clocks with 24 fraction bits, at which counting was suspended (R310, R312). -/
  heldFrom : Nat := 0
  /-- Positions of the program line starts since then, newest first. -/
  heldLines : List Nat := []
  /-- Timers whose alarm has fired in the present sleep (R311). -/
  alarms : BitVec 4 := 0
  locked : Option LockedSeq := none
  /-- The byte that the last I/O read answered. -/
  rd : Byte := 0
  deriving DecidableEq, Repr

/-! ## Control stores (R120 to R146) -/

/-- The resumable context of a privileged sequencer (R135): what a micro-trap frame holds. -/
structure MicroCtx where
  addr : BitVec 13 := 0
  uctr : Byte := 0
  ustack : List (BitVec 13) := []
  aluC : Bool := false
  aluZ : Bool := false
  t : Vector Byte 4 := Vector.replicate 4 0
  deriving DecidableEq, Repr

/-- A privileged sequencer and its save stack, newest frame first, at most four (R135). -/
structure Sequencer where
  ctx : MicroCtx := {}
  saved : List MicroCtx := []
  /-- Requests that found the save stack full. -/
  waiting : List (BitVec 13) := []
  deriving DecidableEq, Repr

/-- The control stores as software sees them (R145) and the extension section's contents, which every cluster store
and the golden copy hold alike (R121, R138). -/
structure Stores where
  baseVer : Word := 0
  extStat : Byte := 0
  extId : Word := 0
  extVer : Word := 0
  /-- Words 1800h to 1FFFh; unlisted words are all zeros (R141). -/
  extWords : Table (BitVec 144) := []
  /-- Dispatch entries C0h to DFh; unlisted entries are invalid. -/
  extDisp : Table Half := []
  /-- Extension I/O entries 0 to 31; unlisted entries are invalid. -/
  extIo : Table Half := []
  softErr : Word := 0
  hardErr : Word := 0
  lastErr : Long := 0
  /-- Parity errors found and not yet repaired, in order of detection (R139). -/
  repairs : List (StoreUnit × BitVec 13) := []
  /-- Stores that a failed repair left closed (R138). -/
  closed : List StoreUnit := []
  mc : Sequencer := {}
  placement : Sequencer := {}
  migration : Sequencer := {}
  deriving DecidableEq, Repr

/-! ## Interrupt controller and shared sources (R147 to R162) -/

/-- The interrupt controller of a cell. -/
structure Ic where
  pend : Word := 0
  miss : Word := 0
  /-- Asynchronous edge latches of SLEEP (R149). -/
  latch : Word := 0
  /-- Latches that took a second edge. -/
  latch2 : Word := 0
  /-- IC_CFG0 to IC_CFG31: LEVEL in [2:0], EN in [7]. -/
  cfg : Vector Byte 32 := Vector.replicate 32 0
  /-- Running-priority stack, top first: level and source (R151). -/
  stack : List (Nat × Nat) := []
  eoiUnf : Bool := false
  deriving DecidableEq, Repr

/-- Counters of one shared source (R158). -/
structure SharedSrc where
  events : Word := 0
  lost : Word := 0
  deriving DecidableEq, Repr

/-! ## Mapper and image (R163 to R180) -/

/-- The mapper of a cell: windows I0 to I7, then D0 to D7. -/
structure Mapper where
  win : Vector Half 16 := Vector.replicate 16 0
  stage : Vector Byte 16 := Vector.replicate 16 0
  lockI : Bool := false
  lockD : Bool := false
  hard : Bool := false
  /-- MAP_STAT [5:0]. -/
  stat : BitVec 6 := 0
  /-- The image's map table, the windows' reset values (R177). -/
  table : Vector Half 16 := Vector.replicate 16 0
  pages : Nat := 0
  ropages : Nat := 0
  faults : Word := 0
  deriving DecidableEq, Repr

/-- The image of a cell (R177 to R179). -/
structure Image where
  stat : Byte := 0
  /-- Profile of the loaded image. -/
  profile : Byte := 0
  title : Long := 0
  deriving DecidableEq, Repr
/-! ## Video of a cell and the combs (R181 to R268) -/

/-- A composed line: 24-bit pixels, [23:16] red, [15:8] green, [7:0] blue. -/
abbrev Pixels := List (BitVec 24)

/-- State of the waggle engine that is held with the cell (R229). -/
structure WgEngine where
  /-- WG_CTL.EN in force for the frame. -/
  on : Bool := false
  /-- WG_BASE of the frame. -/
  base : Nat := 0
  /-- List pointer, a cell space address. -/
  ptr : Nat := 0
  /-- Pending wait target, line and pixel. -/
  wait : Option (Nat × Nat) := none
  /-- Open loop: count and loop start. -/
  loop : Option (Nat × Nat) := none
  /-- Stopped for the rest of the frame. -/
  off : Bool := true
  deriving DecidableEq, Repr

/-- What the slot of a line has done so far: the engine at work on one active line (R217, R225). -/
structure WgRun where
  line : Nat := 0
  pos : Nat := 0
  /-- Stopped for the line. -/
  held : Bool := false
  /-- Instructions executed for the line. -/
  count : Nat := 0
  /-- Writes of the line with their stamps, in list order. -/
  writes : List (Nat × LlWrite) := []
  deriving DecidableEq, Repr

/-- A line slot or prefill slot that has been released (R256 to R258). -/
structure Slot where
  comb : Fin 24
  line : Nat
  /-- Deadline in comb clocks of device time, as the comb sees it. -/
  deadline : Nat
  started : Bool := false
  /-- Wait clocks so far (R253). -/
  waits : Nat := 0
  /-- The slot's own copy of the waggle engine, which counts only if the slot completes (R260). -/
  eng : WgEngine := {}
  run : WgRun := {}
  /-- Lines still to be taken up after the present one (R228). -/
  todo : List Nat := []
  /-- Lines finished by the engine, oldest first, with their stamped writes. -/
  done : List (Nat × List (Nat × LlWrite)) := []
  /-- Writes stamped at or beyond VB_HACTIVE, for the next active line. -/
  carry : List LlWrite := []
  /-- Comb clocks of the instructions executed (R219). -/
  cost : Nat := 0
  /-- Line of the last IRQ executed in the slot. -/
  irq : Option Nat := none
  /-- Fault bits of R226 met in the slot, and the record of the first. -/
  fault : Byte := 0
  record : Word := 0
  /-- Largest instruction count of a line finished in the slot. -/
  peak : Nat := 0
  deriving DecidableEq, Repr

/-- What one cell frame collects (R560): TP_STAT, SPR_PEAK, WG_PEAK, LS_PEAK. -/
structure Collect where
  tp : Half := 0
  spr : Nat := 0
  wg : Nat := 0
  ls : Nat := 0
  deriving DecidableEq, Repr

/-- A line waiting in the writeback queue (R241). -/
structure WbLine where
  addr : Nat
  bytes : List Byte
  last : Bool
  deriving DecidableEq, Repr

/-- Video state of one cell beyond its registers. -/
structure CellVid where
  /-- Palette entries in force (R233); unlisted entries are 000000h. -/
  pal : Table (BitVec 24) := []
  /-- Palette entries as the core reads them (R234). -/
  palCore : Table (BitVec 24) := []
  /-- Sprite slots (R199); unlisted slots are disabled. -/
  sprites : Table Long := []
  /-- A snapshot has begun and is not complete: base and count of the transfer. -/
  snap : Option (Nat × Nat) := none
  sprStat : Byte := 0
  sprOvf : Word := 0
  sprCol : Word := 0
  eng : WgEngine := {}
  wgStat : Byte := 0
  wgIrqLine : Nat := 0
  wgFlt : Word := 0
  /-- Writes that take effect from pixel 0 of the next active line, in list order (R217). -/
  carry : List LlWrite := []
  /-- Missed lines not yet taken up, oldest first (R228). -/
  missed : List Nat := []
  /-- Reference point of the affine unit, 1/256 source pixel (R236). -/
  rx : Int := 0
  ry : Int := 0
  compStat : Byte := 0
  lbufLines : Word := 0
  lbufNoticed : Bool := false
  /-- Released slot of the cell, if any. -/
  slot : Option Slot := none
  /-- Prefill slot: its comb, and whether it has been released in this frame. -/
  prefill : Option (Fin 24) := none
  /-- Collection of the frame in progress, and of the frame before while both are open. -/
  coll : Collect := {}
  prev : Option Collect := none
  /-- Copies of the previous cell frame (R560). -/
  shown : Collect := {}
  /-- Peaks of the last 8 frames, newest first. -/
  peaks : List Nat := []
  lsStat : Byte := 0
  missCnt : Half := 0
  missLine : Nat := 0
  missLines : Word := 0
  missNoticed : Bool := false
  /-- The line last delivered to the destinations, with its VB_HACTIVE (R260). -/
  last : Option (Nat × Pixels) := none
  /-- OUT_SLICE of the present frame (R240). -/
  outSlice : Bool := false
  /-- OUT_HEADS: heads with a window ATTACHED to the cell (R251). -/
  heads : Byte := 0
  /-- The last 64 lines delivered while a window was ATTACHED, newest first (head rings, R242). -/
  ring : List (Nat × Pixels) := []
  /-- A frame is being captured; its lines are written unless the pitch was invalid (R241). -/
  wbOn : Bool := false
  wbBad : Bool := false
  wbQueue : List WbLine := []
  wbStat : Byte := 0
  wbFrames : Word := 0
  deriving DecidableEq, Repr

/-- A comb (R252 to R268). -/
structure Comb where
  /-- Cell whose line slot it is composing. -/
  work : Option (Fin 128) := none
  /-- Cell whose prefill slot it is working on. -/
  prefill : Option (Fin 128) := none
  /-- A slot exceeded its PLAN, and 3/4 of it, in the present house frame (R363). -/
  late : Bool := false
  near : Bool := false
  /-- Comb clocks in slots in the present house frame. -/
  busy : Nat := 0
  busyPct : Byte := 0
  slots : Long := 0
  misses : Word := 0
  deriving DecidableEq, Repr

/-- The slot table and its counters (R263 to R265, R268). -/
structure SlotTable where
  live : Vector Word 128 := Vector.replicate 128 0x1F
  shadow : Vector Word 128 := Vector.replicate 128 0x1F
  /-- The keeper has marked the shadow complete. -/
  marked : Bool := false
  swaps : Word := 0
  swapFrame : Long := 0
  overload : Word := 0
  deriving DecidableEq, Repr

/-! ## Blitter, foragers, check unit (R269 to R297) -/

/-- A snapshot of IO 0300h to 0325h, one blit operation (R276). -/
structure BlitOp where
  op : Byte
  fmt : Nat
  fn : Nat
  sbase : Nat
  dbase : Nat
  spitch : Nat
  dpitch : Nat
  sx : Nat
  sy : Nat
  dx : Nat
  dy : Nat
  w : Nat
  h : Nat
  color : Nat
  key : Nat
  wmark : Nat
  deriving DecidableEq, Repr

/-- The blitter context of a cell. -/
structure Blit where
  /-- The running operation. -/
  run : Option BlitOp := none
  /-- It has begun in the engine: it has been checked. -/
  begun : Bool := false
  /-- It overlaps itself (R274): its results are free values. -/
  selfOver : Bool := false
  /-- Next destination byte of the present row. -/
  next : Nat := 0
  queue : Option BlitOp := none
  rows : Nat := 0
  /-- DONE, WM, ERR, OVLP and REJECT at their places in BL_STAT. -/
  stat : Byte := 0
  err : Byte := 0
  deriving DecidableEq, Repr

/-- A forager channel (R283 to R293). -/
structure Fg where
  busy : Bool := false
  /-- The present descriptor's four words, once fetched. -/
  desc : Option (Nat × Nat × Nat × Nat) := none
  cur : Nat := 0
  /-- Source and destination beats made under the present descriptor. -/
  srcBeats : Nat := 0
  dstBeats : Nat := 0
  /-- Bytes in the holding register, and swapped bytes on their way out. -/
  hold : List Byte := []
  out : List Byte := []
  /-- Bytes delivered of the present descriptor. -/
  done : Nat := 0
  /-- HALF, FULL, END, REJECT and LAPOVR at their places in FGk_STAT. -/
  stat : Byte := 0
  code : Byte := 0
  faddr : Word := 0
  dcount : Half := 0
  deriving DecidableEq, Repr

/-- The check unit (R294 to R297). -/
structure Ck where
  active : Bool := false
  /-- A finish is being folded and compared. -/
  finishing : Bool := false
  crc : Word := 0
  count : Nat := 0
  result : Word := 0
  /-- DONE, MIS, LATE and CFG at their places in CK_STAT. -/
  stat : Byte := 0
  deriving DecidableEq, Repr


/-! ## Watchdog (R313 to R318) -/

/-- The watchdog of a cell; WD_CTL [3:0], WD_PERIOD and WD_WARN stand among the plain registers. -/
structure Wd where
  /-- WDW is pending (R313). -/
  wdw : Bool := false
  warn : Bool := false
  topup : Bool := false
  lockBroken : Bool := false
  opened : Bool := false
  keyErr : Bool := false
  lock : Bool := false
  count : Nat := 0
  /-- The warning point, and zero, have been reached and their step is due (R313). -/
  warnDue : Bool := false
  expireDue : Bool := false
  deriving DecidableEq, Repr
/-! ## Timers (R298 to R312) -/

/-- A timer of a cell; TMn_CLK, TMn_CTL, TMn_ACT, TMn_IE and TMn_CAPCFG stand among the plain registers. -/
structure Tm where
  cnt : Nat := 0
  /-- Count at the last stop or capture (R307). -/
  snap : Nat := 0
  cap : Nat := 0
  /-- The captured value has not been read (R309). -/
  capUnread : Bool := false
  run : Bool := false
  stat : Byte := 0
  /-- Compare value in force, a value held pending, the last value loaded, and staged bytes (R306). -/
  cmp : Nat := 0xFFFF
  cmpPend : Option Nat := none
  cmpRead : Nat := 0xFFFF
  stageLo : Byte := 0xFF
  stageHi : Byte := 0xFF
  /-- A reset of the timer itself on match takes the place of the next count (R303). -/
  selfReset : Bool := false
  deriving DecidableEq, Repr

/-! ## Sound and device audio (R319 to R350) -/

/-- One logged write of a voice or mix register: the sample point it waits for, and its bytes (R321). -/
structure SndEnt where
  line : Nat
  pixel : Nat
  addr : Nat
  bytes : List Byte
  deriving DecidableEq, Repr

/-- State of one voice (R323 to R328). -/
structure Voice where
  /-- Phase: 12 fraction bits for wavetable and stream, the 16-bit accumulator for pulse and noise. -/
  phase : Nat := 0
  lfsr : BitVec 15 := 0x7FFF
  env : Nat := 0
  active : Bool := false
  /-- ENVPH: 0 off, 1 attack, 2 decay or sustain, 3 release. -/
  envPh : Nat := 0
  /-- Sample points since the last step of the envelope. -/
  envCnt : Nat := 0
  /-- END, RANGE, NEED, UNDER and OVR at their places in VC_STAT. -/
  stat : Byte := 0
  fifo : List Byte := []
  /-- VC_LEVEL at the last sample point. -/
  level : Nat := 0
  /-- Present stream sample. -/
  cur : Int := 0
  /-- Raw sample of the last sample point. -/
  raw : Int := 0
  /-- A prefetched read: the sample index it serves, the sample and the next one; `none` for a refused read (R330). -/
  pre : Option (Nat × Option (Int × Int)) := none
  /-- Contributions at the last sample point, and silence reached under R332. -/
  cl : Int := 0
  cr : Int := 0
  silent : Bool := false
  /-- VC_POS at the last sample point. -/
  pos : Nat := 0
  deriving DecidableEq, Repr

/-- One channel of a gain stage (R341). -/
structure GainCh where
  cur : Byte := 0
  target : Byte := 0
  pend : Bool := false
  /-- Samples since the first write of the pending step. -/
  wait : Nat := 0
  prev : Int := 0
  deriving DecidableEq, Repr

/-- Sound state of a cell. -/
structure CellSnd where
  voices : Vector Voice 16 := Vector.replicate 16 {}
  log : List SndEnt := []
  logCount : Nat := 0
  /-- Staged low bytes of multi-byte registers; unlisted bytes hold the reset value. -/
  stage : List Host.Cell := []
  /-- KEFF and m of R319. -/
  keff : Nat := 1
  div : Nat := 1
  /-- Sample points already made in the present cell beam line. -/
  idx : Nat := 0
  /-- CLIP, LOG_OVF, LATE and CFG at their places in SND_STAT. -/
  stat : Byte := 0
  ends : Half := 0
  mixL : Int := 0
  mixR : Int := 0
  /-- Cell bridge (R338): 0 IDLE, 1 ACQUIRING, 2 LOCKED. -/
  bridge : Byte := 0
  relocks : Word := 0
  /-- Input rate of the bridge, mHz. -/
  rate : Nat := 0
  gainL : GainCh := { cur := 255, target := 255 }
  gainR : GainCh := { cur := 255, target := 255 }
  /-- Index of the next sample frame of streams 0, and of stream 1 by port (R413). -/
  frames0 : Word := 0
  frames1 : Vector Word 4 := Vector.replicate 4 0
  deriving DecidableEq, Repr

/-- A headset port (R337 to R347). -/
structure HsPort where
  /-- Source selected by the multiplexer (HS_SRC in force), and the stage of R339: 0 none, 1 muting, 2 locking. -/
  src : Word := 0
  stage : Nat := 0
  bridge : Byte := 0
  relocks : Word := 0
  clip : Word := 0
  earL : GainCh := {}
  earR : GainCh := {}
  side : GainCh := {}
  mic : GainCh := { cur := 255, target := 255 }
  /-- HS_JACK.STATE and TYPE, HS_MICCODE, and typings made since insertion. -/
  jack : Byte := 0
  kind : Byte := 0
  micCode : Half := 0
  typings : Nat := 0
  /-- HS_BTN, and the reading that may become it with its run of agreeing readings. -/
  btn : Byte := 0
  btnNext : Byte := 0
  btnRun : Nat := 0
  /-- HS_MICDST in force (R339). -/
  micDst : Word := 0
  /-- Slots 0 and 1 of the last frame on HSn_DOUT. -/
  outL : BitVec 24 := 0
  outR : BitVec 24 := 0
  deriving DecidableEq, Repr


/-! ## The keeper (R351 to R371) -/

/-- Where the keeper has put a cell, and its moves (R360, R371, R387 to R396). -/
structure CellKp where
  /-- The core that serves the cell. -/
  core : Option (Fin 128) := none
  /-- The core is serving this cell now, not its other resident cell (R18). -/
  onCore : Bool := false
  /-- The core decided for the next program frame start (R351). -/
  nextCore : Option (Fin 128) := none
  /-- A core move has begun and is not done (R360). -/
  moving : Bool := false
  /-- Keeper frame of the last core change, and of the last change of run device (R353). -/
  coreSince : Option Nat := none
  devSince : Option Nat := none
  /-- Placement table index of each page (R354). -/
  pmap : List Nat := []
  coreMoves : Word := 0
  pageMoves : Word := 0
  /-- Run device of an own cell that runs away from home (R387). -/
  away : Option (BitVec 3) := none
  /-- Home device of a guest cell that holds this context (R387), and whether GO has been received. -/
  guest : Option (BitVec 3) := none
  guestOn : Bool := false
  migState : Byte := 0
  migTarget : Byte := 0xFF
  migDirty : Word := 0
  migDefers : Byte := 0
  migLastStop : Word := 0
  migCount : Word := 0
  /-- Precopy passes complete, and 512-byte blocks written since the present pass began (R390). -/
  passes : Nat := 0
  /-- The switch has stopped the cell (R392); the blitter and foragers hold. -/
  stopped : Bool := false
  /-- READY has been received and GO sent (R393). -/
  gone : Bool := false
  /-- No migration is tried before this keeper frame (R394). -/
  notBefore : Nat := 0
  /-- A load of the own cell waits for a guest to leave (R387). -/
  loadWaits : Bool := false
  /-- Bytes of page blocks and of the switch state received (R377, R392). -/
  stateIn : List Byte := []
  /-- Device time at which a core move or a switch suspended the counting of the timers (R312). -/
  heldAt : Long := 0
  deriving DecidableEq, Repr

/-- A page move in progress (R173, R359). -/
structure PageMove where
  page : Nat
  place : Place
  forced : Bool
  deriving DecidableEq, Repr

/-- What a scout remembers of its unit (R363). -/
structure Scout where
  exceeded : Nat := 0
  good : Nat := 0
  slow : Bool := false
  deriving DecidableEq, Repr

/-- An object that has left a unit (R353): a page, or 131072 + a cell. -/
structure KpLeft where
  object : Nat
  unit : Nat
  frame : Nat
  deriving DecidableEq, Repr

/-- The keeper of the device. -/
structure Keeper where
  /-- House frames since the end of TRAIN (R351). -/
  frames : Nat := 0
  /-- Placement table entries (R354); unlisted entries are free. -/
  pt : Table Long := []
  moves : List PageMove := []
  /-- Moves started in the present house frame. -/
  started : Nat := 0
  /-- HEAT has been halved in the present decision period. -/
  halved : Bool := false
  moveUse : Byte := 0
  pageMoves : Long := 0
  coreMoves : Word := 0
  migrations : Word := 0
  fenceDone : BitVec 64 := 0
  /-- Scouts by kind × 32 + unit; kinds 0 cluster, 1 comb, 2 RLD channel, 3 swarm link, 4 host link. -/
  scouts : Table Scout := []
  clRate : Vector Byte 16 := Vector.replicate 16 100
  chLat : Vector Half 8 := Vector.replicate 8 0
  hostWait : Half := 0
  unmet : Vector Word 32 := Vector.replicate 32 0
  left : List KpLeft := []
  deriving DecidableEq, Repr

/-! ## Swarm links (R372 to R396) -/

/-- A Jajan frame (R376). -/
structure JFrame where
  kind : Nat
  last : Bool
  src : BitVec 3
  dst : BitVec 3
  seq : BitVec 12
  ack : Option (BitVec 12)
  tag : Word
  payload : List Byte
  deriving DecidableEq, Repr

/-- A swarm link (R375 to R381, R395). -/
structure Link where
  state : Byte := 0
  rate : Byte := 0
  /-- Rate being tried in training. -/
  trying : Byte := 0
  /-- No rate was accepted; it retries after 1 s. -/
  failed : Bool := false
  signal : Bool := false
  peer : Byte := 0xFF
  hello : Option HelloInfo := none
  /-- SEQ of the next numbered frame sent, and the SEQ expected from the peer (R379). -/
  txSeq : BitVec 12 := 0
  rxSeq : BitVec 12 := 0
  /-- Expected SEQ of the last NAK sent. -/
  nakSent : Option (BitVec 12) := none
  /-- Frames sent and not acknowledged, oldest first. -/
  replay : List JFrame := []
  resends : Nat := 0
  /-- 128-byte units of credit held in each class (R380). -/
  credit : Vector Nat 4 := #v[8, 256, 64, 256]
  /-- Units freed here in each class and not yet returned. -/
  freed : Vector Nat 4 := Vector.replicate 4 0
  /-- The last class 0 frame sent. -/
  lastCtrl : Option JFrame := none
  payload : Byte := 0
  delay : Half := 0
  retries : Word := 0
  crcErr : Word := 0
  fecCorr : Long := 0
  retrains : Word := 0
  relayed : Word := 0
  /-- Lines, audio samples and dictionary bodies that have arrived in part, by tag. -/
  parts : Table (List Byte) := []
  deriving DecidableEq, Repr

/-- Swarm state of the device. -/
structure Swarm where
  links : Vector Link 7 := Vector.replicate 7 {}
  master : Byte := 0xFF
  /-- House frames since the last BEAM frame of the master. -/
  beamAge : Nat := 0
  /-- HB_FRAME of the master at the last BEAM frame, which a LOCKED follower adopts (R386). -/
  masterFrame : Option Long := none
  coherent : Bool := false
  timeErr : BitVec 32 := 0
  fwdLost : Word := 0
  migAbandons : Word := 0
  /-- Members reached when paths were last looked at (R389). -/
  members : BitVec 8 := 0
  deriving DecidableEq, Repr

/-! ## Queues, notices, host mailbox (R397 to R422) -/

/-- A queue block and its device queue (R400 to R409). -/
structure Queue where
  ringBase : Long := 0
  cplBase : Long := 0
  ctl : Word := 0
  slotBytes : Word := 0
  head : Word := 0
  tail : Word := 0
  tailUs : Word := 0
  stat : BitVec 6 := 0
  count : Word := 0
  /-- Whole packets in the device queue, oldest first. -/
  waiting : List Packet := []
  /-- Words of the open packet with their tags (tags are 0 for words the device pushes). -/
  opened : List (Long × Long) := []
  /-- The open packet has failed and vanishes at its END word. -/
  spoiled : Bool := false
  /-- Data word of a two-part window write (R405). -/
  staged : Long := 0
  /-- Words already popped of the oldest packet (R404). -/
  popped : Nat := 0
  /-- The next packet delivered carries DROPPED. -/
  dropNext : Bool := false
  /-- The queue is in a stall already reported (R407). -/
  stalled : Bool := false
  /-- Ring packets written to host memory and not yet past HEAD, oldest first. -/
  inRing : List Packet := []
  /-- Data word and tag of the last completion entry written, or of the last pop, and the slot it names (R402, R404). -/
  lastCpl : Long × Long := (0, 0)
  lastSlot : Nat := 0
  /-- Packets since the last message under IRQ 10b. -/
  sinceIrq : Nat := 0
  /-- A packet was rewound because the queue was full, and room has not returned (R416). -/
  roomOwed : Bool := false
  deriving DecidableEq, Repr

/-- Host-side blocks of one cell (R398, R417 to R422). -/
structure CellHost where
  slice : Queue := {}
  audio : Queue := {}
  event : Queue := {}
  input : Queue := {}
  /-- IN_P0 to IN_P7. -/
  inP : Vector Long 8 := Vector.replicate 8 0
  inChg : Byte := 0
  mbData : Long := 0
  mbFull : Bool := false
  mbRej : Bool := false
  /-- Low half of a two-part mailbox write. -/
  mbLow : Word := 0
  /-- Staged bytes of EV_DATA, IO 0F10h to 0F16h. -/
  evStage : Vector Byte 8 := Vector.replicate 8 0
  evEndNext : Bool := false
  evOvf : Bool := false
  sliceDrop : Word := 0
  sliceBig : Word := 0
  audDrop : Word := 0
  inRewind : Word := 0
  qTails : Word := 0
  /-- GAP is due on the next packet of stream 0, and of stream 1 by port (R413). -/
  gap0 : Bool := false
  gap1 : BitVec 4 := 0
  deriving DecidableEq, Repr

/-- The host link and the PF0 queues. -/
structure HostLink where
  speed : Byte := 0
  width : Byte := 0
  payload : Half := 0
  retrains : Word := 0
  aerCorr : Word := 0
  cmdRewind : Word := 0
  nqLostTotal : Word := 0
  vfEnable : Bool := false
  notice : Queue := {}
  command : Queue := {}
  /-- Notices discarded and not yet reported by NQ_LOST (R414). -/
  nqLost : Word := 0
  /-- The command packet the MC is serving (R406). -/
  serving : Option Packet := none
  /-- MSI-X messages sent, by function × 256 + vector; function 0 is PF0 and k + 1 is VF k. -/
  msix : Table Nat := []
  deriving DecidableEq, Repr

/-! ## Management controller: journal, sessions, mailbox, field network (R432 to R457) -/

/-- A debug challenge of a session for one debug unit (R461). -/
structure Challenge where
  cell : Nat
  level : Byte
  nonce : List Byte
  deriving DecidableEq, Repr

/-- A session of the dictionary (R439). -/
structure Session where
  num : Half
  transport : Fin 7
  /-- Device at which its requests enter the swarm (R440). -/
  dev : BitVec 3 := 0
  node : Byte := 0
  mac : Long := 0
  notify : Bool := false
  /-- The previous request's bytes and its kept response (R444). -/
  lastReq : List Byte := []
  lastRsp : List Byte := []
  ptIndex : Word := 0
  pmapIdx : Half := 0
  jrCursor : Long := 0
  /-- Debug targets and levels held, by cell (R459). -/
  levels : Table Byte := []
  /-- Debug spaces, addresses and lengths selected, by cell × 4 + field (R468, R469). -/
  dbgSel : Table Word := []
  /-- The level asked for by DBG_REQ, by cell. -/
  dbgReq : Table Byte := []
  challenges : List Challenge := []
  /-- A request that has gone on to the member that owns its objects, until its response comes (R441). -/
  fwd : List Byte := []
  deriving DecidableEq, Repr

/-- A field-network message in parts (R446). -/
structure CanPart where
  node : Byte
  nextSeg : Nat
  body : List Byte
  deriving DecidableEq, Repr

/-- A CAN controller (R446, R447). -/
structure Can where
  state : Byte := 0
  segErr : Word := 0
  appRx : List Byte := []
  parts : List CanPart := []
  /-- The last frames sent, oldest first. -/
  tx : List (List Byte) := []
  deriving DecidableEq, Repr

/-- The management controller. -/
structure Mc where
  /-- Journal entries, newest first, at most 8,192 (R452). -/
  journal : List JEntry := []
  jrSeq : Nat := 0
  sessions : List Session := []
  /-- Numbers of closed sessions and the device times at which they closed, newest first (R439). -/
  retired : List (Half × Nat) := []
  /-- MBX_CTL.BUSY and DONE (R448). -/
  mbxBusy : Bool := false
  mbxDone : Bool := false
  mbxReqLen : Word := 0
  mbxRspLen : Word := 0
  /-- MBX_BUF, 240 bytes (R448). -/
  mbxBuf : List Byte := []
  /-- Result code of the last item executed, and the value it read. -/
  result : Byte := 0
  value : List Byte := []
  t1sRx : List Byte := []
  t1sLost : Word := 0
  t1sRxErr : Word := 0
  /-- The last T1S frame sent. -/
  t1sTx : List Byte := []
  can : Vector Can 2 := Vector.replicate 2 {}
  /-- NOTICE messages sent to sessions opened with NOTIFY, and the last one's words. -/
  notifySent : Nat := 0
  notifyLast : List Long := []
  deriving DecidableEq, Repr

/-! ## Heads, windows and overlays (R242 to R249, R423 to R431) -/

/-- An overlay layer of a head and its flip block (R245 to R249). -/
structure Layer where
  nextAddr : Long := 0
  nextPitch : Word := 0
  flipSeal : Long := 0
  sealNow : Long := 0
  /-- Staged low halves of FLIP_SEAL and SEAL (R421). -/
  lowFlip : Word := 0
  lowSeal : Word := 0
  /-- Armed flip: address and pitch. -/
  armed : Option (Long × Word) := none
  curAddr : Long := 0
  curPitch : Word := 0
  skips : Word := 0
  flips : Word := 0
  pkErr : Word := 0
  /-- Rows in the overlay buffer, by head line: pixels (R428). -/
  rows : List (Nat × List Word) := []
  deriving DecidableEq, Repr

/-- A head window (R242 to R244, R523). -/
structure Win where
  st : Byte := 0
  late : Word := 0
  /-- WIN_SRC, WIN_SRCRECT, WIN_DST and WIN_SCALE in force. -/
  src : Nat := 0
  rect : Nat := 0
  dst : Nat := 0
  scale : Nat := 0x11
  /-- Wax-store slots of its ring. -/
  slots : Nat := 0
  deriving DecidableEq, Repr

/-- A head (R423 to R430). -/
structure Head where
  /-- The raster runs, or waits for its first lock point. -/
  on : Bool := false
  waiting : Bool := false
  stopping : Bool := false
  line : Nat := 0
  frame : Long := 0
  link : Byte := 0
  rate : Byte := 0
  lanes : Byte := 0
  sink : Option SinkCaps := none
  /-- The stream is being sent: the link is ACTIVE and a head frame has started since. -/
  sending : Bool := false
  underrun : Word := 0
  retrains : Word := 0
  /-- An underrun has been reported in this head frame. -/
  underNoted : Bool := false
  layers : Vector Layer 2 := Vector.replicate 2 {}
  wins : Vector Win 16 := Vector.replicate 16 {}
  /-- The head line composed last. -/
  out : Pixels := []
  deriving DecidableEq, Repr

/-! ## Debug port of a cell (R458 to R482) -/

/-- The debug state of one cell and its virtual terminal. -/
structure CellDbg where
  /-- DBG_PATCH0 to DBG_PATCH7 (R473). -/
  patches : Vector Long 8 := Vector.replicate 8 0
  /-- An accepted HALT that has not been taken (R464). -/
  haltReq : Bool := false
  /-- Instructions counted while the halt is deferred by an open locked sequence (R465). -/
  haltAge : Nat := 0
  haltCause : Byte := 0
  /-- The instruction at PC runs without testing the break patches (R467). -/
  skipBreak : Bool := false
  /-- DBG_CTL. -/
  ctl : Byte := 0
  /-- Sessions that have not read DBG_STAT since LOCK_BROKEN, and since SIDEFX, was set. -/
  lockBroken : List Half := []
  sideFx : List Half := []
  /-- The present SLEEP is emulated (R475). -/
  emu : Bool := false
  /-- Any session holds FULL for the cell. -/
  full : Bool := false
  vtTx : List Byte := []
  vtRx : List Byte := []
  vtTxOvf : Bool := false
  vtHostOvf : Bool := false
  /-- Answer to the host's last read of VT_HOST_RX. -/
  vtHostRd : Word := 0
  deriving DecidableEq, Repr

/-! ## Modes, power domains, boot, measurement (R483 to R513) -/

/-- Device modes (R483). -/
inductive Mode where
  | off | hold | sense | load | train | ready | serve | limited | drain | retain | diag | faultHold
  deriving DecidableEq, Repr

/-- A power domain (R489 to R492). -/
structure Dom where
  st : Byte := 0
  forced : Word := 0
  /-- In OFF_PENDING_ON: the shutdown has reached RAMP_DOWN. -/
  down : Bool := false
  deriving DecidableEq, Repr

/-- The host boot window (R502). -/
structure BootWin where
  busy : Bool := false
  done : Bool := false
  err : Bool := false
  code : Byte := 0
  addr : Long := 0
  len : Word := 0
  deriving DecidableEq, Repr

/-- A record of a default section that waits for READY (R501). -/
structure BootRec where
  index : Half
  sub : Byte
  ty : Byte
  value : List Byte
  deriving DecidableEq, Repr

/-- Modes, reset and boot. -/
structure Pwr where
  mode : Mode := .hold
  /-- Fraction accumulator of device time while the crystal is stopped, and whether it is (R28). -/
  frac : BitVec 6 := 0
  crystalOff : Bool := false
  req : Byte := 5
  rstCause : Byte := 0x01
  id : BitVec 3 := 0
  /-- Straps ID have been read since power-up (R372). -/
  idIn : Bool := false
  bootSrc : Byte := 0
  bootImage : Byte := 0
  spiMode : Byte := 0
  defSkip : Half := 0
  loadUs : Word := 0
  fhCause : Byte := 0
  fhAuto : Word := 0
  drainPaused : BitVec 128 := 0
  /-- Mode that the drain in progress goes to. -/
  drainTo : Mode := .ready
  fuses : Option FuseData := none
  boot : BootWin := {}
  held : List BootRec := []
  /-- The TRAIN in progress follows a wake event (R495). -/
  woken : Bool := false
  /-- Trip comparators asserted (R507). -/
  trips : BitVec 16 := 0
  /-- The pads are held by their latches (R542). -/
  padHeld : Bool := false
  /-- Rate of each cluster pair in percent (R488). -/
  throttle : Vector Byte 8 := Vector.replicate 8 100
  doms : Vector Dom 63 := Vector.replicate 63 {}
  deriving DecidableEq, Repr

/-- A temperature sensor (R507) and a supply tap (R508), with the frames left in which no further notice is raised. -/
structure Ts where
  temp : BitVec 16 := 0
  peak : BitVec 16 := 0
  quiet : Nat := 0
  deriving DecidableEq, Repr

structure Sp where
  mv : Half := 0
  low : Half := 0
  high : Half := 0
  /-- Consecutive frames outside ±10 %. -/
  bad : Nat := 0
  quiet : Nat := 0
  read : Bool := false
  deriving DecidableEq, Repr

/-- An analogue input (R509). -/
structure Ain where
  code : Half := 0
  st : Byte := 1
  deriving DecidableEq, Repr

/-- The measurement converter. -/
structure Conv where
  ts : Vector Ts 16 := Vector.replicate 16 {}
  sp : Vector Sp 16 := Vector.replicate 16 {}
  ain : Vector Ain 4 := Vector.replicate 4 {}
  /-- A reading of each sensor has been taken since LOAD. -/
  tsRead : BitVec 16 := 0
  deriving DecidableEq, Repr

/-! ## Memory channels (R514 to R530) -/

/-- Correctable errors of a unit in the present second (R519). -/
structure CeRate where
  start : Nat := 0
  n : Nat := 0
  noted : Bool := false
  deriving DecidableEq, Repr

/-- An RLD channel. -/
structure Rl where
  st : Byte := 0
  trainUs : Word := 0
  ce : Long := 0
  ue : Word := 0
  ueLast : Long := 0
  throttled : Bool := false
  busy : Byte := 0
  /-- It trained at the end of the last TRAIN: its frames are in use (R486). -/
  counted : Bool := false
  /-- RL_REF16 in force, and refresh commands started (R517). -/
  ref16 : Bool := false
  refreshes : Nat := 0
  /-- Drift closures made (R515). -/
  drifts : Nat := 0
  deriving DecidableEq, Repr

/-- Memory of the device. -/
structure MemUnit where
  density : Byte := 0
  frames : Nat := 0
  chans : Vector Rl 8 := Vector.replicate 8 {}
  waxCe : Long := 0
  waxUe : Word := 0
  sramCe : Long := 0
  sramUe : Word := 0
  /-- Units 0 to 7 channels, 8 wax store, 9 to 24 cluster SRAMs. -/
  rates : Vector CeRate 25 := Vector.replicate 25 {}
  deriving DecidableEq, Repr

/-! ## Pins (R531 to R544) and the TAP (R479) -/

/-- A general-purpose pin: its filtered level before inversion, and its pad latch. -/
structure Pin where
  level : Bool := false
  /-- Output level, output enable and pull that the latch holds while the pad is held (R542). -/
  latch : Option (Bool × Bool × Nat) := none
  deriving DecidableEq, Repr

/-- The TAP: state of IEEE 1149.1 (0 is Test-Logic-Reset), instruction in force, shift register, TDO. -/
structure Tap where
  st : Nat := 0
  ir : TapInstr := .idcode
  shift : List Bool := []
  tdo : Bool := false
  deriving DecidableEq, Repr

/-- Debug state of the device (R463, R481). -/
structure DbgDev where
  fails : Word := 0
  /-- Device times of the refusals of the last 60 s. -/
  recent : List Nat := []
  /-- Device time at which the lockout ends. -/
  until_ : Option Nat := none
  deriving DecidableEq, Repr

/-! ## A cell and the device -/

/-- Everything of one cell. -/
structure Cell where
  ctl : CellCtl := {}
  /-- CELL_PROFILE: 1 G1, 2 G2, 3 G3 (R101). -/
  prof : Byte := 3
  core : Core := {}
  pace : Pace := {}
  beam : CellBeam := {}
  ic : Ic := {}
  map : Mapper := {}
  img : Image := {}
  /-- Cell space bytes; an unlisted byte is 0 (R176, R177). -/
  mem : List Host.Cell := []
  /-- I/O register bytes as reads of the core return them: plain registers, shadows, line-live read-back values. -/
  regs : List Host.Cell := []
  /-- Live bytes of shadowed registers (R51) and composed values of line-live registers (R215). -/
  live : List Host.Cell := []
  host : CellHost := {}
  /-- Extension scratch XS, 256 bytes (R143); unlisted bytes are 00h. -/
  xs : List Host.Cell := []
  dbg : CellDbg := {}
  wd : Wd := {}
  kp : CellKp := {}
  /-- 512-byte blocks written since the present precopy pass began; `none` outside a migration (R390). -/
  dirty : Option (List Nat) := none
  vid : CellVid := {}
  blit : Blit := {}
  fg : Vector Fg 4 := Vector.replicate 4 {}
  ck : Ck := {}
  tm : Vector Tm 4 := Vector.replicate 4 {}
  snd : CellSnd := {}
  /-- Capture latches of multi-byte registers, by I/O address. -/
  capt : List Host.Cell := []
  deriving DecidableEq, Repr

/-- The device. -/
structure State where
  part : Part := .ak6440fc
  /-- Device time, ns (R28). -/
  devTime : Long := 0
  house : HouseBeam := {}
  combs : Vector Comb 24 := Vector.replicate 24 {}
  slots : SlotTable := {}
  /-- AUD_CLK_STAT (R349). -/
  audClk : Byte := 0
  ports : Vector HsPort 4 := Vector.replicate 4 {}
  /-- Cell whose context each blitter engine served last (R279). -/
  blitTurn : Vector Nat 16 := Vector.replicate 16 127
  /-- MODEL: counter of free values (assumption 6). -/
  freeCtr : Nat := 0
  stores : Stores := {}
  cells : Vector Cell 128 := Vector.replicate 128 {}
  sources : Vector SharedSrc 153 := Vector.replicate 153 {}
  link : HostLink := {}
  mc : Mc := {}
  keeper : Keeper := {}
  swarm : Swarm := {}
  heads : Vector Head 4 := Vector.replicate 4 {}
  pwr : Pwr := {}
  conv : Conv := {}
  memu : MemUnit := {}
  pins : Vector Pin 128 := Vector.replicate 128 {}
  /-- GB_VOLT of each bank (R534). -/
  banks : Vector Byte 8 := Vector.replicate 8 0
  tap : Tap := {}
  dbgDev : DbgDev := {}
  /-- Written values of dictionary objects, by index × 256 + subindex; unlisted objects hold their defaults. -/
  objs : Table Long := []
  /-- Commands that wait, first in, first out. -/
  pending : List Instr := []
  deriving DecidableEq, Repr

/-- The entries that PD00 writes as VDD_AON rises: OFF to HOLD (R484), and the power-on reset (R496). -/
def bootJournal : List JEntry :=
  [{ time := 0, transport := 0, dev := 0, digest := false, node := 0, session := 0, index := 0x8012, sub := 0, result := 0
     old := 0, new := 1 },
   { time := 0, transport := 0, dev := 0, digest := false, node := 0, session := 0, index := 0x0070, sub := 0, result := 0
     old := 0, new := 1 }]

/-- A part right after power-on: HOLD, with device time 0 and a journal that holds the power-on alone (R484, R496); PD00
alone is on; every other field is at the reset value that the spec gives or the log names. -/
def State.powerUp (p : Part) : State :=
  { part := p
    pwr := { doms := (Vector.replicate 63 ({} : Dom)).set 0 { st := 2 } }
    mc := { journal := bootJournal, jrSeq := 2, sessions := [{ num := 1, transport := 1 }, { num := 2, transport := 2 }] } }

/-- The machine right after power-on reset; the part is the AK-6440-FC (assumption 1). -/
def State.reset : State := State.powerUp .ak6440fc

end Sys2Proof.Machine
end

