-- ==== Sys2Proof/Machine/Ops.lean ====
section
/-! DEFINITION. Named operations over the whole state that every family shares: cells, cell space, objects, MSI-X
messages, notices, the change journal, interrupt sources. -/

namespace Sys2Proof.Machine

/-- What a command answers. -/
abbrev Res := Host.Outcome State Fault Refusal

/-! ## Bits and bytes -/

/-- 1 for true. -/
def b2n (b : Bool) : Nat := if b then 1 else 0

/-- Byte `i` of a number, least significant first (R6). -/
def byteOf (n : Nat) (i : Nat) : Byte := BitVec.ofNat 8 (n >>> (8 * i))

/-- The `n` bytes of a number, least significant first. -/
def toBytes (v : Nat) : Nat → List Byte
  | 0 => []
  | n + 1 => BitVec.ofNat 8 v :: toBytes (v / 256) n

/-- The number that bytes spell, least significant first. -/
def ofBytes : List Byte → Nat
  | [] => 0
  | b :: r => b.toNat + 256 * ofBytes r

/-- A saturating counter of 32 bits after one more event. -/
def satInc (w : Word) : Word := if w = 0xFFFFFFFF then w else w + 1

/-- A saturating counter of 16 bits after one more event. -/
def satInc16 (w : Half) : Half := if w = 0xFFFF then w else w + 1

/-- Add with saturation at 32 bits. -/
def satAdd (w : Word) (n : Nat) : Word := if w.toNat + n > 0xFFFFFFFF then 0xFFFFFFFF else w + BitVec.ofNat 32 n

/-- Bit `i` of a vector set to `b`. -/
def putBit {w : Nat} (v : BitVec w) (i : Nat) (b : Bool) : BitVec w :=
  if b then v ||| (1#w <<< i) else v &&& ~~~(1#w <<< i)

/-- A number clamped to a range of integers. -/
def clampInt (lo hi x : Int) : Int := if x < lo then lo else if hi < x then hi else x

/-! ## Cells -/

/-- The cell `c`. -/
def State.cell (s : State) (c : CellNo) : Cell := s.cells.get c

/-- Replace cell `c`. -/
def State.setCell (s : State) (c : CellNo) (x : Cell) : State := { s with cells := s.cells.set c x }

/-- Update cell `c`. -/
def State.modCell (s : State) (c : CellNo) (f : Cell → Cell) : State := s.setCell c (f (s.cell c))

/-- Update the control block of cell `c`. -/
def State.modCtl (s : State) (c : CellNo) (f : CellCtl → CellCtl) : State :=
  s.modCell c fun x => { x with ctl := f x.ctl }

/-- Update the core registers of cell `c`. -/
def State.modCore (s : State) (c : CellNo) (f : Core → Core) : State :=
  s.modCell c fun x => { x with core := f x.core }

/-- Update the pace of cell `c`. -/
def State.modPace (s : State) (c : CellNo) (f : Pace → Pace) : State :=
  s.modCell c fun x => { x with pace := f x.pace }

/-- Update the beam of cell `c`. -/
def State.modBeam (s : State) (c : CellNo) (f : CellBeam → CellBeam) : State :=
  s.modCell c fun x => { x with beam := f x.beam }

/-- Update the interrupt controller of cell `c`. -/
def State.modIc (s : State) (c : CellNo) (f : Ic → Ic) : State :=
  s.modCell c fun x => { x with ic := f x.ic }

/-- Update the mapper of cell `c`. -/
def State.modMap (s : State) (c : CellNo) (f : Mapper → Mapper) : State :=
  s.modCell c fun x => { x with map := f x.map }

/-- Update the host-side blocks of cell `c`. -/
def State.modHost (s : State) (c : CellNo) (f : CellHost → CellHost) : State :=
  s.modCell c fun x => { x with host := f x.host }

/-- Update the video state of cell `c`. -/
def State.modVid (s : State) (c : CellNo) (f : CellVid → CellVid) : State :=
  s.modCell c fun x => { x with vid := f x.vid }

/-- Update comb `k`. -/
def State.modComb (s : State) (k : Fin 24) (f : Comb → Comb) : State :=
  { s with combs := s.combs.set k (f (s.combs.get k)) }

/-- Update the debug port of cell `c`. -/
def State.modDbg (s : State) (c : CellNo) (f : CellDbg → CellDbg) : State :=
  s.modCell c fun x => { x with dbg := f x.dbg }

/-- Update the management controller. -/
def State.modMc (s : State) (f : Mc → Mc) : State := { s with mc := f s.mc }

/-- Update the host link. -/
def State.modLink (s : State) (f : HostLink → HostLink) : State := { s with link := f s.link }

/-- Cell `c` exists on this part (R2). -/
def State.present (s : State) (c : CellNo) : Bool := decide (c.val < Config.cellCount s.part)

/-- A command for cell `c`: refused where the part has no such cell (R2). -/
def onCell (c : CellNo) (s : State) (k : Res) : Res := if s.present c then k else .refused .absentUnit

/-! ## Modes (R483) -/

/-- The device is in a mode in which cells run (R483, R486). -/
def Mode.runsCells : Mode → Bool
  | .serve => true | .limited => true | .drain => true
  | .off => false | .hold => false | .sense => false | .load => false | .train => false | .ready => false
  | .retain => false | .diag => false | .faultHold => false

/-- Mode code of R483. -/
def Mode.code : Mode → Byte
  | .off => 0 | .hold => 1 | .sense => 2 | .load => 3 | .train => 4 | .ready => 5 | .serve => 6 | .limited => 7
  | .drain => 8 | .retain => 9 | .diag => 10 | .faultHold => 11

def State.cellsRun (s : State) : Bool := s.pwr.mode.runsCells

/-- A command that acts on a cell only while cells run (R483): elsewhere nothing happens (assumption 3). -/
def onLive (c : CellNo) (s : State) (k : Res) : Res := onCell c s (if s.cellsRun then k else .next s)

/-- All cells, in order. -/
def allCells : List CellNo := List.finRange 128

/-- Code of a cell state (R96). -/
def CState.code : CState → Byte
  | .empty => 0 | .loaded => 1 | .running => 2 | .paused => 3
  | .sleep => 4 | .halted => 5 | .migrating => 6 | .faulted => 7

/-- The state a cell acts in: a MIGRATING cell acts as in CELL_PRIOR (R96). -/
def Cell.actual (x : Cell) : CState := if x.ctl.st == .migrating then x.ctl.prior else x.ctl.st

/-- The cell has no core, or its core state is on the move (R360, R392). -/
def Cell.inTransit (x : Cell) : Bool := x.kp.core.isNone || x.kp.moving || x.kp.stopped

/-- A cell that has left LOADED: its beam runs and its core state is live (R96). -/
def CState.started : CState → Bool
  | .empty => false | .loaded => false | .running => true | .paused => true
  | .sleep => true | .halted => true | .migrating => true | .faulted => true

/-! ## Cell space -/

/-- The byte of cell space that nothing has written: pages enter zeroed (R176, R177). -/
def memDefault (_ : Nat) : Byte := 0

/-- A byte of cell space (R163). -/
def Cell.readMem (x : Cell) (a : Nat) : Byte := Table.read memDefault x.mem a

/-- A write into the live SAT range before the snapshot is complete sets SPR_STAT.SAT_LATE (R200). -/
def Cell.satLate (x : Cell) (a : Nat) : CellVid :=
  match x.vid.snap with
  | some (b, n) => if b ≤ a && a < b + 8 * n then { x.vid with sprStat := x.vid.sprStat ||| 0x10 } else x.vid
  | none => x.vid

/-- The 512-byte block of a written byte is noted while the cell is being copied to another device (R390). -/
def Cell.noteDirty (x : Cell) (a : Nat) : Option (List Nat) :=
  match x.dirty with
  | none => none
  | some l => if l.contains (a / 512) then some l else some (a / 512 :: l)

/-- A byte of cell space written. -/
def Cell.writeMem (x : Cell) (a : Nat) (v : Byte) : Cell :=
  { x with mem := Table.write memDefault x.mem a v, vid := x.satLate a, dirty := x.noteDirty a }

/-- The canonical form of cell space. -/
def Memory.wf (m : List Host.Cell) : Bool := Table.wf memDefault m

/-- Bytes of cell space written at rising addresses. -/
def Cell.writeMemList (x : Cell) (a : Nat) : List Byte → Cell
  | [] => x
  | v :: r => (x.writeMem a v).writeMemList (a + 1) r

/-- A cell space address that the cell owns (R163). -/
def Cell.inSpace (x : Cell) (a : Nat) : Bool := decide (a < 32768 * x.map.pages)

/-- A cell space address in the writable region (R164). -/
def Cell.writable (x : Cell) (a : Nat) : Bool := x.inSpace a && decide (32768 * x.map.ropages ≤ a)

/-- Value of dictionary object `idx`.`sub`, whose default is `d`. -/
def State.objOr (s : State) (idx sub d : Nat) : Nat :=
  (Table.read (fun _ => BitVec.ofNat 64 d) s.objs (idx * 256 + sub)).toNat

/-- Give object `idx`.`sub`, whose default is `d`, the value `v`. -/
def State.objPut (s : State) (idx sub d v : Nat) : State :=
  { s with objs := Table.write (fun _ => BitVec.ofNat 64 d) s.objs (idx * 256 + sub) (BitVec.ofNat 64 v) }

/-! ## Messages to the host -/

/-- Send one MSI-X message of function `fn` (0 for PF0, k + 1 for VF k) on `vec` (R416). -/
def State.msi (s : State) (fn vec : Nat) : State :=
  s.modLink fun l => { l with msix := Table.write (fun _ => 0) l.msix (fn * 256 + vec) (Table.read (fun _ => 0) l.msix (fn * 256 + vec) + 1) }

/-- MSI-X messages sent so far on one vector. -/
def State.msiCount (s : State) (fn vec : Nat) : Nat := Table.read (fun _ => 0) s.link.msix (fn * 256 + vec)

/-! ## Notices (R414) -/

/-- The swarm ID of this device, SW_ID (R372). -/
def State.devId (s : State) : BitVec 3 := s.pwr.id

/-- Words held by a device queue, the open packet included. -/
def Queue.words (q : Queue) : Nat :=
  (q.waiting.map fun p => p.words.length).sum + q.opened.length - q.popped

/-- CTL.EN of a queue block (R409). -/
def Queue.en (q : Queue) : Bool := q.ctl.getLsbD 0

/-- Add a whole packet to a device queue; it takes a pending DROPPED mark with it (R401). -/
def Queue.enqueue (q : Queue) (ws : List Long) : Queue :=
  { q with waiting := q.waiting ++ [{ words := ws, dropped := q.dropNext }], dropNext := false }

/-- CTL.MODE: the queue is in pop mode. -/
def Queue.pop (q : Queue) : Bool := q.ctl.getLsbD 1

/-- One packet for CTL.IRQ: none, each, every N, or those marked `last` (R409). -/
def Queue.irqStep (q : Queue) (last : Bool) : Queue × Bool :=
  match q.ctl.toNat / 4 % 4 with
  | 0 => (q, false)
  | 1 => (q, true)
  | 2 => if q.ctl.toNat / 16 % 4096 ≤ q.sinceIrq + 1 then ({ q with sinceIrq := 0 }, true) else ({ q with sinceIrq := q.sinceIrq + 1 }, false)
  | _ => (q, last)

/-- Word 0 of a notice (R414). -/
def noticeWord (dev : BitVec 3) (code unit : Nat) (isCell : Bool) (arg : Nat) : Long :=
  BitVec.ofNat 64 (code % 65536 + dev.toNat * 65536 + (unit % 128) * 1048576 + b2n isCell * 134217728 + (arg % 4294967296) * 4294967296)

/-- A notice packet enters the queue; in pop mode it is visible to the host at once (R404, R416). -/
def State.noticeIn (s : State) (ws : List Long) : State :=
  let q := s.link.notice.enqueue ws
  let r := if q.pop then q.irqStep true else (q, false)
  let s := s.modLink fun l => { l with notice := r.1 }
  if r.2 then s.msi 0 0 else s

/-- The NQ_LOST notice owed for discarded notices enters the queue as soon as it has room (R414). -/
def State.noticeOwed (s : State) : State :=
  if s.link.nqLost ≠ 0 && s.link.notice.en && decide (s.link.notice.words + 2 ≤ 128) then
    (s.noticeIn [noticeWord s.devId 0x18 0 false s.link.nqLost.toNat, s.devTime]).modLink fun l => { l with nqLost := 0 }
  else s

/-- Queue a notice on PF0, or discard and count it when the queue is full (R414). Sessions opened with NOTIFY get the
same words as a NOTICE message (R443). -/
def State.raise (s : State) (code unit : Nat) (isCell : Bool) (arg : Nat) (payload : List Long := []) : State :=
  let ws := noticeWord s.devId code unit isCell arg :: s.devTime :: payload
  let s := if s.mc.sessions.any (·.notify) then
      s.modMc fun m => { m with notifySent := m.notifySent + 1, notifyLast := ws } else s
  let s := s.noticeOwed
  if !s.link.notice.en then s
  else if s.link.nqLost = 0 && decide (s.link.notice.words + ws.length ≤ 128) then
    s.noticeIn ws
  else s.modLink fun l => { l with nqLostTotal := satInc l.nqLostTotal, nqLost := satInc l.nqLost }

/-! ## Change journal (R452 to R455) -/

/-- Write one journal entry: the ring keeps the newest 8,192. -/
def State.journal (s : State) (e : JEntry) : State :=
  s.modMc fun m => { m with journal := (e :: m.journal).take 8192, jrSeq := m.jrSeq + 1 }

/-- Journal an event of the device on its own account (R455). -/
def State.event (s : State) (code sub : Nat) (old new : Long) : State :=
  s.journal { time := s.devTime, transport := 0, dev := s.devId, digest := false, node := 0, session := 0,
              index := BitVec.ofNat 16 code, sub := BitVec.ofNat 8 sub, result := 0, old := old, new := new }

/-- An event that raises a notice and is journalled with the notice's fields (R455). -/
def State.raiseEvent (s : State) (code unit : Nat) (isCell : Bool) (arg : Nat) : State :=
  (s.raise code unit isCell arg).event code unit 0 (BitVec.ofNat 64 (arg % 4294967296))

/-! ## Interrupt sources of a cell (R148, R149) -/

/-- Sources 7 and 23 never become pending (R147). -/
def sourceExists (n : Nat) : Bool := n != 7 && n != 23 && decide (n < 32)

/-- The cluster-domain clocks of the cell are stopped (R113). -/
def Cell.clocksStopped (x : Cell) : Bool :=
  !x.dbg.emu && (x.ctl.st == .sleep || ((x.ctl.st == .migrating || x.ctl.st == .halted) && x.ctl.prior == .sleep))

/-- A rising edge of source `n` sets its pending bit, or its IC_MISS bit when it is pending already (R148). -/
def Ic.edge (i : Ic) (n : Nat) : Ic :=
  if !sourceExists n then i
  else if i.pend.getLsbD n then { i with miss := putBit i.miss n true }
  else { i with pend := putBit i.pend n true }

/-- An edge while the cluster clocks are stopped sets the source's asynchronous latch (R149). -/
def Ic.edgeAsleep (i : Ic) (n : Nat) : Ic :=
  if !sourceExists n then i
  else if i.latch.getLsbD n then { i with latch2 := putBit i.latch2 n true }
  else { i with latch := putBit i.latch n true }

/-- The latches transfer to IC_PEND in the first cluster cycle after the clocks restart (R149). -/
def Ic.transfer (i : Ic) : Ic :=
  { i with pend := i.pend ||| i.latch, miss := i.miss ||| i.latch2 ||| (i.latch &&& i.pend), latch := 0, latch2 := 0 }

/-- Source `n` of a cell receives an edge. -/
def Cell.edge (x : Cell) (n : Nat) : Cell :=
  { x with ic := if x.clocksStopped then x.ic.edgeAsleep n else x.ic.edge n }

/-- Source `n` of cell `c` receives an edge. -/
def State.edge (s : State) (c : CellNo) (n : Nat) : State := s.modCell c (·.edge n)

/-- LEVEL of source `n` (R150). -/
def Ic.level (i : Ic) (n : Nat) : Nat := (i.cfg.getD n 0).toNat % 8

/-- EN of source `n`. -/
def Ic.enabled (i : Ic) (n : Nat) : Bool := (i.cfg.getD n 0).getLsbD 7

/-- A level above the running priority; every level is when the stack is empty (R151). -/
def Ic.above (i : Ic) (l : Nat) : Bool :=
  match i.stack with
  | [] => true
  | (r, _) :: _ => decide (r < l)

/-- Source `n` qualifies (R150), with the latches of SLEEP counting as pending bits (R149). -/
def Ic.qualifies (i : Ic) (n : Nat) : Bool :=
  (i.pend.getLsbD n || i.latch.getLsbD n) && i.enabled n && i.above (i.level n)

/-- The better of two candidates: the higher level, within a level the lower number (R150). -/
def Ic.better (i : Ic) (best : Option Nat) (n : Nat) : Option Nat :=
  if i.qualifies n then
    match best with
    | none => some n
    | some m => if i.level m < i.level n then some n else some m
  else best

/-- The maskable candidate of R92: the qualifying source of highest level, lowest number first. -/
def Ic.candidate (i : Ic) : Option Nat := (List.range 32).foldl i.better none

/-- Pop the running-priority stack; a pop of an empty stack sets EOI_UNF (R151). -/
def Ic.pop (i : Ic) : Ic :=
  match i.stack with
  | [] => { i with eoiUnf := true }
  | _ :: r => { i with stack := r }

end Sys2Proof.Machine
end

