-- ==== Sys2Proof/Machine/Operands.lean ====
section
/-! DEFINITION. Registers of the EK8, the mapper's translation, and every operand form of R63 to R67. -/

namespace Sys2Proof.Machine

/-! ## Registers (R59) -/

/-- Byte register. -/
def Core.rb (k : Core) (n : Fin 16) : Byte := k.b.get n

/-- Byte register written; the pair and the quad that contain it change with it. -/
def Core.setB (k : Core) (n : Fin 16) (v : Byte) : Core := { k with b := k.b.set n v }

/-- Low and high byte registers of a pair. -/
def pairLo (n : Fin 8) : Fin 16 := ⟨2 * n.val, by omega⟩
def pairHi (n : Fin 8) : Fin 16 := ⟨2 * n.val + 1, by omega⟩

/-- Word register wn = b(2n+1):b(2n). -/
def Core.rw (k : Core) (n : Fin 8) : Half := k.rb (pairHi n) ++ k.rb (pairLo n)

/-- The low and the high byte of a word. -/
def loByte (v : Half) : Byte := v.setWidth 8
def hiByte (v : Half) : Byte := (v >>> 8).setWidth 8

/-- Word register written. -/
def Core.setW (k : Core) (n : Fin 8) (v : Half) : Core := (k.setB (pairLo n) (loByte v)).setB (pairHi n) (hiByte v)

/-- Byte `j` of quad `q` (R59). -/
def quadByte (q : Fin 4) (j : Fin 4) : Fin 16 := ⟨4 * q.val + j.val, by omega⟩

/-- F written under a mask. -/
def Core.putF (k : Core) (mask v : Byte) : Core := { k with f := setFlags k.f mask v }

end Sys2Proof.Machine

namespace Sys2Proof

/-- The value of a byte source operand. -/
def ByteSrc.val (x : ByteSrc) (k : Machine.Core) : Byte :=
  match x with
  | .reg n => k.rb n
  | .imm v => v

/-- The value of a word source operand. -/
def WordSrc.val (x : WordSrc) (k : Machine.Core) : Half :=
  match x with
  | .reg n => k.rw n
  | .imm v => v

/-- The value of ADDW's source: a register or a sign-extended byte. -/
def AddwSrc.val (x : AddwSrc) (k : Machine.Core) : Half :=
  match x with
  | .reg n => k.rw n
  | .imm v => v.signExtend 16

/-- The count of a LOOP, zero-extended from i8 (R81). -/
def LoopSrc.val (x : LoopSrc) (k : Machine.Core) : Half :=
  match x with
  | .reg n => k.rw n
  | .imm n => n.zeroExtend 16

/-- Address of an LD or ST operand (R64). -/
def LdMode.addr (m : LdMode) (k : Machine.Core) : Half :=
  match m with
  | .ind b => k.rw b
  | .inc b => k.rw b
  | .disp b d => k.rw b + d.signExtend 16
  | .abs a => a
  | .sp u => k.sp + u.zeroExtend 16
  | .idx b i => k.rw b + (k.rb i).zeroExtend 16

/-- The base register that a post-increment form writes back. -/
def LdMode.wb : LdMode → Option (Fin 8)
  | .inc b => some b
  | _ => none

/-- Address of an IN or OUT operand. -/
def IoMode.addr (m : IoMode) (k : Machine.Core) : Half :=
  match m with
  | .ind b => k.rw b
  | .inc b => k.rw b
  | .abs a => a

/-- The base register that a post-increment I/O form writes back. -/
def IoMode.wb : IoMode → Option (Fin 8)
  | .inc b => some b
  | _ => none

/-- The address of a JMP or CALL target. -/
def Target.addr (t : Target) (k : Machine.Core) : Half :=
  match t with
  | .abs a => a
  | .ind b => k.rw b

/-- Length of a JMP or CALL by its target form. -/
def Target.len : Target → Nat
  | .abs _ => 3
  | .ind _ => 2

end Sys2Proof

namespace Sys2Proof.Machine

/-- Post-increment: the base register rises by the access size (R64). -/
def Core.bump (k : Core) (b : Option (Fin 8)) (n : Half) : Core :=
  match b with
  | none => k
  | some w => k.setW w (k.rw w + n)

/-- The base register of a post-increment load of register `d`: where `d` is one of its bytes the increment is lost
(R65). -/
def baseKept (d : Fin 16) (b : Option (Fin 8)) : Option (Fin 8) :=
  match b with
  | none => none
  | some w => if d.val / 2 = w.val then none else some w

/-! ## The mapper (R166, R167) -/

/-- What the mapper answers: a cell space address, or the MAP_STAT bits of the refusal. -/
inductive Xlat where
  | ok (a : Nat)
  | refuse (stat : BitVec 6)
  deriving DecidableEq, Repr

/-- UNIT, EN and WP of a window register (R180). -/
def winUnit (w : Half) : Nat := w.toNat % 4096
def winEn (w : Half) : Bool := w.getLsbD 12
def winWp (w : Half) : Bool := w.getLsbD 13

/-- A CPU address through window register `w`. -/
def Mapper.through (m : Mapper) (w : Half) (a : Half) (write : Bool) : Xlat :=
  if !winEn w then .refuse 0x01
  else if 4 * m.pages ≤ winUnit w then .refuse 0x02
  else if write && decide (winUnit w < 4 * m.ropages) then .refuse 0x04
  else if write && winWp w then .refuse 0x08
  else .ok (winUnit w * 8192 + a.toNat % 8192)

/-- I-space: windows 0 to 7. -/
def Mapper.xlatI (m : Mapper) (a : Half) : Xlat := m.through (m.win.getD (a.toNat / 8192) 0) a false

/-- D-space: windows 8 to 15 of the model's vector. -/
def Mapper.xlatD (m : Mapper) (a : Half) (write : Bool) : Xlat := m.through (m.win.getD (8 + a.toNat / 8192) 0) a write

/-- Why an instruction is abandoned or an entry refused: what R108 latches, the vector, and the MAP_STAT bits. -/
structure Abandon where
  vector : Nat
  cause : BitVec 4
  addr : Half := 0
  data : Byte := 0
  stat : BitVec 6 := 0
  deriving DecidableEq, Repr

/-- A MAPF of an I-space access or of a D-space access (R167). -/
def mapfI (a : Half) (st : BitVec 6) : Abandon := { vector := 25, cause := 5, addr := a, stat := st }
def mapfD (a : Half) (st : BitVec 6) : Abandon := { vector := 25, cause := 6, addr := a, stat := st }

/-- A D-space byte address translated. -/
def Cell.dAddr (x : Cell) (a : Half) (write : Bool) : Except Abandon Nat :=
  match x.map.xlatD a write with
  | .ok n => .ok n
  | .refuse st => .error (mapfD a st)

/-- The `n` D-space byte addresses from `a`, wrapping; refused whole if any byte is refused. -/
def Cell.dAddrs (x : Cell) (a : Half) (write : Bool) : Nat → Except Abandon (List Nat)
  | 0 => .ok []
  | n + 1 =>
    match x.dAddr a write with
    | .error e => .error e
    | .ok p =>
      match x.dAddrs (a + 1) write n with
      | .error e => .error e
      | .ok ps => .ok (p :: ps)

/-- Bytes written at translated addresses, lowest CPU address first. -/
def Cell.putMem (x : Cell) : List Nat → List Byte → Cell
  | p :: ps, v :: vs => (x.writeMem p v).putMem ps vs
  | _, _ => x

/-- `n` bytes of D-space read from `a` (R66). -/
def Cell.dRead (x : Cell) (a : Half) (n : Nat) : Except Abandon (List Byte) :=
  match x.dAddrs a false n with
  | .error e => .error e
  | .ok ps => .ok (ps.map x.readMem)

/-- Bytes of D-space written from `a`, none of them where any is refused. -/
def Cell.dWrite (x : Cell) (a : Half) (vs : List Byte) : Except Abandon Cell :=
  match x.dAddrs a true vs.length with
  | .error e => .error e
  | .ok ps => .ok (x.putMem ps vs)

/-- The word that two bytes spell, low byte first (R66). -/
def word2 (l : List Byte) : Half :=
  match l with
  | [lo, hi] => hi ++ lo
  | _ => 0

/-- The two bytes of a word, low byte first. -/
def wordBytes (v : Half) : List Byte := [loByte v, hiByte v]

/-- An address of the extension space (R58). -/
def extSpace (a : Half) : Bool := decide (0x1000 ≤ a.toNat) && decide (a.toNat < 0x2000)

end Sys2Proof.Machine
end

