-- ==== Sys2Proof/Machine/Entry.lean ====
section
/-! DEFINITION. The core at an instruction boundary: instruction fetch with the patch units, trap and interrupt entry,
the fault of a cell, pace counting, the loop unit, and the frame around every EK8 instruction. -/

namespace Sys2Proof.Machine

/-! ## Fetch (R95, R167, R474) -/

/-- MODE and WORD of a patch unit (R473). -/
def patchMode (p : Long) : Nat := p.toNat % 4
def patchWord (p : Long) : Nat := p.toNat / 4 % 8388608

/-- The byte that a patch unit puts in place of cell space address `a` (R474). -/
def patchByte (p : Long) (a : Nat) : Byte := BitVec.ofNat 8 (p.toNat / 4294967296 / 256 ^ (a % 4))

/-- An instruction-side read of a cell space address: the lowest-numbered replacing patch unit supplies it (R474). -/
def Cell.codeByte (x : Cell) (a : Nat) : Byte :=
  match x.dbg.patches.toList.find? (fun p => patchMode p % 2 == 1 && patchWord p == a / 4) with
  | some p => patchByte p a
  | none => x.readMem a

/-- A break patch names the word of cell space address `a`; the lowest such unit. -/
def Cell.breakAt (x : Cell) (a : Nat) : Option Nat :=
  x.dbg.patches.toList.findIdx? (fun p => 2 ≤ patchMode p && patchWord p == a / 4)

/-- An I-space byte read by the core. -/
def Cell.iRead (x : Cell) (a : Half) : Except Abandon Byte :=
  match x.map.xlatI a with
  | .ok n => .ok (x.codeByte n)
  | .refuse st => .error (mapfI a st)

/-- `n` I-space bytes from `a`; refused whole if any byte is refused. -/
def Cell.iReads (x : Cell) (a : Half) : Nat → Except Abandon (List Byte)
  | 0 => .ok []
  | n + 1 =>
    match x.iRead a with
    | .error e => .error e
    | .ok v =>
      match x.iReads (a + 1) n with
      | .error e => .error e
      | .ok vs => .ok (v :: vs)

/-- A byte of TRAP_OP: a refused byte reads 00h (R108). -/
def Cell.opByte (x : Cell) (a : Half) : Byte :=
  match x.iRead a with
  | .ok v => v
  | .error _ => 0

/-- TRAP_OP: the opcode and the three bytes after it (R108). -/
def Cell.trapOpAt (x : Cell) (a : Half) : Word :=
  x.opByte (a + 3) ++ x.opByte (a + 2) ++ x.opByte (a + 1) ++ x.opByte a

/-! ## Products (R87, R88) -/

/-- Every product in flight lands. -/
def Core.land (k : Core) : Core :=
  match k.prod with
  | none => k
  | some (v, _) => { k with mhml := v, prod := none }

/-- `n` micro-cycles pass for the product in flight. -/
def Core.age (k : Core) (n : Nat) : Core :=
  match k.prod with
  | none => k
  | some (v, left) => if left ≤ n then { k with mhml := v, prod := none } else { k with prod := some (v, left - n) }

/-! ## Faults of a cell (R100) -/

/-- The migration of cell `c`, if there is one, is over without a switch: counted and noticed (R98, R394). -/
def State.migLost (s : State) (c : CellNo) : State :=
  let x := s.cell c
  if x.kp.migState = 0 then s
  else
    let s := s.setCell c { x with
      kp := { x.kp with migState := 0, migTarget := 0xFF, stopped := false, gone := false, notBefore := s.keeper.frames + 600 }
      dirty := none }
    { s with swarm := { s.swarm with migAbandons := satInc s.swarm.migAbandons } }.raiseEvent 0x15 c.val true x.kp.migDefers.toNat

/-- The cell enters FAULTED: recorded, noticed and journalled (R100); a migration is abandoned (R98). -/
def State.cellFault (s : State) (c : CellNo) (code : Byte) : State :=
  ((s.migLost c).modCtl c fun k => { k with st := .faulted, faultCause := code }).raiseEvent 4 c.val true code.toNat

/-! ## Pace (R103 to R105) and locked sequences (R557) -/

/-- One counted instruction or entry. -/
def Pace.count (p : Pace) : Pace := { p with avail := p.avail - 1, k := p.k + 1 }

/-- One counted instruction for an open locked sequence; the OUT that opened it does not count. -/
def LockedSeq.tick (q : LockedSeq) : LockedSeq := if q.fresh then { q with fresh := false } else { q with count := q.count + 1 }

/-- The sequence is open: at most 16 counted instructions have completed since its first key (R557). -/
def LockedSeq.live (q : LockedSeq) : Bool := decide (q.count ≤ 16)

/-- The cell has an open locked sequence. -/
def Cell.lockedOpen (x : Cell) : Bool :=
  match x.ctl.locked with
  | some q => q.live
  | none => false

/-- KEYERR of a kick or key sequence that is broken or abandoned (R314, R315). -/
def Cell.seqFailed (x : Cell) (r : LockedReg) : Cell :=
  match r with
  | .wdKick => { x with wd := { x.wd with keyErr := true } }
  | .wdKey => { x with wd := { x.wd with keyErr := true } }
  | .mapKey => x
  | .sysReset => x

/-- The open locked sequence is abandoned at the completion of the 17th counted instruction (R557). -/
def Cell.expireLocked (x : Cell) : Cell :=
  match x.ctl.locked with
  | none => x
  | some q => if q.live then x else ({ x with ctl := { x.ctl with locked := none } }).seqFailed q.reg

/-- A counted instruction completes in a cell: pace, the open locked sequence and a deferred halt count it. -/
def Cell.counted (x : Cell) : Cell :=
  let d := if x.dbg.haltReq && x.lockedOpen then { x.dbg with haltAge := x.dbg.haltAge + 1 } else x.dbg
  ({ x with
    pace := x.pace.count
    ctl := { x.ctl with locked := x.ctl.locked.map LockedSeq.tick }
    dbg := d }).expireLocked

/-! ## Entries (R90, R91, R108, R112, R558) -/

/-- TRAP_CAUSE, TRAP_ADDR, TRAP_DATA and TRAP_OP loaded under R108. -/
def Cell.latchTrap (x : Cell) (a : Abandon) (pc : Half) : Cell :=
  { x with ctl := { x.ctl with trapCause := a.cause, trapAddr := a.addr, trapData := a.data, trapOp := x.trapOpAt pc } }

/-- MAP_STAT records a refusal and MAP_FAULTS increases (R167, R558). -/
def Cell.mapRefused (x : Cell) (a : Abandon) : Cell :=
  { x with map := { x.map with stat := x.map.stat ||| a.stat, faults := satInc x.map.faults } }

/-- The plan of an entry: the handler address and the three stack bytes, consulted in the mapper before it commits
(R558): the vector read, then the pushed PC, then the pushed F. -/
def Cell.entryPlan (x : Cell) (vector : Nat) : Except Abandon (Half × List Nat) :=
  match x.iReads (BitVec.ofNat 16 (0xFFC0 + 2 * vector)) 2 with
  | .error e => .error e
  | .ok vs =>
    match x.dAddrs (x.core.sp - 2) true 2 with
    | .error e => .error e
    | .ok ps =>
      match x.dAddrs (x.core.sp - 3) true 1 with
      | .error e => .error e
      | .ok qs => .ok (word2 vs, ps ++ qs)

/-- The entry itself (R90): products land (R88), PC and F are pushed, ED rises, PC comes from the vector. -/
def Cell.enter (x : Cell) (target ret : Half) (ps : List Nat) : Cell :=
  let k := x.core.land
  let x := x.putMem ps [loByte ret, hiByte ret, k.f]
  { x with core := { k with pc := target, sp := k.sp - 3, ed := k.ed + 1, entered := true } }

/-- MAPF records its refusal (R167). -/
def Cell.recordRefusal (x : Cell) (latch : Option Abandon) : Cell :=
  match latch with
  | none => x
  | some a => if a.vector = 25 then x.mapRefused a else x

/-- An entry through `vector` with return address `ret`. `latch` is what an abandoned instruction latches at the entry
(R108). An entry that would take ED to 256 is not made (R112); one that the mapper refuses faults the cell (R558). -/
def State.enterVector (s : State) (c : CellNo) (vector : Nat) (ret : Half) (latch : Option Abandon) : State :=
  let x := (s.cell c).recordRefusal latch
  if x.core.ed = 255 then (s.setCell c x).cellFault c 2
  else
    match x.entryPlan vector with
    | .error e => (s.setCell c ((x.latchTrap e ret).mapRefused e)).cellFault c 4
    | .ok (target, ps) =>
      let x := match latch with
        | none => x
        | some a => x.latchTrap a ret
      s.setCell c ((x.enter target ret ps).counted)

/-- The entry through `vector` would be made: ED is below 255 and the mapper refuses nothing of it. -/
def Cell.entryOk (x : Cell) (vector : Nat) : Bool :=
  x.core.ed != 255 && (match x.entryPlan vector with | .ok _ => true | .error _ => false)

/-- An instruction abandoned under R91 enters its trap with the address of its opcode. -/
def State.takeTrap (s : State) (c : CellNo) (a : Abandon) : State :=
  s.enterVector c a.vector (s.cell c).core.pc (some a)

/-! ## The loop unit (R82 to R84) -/

/-- R83 and R84 at a completion whose sequential next address is `nxt`: the PC the loop unit chooses and the stack. -/
def loopBack (ed : Byte) (nxt : Half) : List LoopEnt → Half × List LoopEnt
  | [] => (nxt, [])
  | e :: r =>
    if e.le = nxt && e.ed = ed then
      if 2 ≤ e.lc.toNat then (e.ls, { e with lc := e.lc - 1 } :: r) else loopBack ed nxt r
    else (nxt, e :: r)

/-! ## The frame around an instruction (R91, R92, R102, R103, R129) -/

/-- What the body of an instruction answers: it completes, at the sequential next address or at another, or it is
abandoned with nothing changed. -/
inductive EkRes where
  | seq (s : State)
  | jump (s : State) (pc : Half)
  | trap (a : Abandon)
  /-- The instruction ended in a reset of its cell: there is nothing left to complete. -/
  | gone (s : State)
  /-- An extension routine completed with `next` as its sequential next address. -/
  | seqTo (s : State) (next : Half)
  /-- An extension routine left the words that the boot image gives: the vendor's words are not in the spec. -/
  | vendor
  /-- TRAP #n: the entry through the vector, with Next as return address. -/
  | enter (vector : Nat)
  /-- SLEEP with no wake event standing: the cell sleeps once the instruction has completed. -/
  | asleep
  /-- RETI abandoned for a source that qualifies before its commit (R154). -/
  | interrupted

/-- An entry of R92 is due at this boundary: WDW, PACE, or an interrupt that qualifies while I is 1. -/
def Cell.entryDue (x : Cell) : Bool :=
  !x.core.entered &&
    (x.wd.wdw || x.pace.pend || (hasFlag x.core.f fI && x.ic.candidate.isSome))

/-- The control store of the cluster that serves cell `c` is closed (R138). -/
def State.storeClosed (s : State) (c : CellNo) : Bool :=
  match (s.cell c).kp.core with
  | none => false
  | some k =>
    let u := StoreUnit.cluster ⟨k.val / 8, by omega⟩
    s.stores.closed.contains u || s.stores.repairs.any (·.1 == u)

/-- LOCK_BROKEN of an abandoned sequence: in MAP_STAT for MAP_KEY, in WD_STAT for WD_KICK and WD_KEY, in DBG_STAT for
every sequence (R465). -/
def Cell.breakLocked (x : Cell) (holders : List Half) : Cell :=
  match x.ctl.locked with
  | none => x
  | some q =>
      let x := ({ x with ctl := { x.ctl with locked := none }, dbg := { x.dbg with lockBroken := holders } }).seqFailed q.reg
      match q.reg with
      | .mapKey => { x with map := { x.map with stat := x.map.stat ||| 0x20 } }
      | .wdKick => { x with wd := { x.wd with lockBroken := true } }
      | .wdKey => { x with wd := { x.wd with lockBroken := true } }
      | .sysReset => x

/-- The cell enters HALTED (R464, R465): products land, an open locked sequence is abandoned, CELL_PRIOR records the
state left, the cause is set and DBG_HALTED (0060h) is raised. -/
def State.haltCell (s : State) (c : CellNo) (cause : Byte) : State :=
  let x := (s.cell c).breakLocked (s.mc.sessions.map (·.num))
  let prior := x.ctl.st
  let x := { x with
    core := x.core.land
    ctl := { x.ctl with
      st := .halted, prior := prior, pausePrior := if prior == .paused then x.ctl.prior else x.ctl.pausePrior }
    pace := { x.pace with avail := 0 }
    dbg := { x.dbg with haltReq := false, haltAge := 0, haltCause := cause } }
  (s.setCell c x).raise 0x60 c.val true cause.toNat

/-- A halt is due at this boundary: no locked sequence is open, or 16 instructions have been counted (R465). -/
def Cell.haltDue (x : Cell) : Bool := x.dbg.haltReq && (!x.lockedOpen || decide (16 ≤ x.dbg.haltAge))

/-- A command waits to act at this boundary (R97). -/
def Cell.cmdDue (x : Cell) : Bool := !x.ctl.cmds.isEmpty

/-- The break patch that stops the instruction at PC (R474). -/
def Cell.breakDue (x : Cell) : Option Nat :=
  if x.dbg.skipBreak then none
  else
    match x.map.xlatI x.core.pc with
    | .ok a => x.breakAt a
    | .refuse _ => none

/-- The bytes of an instruction against the bytes at PC. -/
inductive Fetched where
  | same
  | other
  | refused (a : Abandon)
  deriving DecidableEq, Repr

/-- A microword error in the word that cluster `k`'s store served (R136 to R139): CS_LAST_ERR, notice CS_ERR and its
journal entry; a parity error queues a repair of the store. -/
def State.microError (s : State) (u : StoreUnit) (e : MicroErr) : State :=
  let code := match u with
    | .cluster k => k.val
    | .comb k => 16 + k.val
  let last : Long := BitVec.ofNat 64 (code + e.addr.toNat * 256 + e.quarters.toNat * 16777216)
  let st := { s.stores with
    lastErr := last
    repairs := if e.quarters = 0 then s.stores.repairs else s.stores.repairs ++ [(u, e.addr)] }
  ({ s with stores := st }.raise 6 0 false last.toNat).event 6 0 0 last

/-- A machine check of the core that serves cell `c`: a product in flight is discarded and the cell enters FAULTED with
code 1 (R137, R139). -/
def State.coreCheck (s : State) (c : CellNo) (e : MicroErr) : State :=
  match (s.cell c).kp.core with
  | none => s
  | some k =>
    ((s.modCore c fun x => { x with prod := none }).cellFault c 1).microError (.cluster ⟨k.val / 8, by omega⟩) e

/-- Compare `bs` with the I-space bytes from `a`; the first byte that the mapper refuses ends the fetch (R167). -/
def Cell.fetch (x : Cell) (a : Half) : List Byte → Fetched
  | [] => .same
  | b :: r =>
    match x.iRead a with
    | .error e => .refused e
    | .ok v => if v = b then x.fetch (a + 1) r else .other

/-- The core can serve cell `c` at this boundary (R44, R96, R102, R104, R138, R360, R392): it runs, has its core and a
credit, and its control store is open. -/
def State.coreReady (s : State) (c : CellNo) : Bool :=
  let x := s.cell c
  s.cellsRun && x.actual == .running && !x.beam.waiting && x.kp.onCore && !x.inTransit && !s.storeClosed c &&
  decide (1 ≤ x.pace.avail)

/-- The core may issue an instruction for cell `c` (R44, R97, R102, R104, R138): it runs, has its core and a credit,
its control store is open, and nothing else is due at this boundary. -/
def State.canIssue (s : State) (c : CellNo) : Bool :=
  s.coreReady c && !(s.cell c).cmdDue && !(s.cell c).haltDue && !(s.cell c).entryDue

/-- An instruction that completed: the product in flight ages by its micro-cycles, PC and the loop stack are written,
and the instruction is counted. -/
def Cell.complete (x : Cell) (cycles : Nat) (pc : Half) (loops : List LoopEnt) : Cell :=
  let x := { x with
    core := { x.core.age cycles with pc := pc, loops := loops, entered := false }
    dbg := { x.dbg with skipBreak := false } }
  x.counted

/-- Interrupt entry for source `n` (R152): the pending bit is cleared, level and source are pushed, and the core enters
through FFD0h + 2 × level. An entry that is refused leaves the controller as it was (R558). -/
def State.enterSource (s : State) (c : CellNo) (n : Nat) : State :=
  let x := s.cell c
  let l := x.ic.level n
  let s := if x.entryOk (8 + l) then
      s.modIc c fun i => { i with pend := putBit i.pend n false, stack := (l, n) :: i.stack } else s
  s.enterVector c (8 + l) x.core.pc none

/-- Enter the maskable candidate of R92, if there is one. -/
def State.enterInterrupt (s : State) (c : CellNo) : State :=
  match (s.cell c).ic.candidate with
  | none => s
  | some n => s.enterSource c n

/-- A wake event stands (R113): a source pending at a level above the running priority, whatever I is, or WDW. -/
def Cell.wakeStands (x : Cell) : Bool := x.wd.wdw || x.ic.candidate.isSome

/-- The cell enters SLEEP (R113): products land, credit is discarded (R104), SLP_CNT increases. While a debugger holds
FULL the sleep is emulated (R475). -/
def Cell.goSleep (x : Cell) : Cell :=
  { x with
    core := x.core.land
    ctl := { x.ctl with
      st := if x.ctl.st == .migrating then .migrating else .sleep
      prior := if x.ctl.st == .migrating then .sleep else x.ctl.prior
      slpCnt := x.ctl.slpCnt + 1, heldFrom := x.pace.t + x.pace.k * (x.pace.tEnd - x.pace.t) / max 1 x.pace.q, heldLines := [], alarms := 0 }
    pace := { x.pace with avail := 0 }
    dbg := { x.dbg with emu := x.dbg.full } }

/-- Complete an instruction at its sequential next address: the loop unit chooses the PC (R83). -/
def State.finishSeq (s : State) (c : CellNo) (cycles : Nat) (next : Half) : State :=
  s.modCell c fun x => x.complete cycles (loopBack x.core.ed next x.core.loops).1 (loopBack x.core.ed next x.core.loops).2

/-- Run the body of the instruction at PC, of `len` bytes, `cycles` micro-cycles and `taken` when it transfers
control, and complete or abandon it. -/
def State.runBody (s : State) (c : CellNo) (len cycles taken : Nat) (body : CellNo → State → EkRes) : Res :=
  let next := (s.cell c).core.pc + BitVec.ofNat 16 len
  match body c s with
  | .trap a => .next (s.takeTrap c a)
  | .gone s' => .next s'
  | .vendor => .refused .vendorMicrocode
  | .enter v => .next (s.enterVector c v next none)
  | .interrupted => .next (s.enterInterrupt c)
  | .asleep => .next (s.modCell c fun x => (x.complete cycles next x.core.loops).goSleep)
  | .jump s' pc => .next (s'.modCell c fun x => x.complete taken pc x.core.loops)
  | .seq s' => .next (s'.finishSeq c cycles next)
  | .seqTo s' next => .next (s'.finishSeq c 0 next)

/-- One EK8 instruction of cell `c`, encoded by `bytes`. Where the core cannot issue, or the bytes at PC are another
instruction's, nothing happens (assumption 3). A break patch halts the cell before it (R474); a refused fetch is MAPF. -/
def runInstr (c : CellNo) (bytes : List Byte) (cycles taken : Nat) (body : CellNo → State → EkRes) (s : State) : Res :=
  onCell c s <|
    if !s.canIssue c then .next s
    else
      match (s.cell c).breakDue with
      | some k => .next (s.haltCell c (BitVec.ofNat 8 (0x10 + k)))
      | none =>
        match (s.cell c).fetch (s.cell c).core.pc bytes with
        | .other => .next s
        | .refused a => .next (s.takeTrap c a)
        | .same => s.runBody c bytes.length cycles taken body

end Sys2Proof.Machine
end

