-- ==== Sys2Proof/Machine/RegMap.lean ====
section
/-! DEFINITION. The I/O register map of a cell (R6 to R8, R21): which addresses are registers in a profile, which bits
software stores in them, and their Reset values. Registers with no plain read-write field have mask 0 here; their
blocks give them their meaning. -/

namespace Sys2Proof.Machine

/-- Address ranges of the registers, in order, first and last address. -/
def ioRanges : List (Nat × Nat) :=
  [(0x0000, 0x0022), (0x0024, 0x0027), (0x0040, 0x0044), (0x0046, 0x004D), (0x0050, 0x0052), (0x0054, 0x0059),
   (0x0060, 0x0065), (0x0100, 0x010F), (0x0120, 0x0147), (0x01C0, 0x01C1), (0x01D0, 0x01D7), (0x0300, 0x0326),
   (0x0328, 0x032B), (0x0380, 0x0382), (0x0384, 0x039B), (0x03C0, 0x03C4), (0x03C8, 0x03C8)] ++
  [(0x0400, 0x0400), (0x0402, 0x0412), (0x0414, 0x0414), (0x0420, 0x0420), (0x0422, 0x0423), (0x0500, 0x0505),
   (0x0508, 0x051B), (0x0580, 0x0580), (0x0584, 0x0591), (0x0600, 0x0600), (0x0602, 0x0611), (0x0614, 0x0614),
   (0x0620, 0x0622), (0x0624, 0x0625), (0x0628, 0x062F), (0x0640, 0x0647), (0x0680, 0x0680), (0x0682, 0x0689),
   (0x0800, 0x0802), (0x0804, 0x0806), (0x0C18, 0x0C1D), (0x0E00, 0x0E40), (0x0E80, 0x0E99), (0x0F00, 0x0F09),
   (0x0F10, 0x0F1A)]

/-- An address lies in one of the ranges. -/
def inRanges (l : List (Nat × Nat)) (a : Nat) : Bool := l.any fun r => decide (r.1 ≤ a) && decide (a ≤ r.2)

/-- Planes of a profile (R20). -/
def planeCount (prof : Byte) : Nat := if prof = 1 then 2 else if prof = 2 then 4 else 6

/-- The affine registers, which G1 lacks (R21). -/
def isAffine (a : Nat) : Bool := inRanges [(0x0604, 0x0611), (0x0620, 0x0622), (0x0624, 0x0625), (0x0628, 0x062F)] a

/-- An address that holds a register of a cell in profile `prof` (R7, R21). -/
def ioMapped (prof : Byte) (a : Nat) : Bool :=
  if 0x0180 ≤ a && a < 0x01C0 then [(0, 6), (8, 13)].any fun r => decide (r.1 ≤ a % 16) && decide (a % 16 ≤ r.2)
  else if 0x0200 ≤ a && a < 0x0300 then decide (a % 64 ≤ 0x15)
  else if 0x0440 ≤ a && a < 0x0500 then
    decide ((a - 0x0440) / 32 < planeCount prof) && inRanges [(0, 5), (8, 0x1B)] (a % 32)
  else if 0x0C00 ≤ a && a < 0x0E00 then
    let v := (a - 0x0C00) / 32
    let o := a % 32
    decide (o ≤ 7) || (decide (v < 8) && decide (o ≤ 0x11)) || (decide (8 ≤ v) && decide (v < 14) && o == 8) ||
    (decide (14 ≤ v) && decide (8 ≤ o) && decide (o ≤ 0x0D)) || inRanges [(0x0C18, 0x0C1D)] a
  else if prof = 1 && isAffine a then false
  else inRanges ioRanges a

/-- Software-stored bits of a byte of a 32-bit address field [24:6]. -/
def maskBase6 (i : Nat) : Byte := if i = 0 then 0xC0 else if i = 3 then 0x01 else 0xFF

/-- Read-write bits of the registers below 0400h (R119, R282, R293, R297, R318, R478). -/
def rwMaskLow (a : Nat) : Byte :=
  if a = 0x0050 then 0x01
  else if 0x0120 ≤ a && a < 0x0140 then (if a = 0x0127 || a = 0x0137 then 0 else 0x87)
  else if 0x0180 ≤ a && a < 0x01C0 then
    (match a % 16 with | 0 => 0x7F | 1 => 0x01 | 2 => 0x3F | 3 => 0x07 | 4 => 0x0F | _ => 0)
  else if a = 0x01C1 then 0x01
  else if a = 0x01D0 then 0x0F
  else if 0x01D4 ≤ a && a ≤ 0x01D7 then 0xFF
  else if 0x0200 ≤ a && a < 0x0300 then
    (match a % 64 with | 1 => 0x81 | 4 => 0xF0 | 5 => 0xFF | 6 => 0xFF | 7 => 0x01 | _ => 0)
  else if 0x0300 ≤ a && a < 0x0326 then
    (match a - 0x0300 with
      | 0 => 0x1F | 1 => 0x03 | 2 => 0x0F | 3 => 0x87
      | 4 => 0xFC | 5 => 0xFF | 6 => 0xFF | 7 => 0x01 | 8 => 0xFC | 9 => 0xFF | 10 => 0xFF | 11 => 0x01
      | 12 => 0xFC | 13 => 0xFF | 14 => 0xFC | 15 => 0xFF | 0x19 => 0x1F | 0x1B => 0x1F | 0x1F => 0 | 0x23 => 0 | 0x25 => 0x1F
      | _ => 0xFF)
  else if a = 0x0380 then 0xFF
  else if 0x0384 ≤ a && a < 0x0390 then (if a = 0x0387 then 0 else 0xFF)
  else if a = 0x03C4 then 0x03
  else 0

/-- Read-write bits of the registers from 0400h (R54, R197, R213, R230, R250, R334, R541). -/
def rwMaskHigh (prof : Byte) (a : Nat) : Byte :=
  if a = 0x0400 then 0xFF
  else if 0x0402 ≤ a && a < 0x040C then 0xFF
  else if a = 0x0420 then (if prof = 1 then 0x03 else if prof = 2 then 0x0F else 0x3F)
  else if 0x0440 ≤ a && a < 0x0500 then
    (match a % 32 with
      | 0 => 0x1F | 1 => 0x0F | 2 => 0x77 | 3 => 0x03 | 4 => 0xFF | 5 => 0x0F
      | 8 => 0xC0 | 9 => 0xFF | 10 => 0xFF | 11 => 0x01 | 12 => 0xC0 | 13 => 0xFF | 14 => 0xFF | 15 => 0x01 | _ => 0xFF)
  else if a = 0x0500 || a = 0x0501 then 0x01
  else if a = 0x0502 then 0xFF else if a = 0x0503 then 0x07
  else if a = 0x0504 then 0xFF else if a = 0x0505 then 0x0F
  else if 0x0508 ≤ a && a < 0x0510 then maskBase6 (a % 4)
  else if a = 0x0580 then 0x01
  else if 0x0584 ≤ a && a < 0x0588 then (if a = 0x0584 then 0xFC else if a = 0x0587 then 0x01 else 0xFF)
  else if a = 0x0600 then (if prof = 1 then 0 else 0x01)
  else if a = 0x0602 then 0xFF else if a = 0x0603 then 0x0F
  else if 0x0604 ≤ a && a < 0x0612 then 0xFF
  else if a = 0x0620 then 0x07
  else if a = 0x0621 || a = 0x0622 then 0x77
  else if a = 0x0624 then 0xFF else if a = 0x0625 then 0x0F
  else if 0x0628 ≤ a && a < 0x0630 then maskBase6 (a % 4)
  else if a = 0x0640 then 0x07
  else if a = 0x0642 || a = 0x0643 then 0xFF
  else if 0x0644 ≤ a && a < 0x0648 then maskBase6 (a % 4)
  else if a = 0x0800 then 0xFF else if a = 0x0801 then 0x0F
  else if a = 0x0802 then 0x01
  else if a = 0x0C18 then 0x87
  else if a = 0x0C1A || a = 0x0C1B then 0xFF
  else if 0x0C00 ≤ a && a < 0x0E00 then
    let v := (a - 0x0C00) / 32
    (match a % 32 with
      | 0 => 0x3F | 1 => 0xFF | 2 => 0xFF | 4 => 0xFF | 5 => 0xFF | 6 => 0xFF | 7 => 0xFF
      | 8 => if v < 12 then 0xFF else if v < 14 then 0x01 else 0
      | 9 => if v < 8 then 0xFF else 0
      | 10 => if v < 8 then 0xFF else 0
      | 11 => if v < 8 then 0x01 else 0
      | 12 => if v < 8 then 0xFF else 0
      | 13 => if v < 8 then 0xFF else if 14 ≤ v then 0x3F else 0
      | 14 => if v < 8 then 0xFF else 0
      | 15 => if v < 8 then 0xFF else 0
      | _ => 0)
  else if 0x0E90 ≤ a && a < 0x0E94 then 0xFF
  else 0

/-- The bits of an I/O byte that software stores and reads back. -/
def rwMask (prof : Byte) (a : Nat) : Byte := if a < 0x0400 then rwMaskLow a else rwMaskHigh prof a

/-- Reset geometry of a profile (R54). -/
def resetGeom (prof : Byte) : Geom :=
  if prof = 1 then ⟨1, 1, 400, 320, 262, 240⟩
  else if prof = 2 then ⟨1, 1, 800, 640, 525, 480⟩
  else ⟨1, 1, 1650, 1280, 750, 720⟩

/-- SND_CTL.K after reset (R319): G1 4, G2 2, G3 1. -/
def resetK (prof : Byte) : Byte := if prof = 1 then 2 else if prof = 2 then 1 else 0

/-- Reset value of an I/O byte of the plain registers, by profile (R8). -/
def resetByte (prof : Byte) (a : Nat) : Byte :=
  let g := resetGeom prof
  if a < 0x0400 then
    if 0x01C1 = a then 0x01
    else if a = 0x01D0 then 0x08
    else if a = 0x01D5 then 0x08
    else if 0x0200 ≤ a && a < 0x0300 then (if a % 64 = 1 then 0x80 else 0)
    else if a = 0x0301 then 0x01
    else if a = 0x0302 then 0x0C
    else if a = 0x0303 then 0x80
    else 0
  else if a = 0x0400 then 0x11
  else if a = 0x0402 then byteOf g.htotal 0 else if a = 0x0403 then byteOf g.htotal 1
  else if a = 0x0404 then byteOf g.hactive 0 else if a = 0x0405 then byteOf g.hactive 1
  else if a = 0x0406 then byteOf g.vtotal 0 else if a = 0x0407 then byteOf g.vtotal 1
  else if a = 0x0408 then byteOf g.vactive 0 else if a = 0x0409 then byteOf g.vactive 1
  else if a = 0x040A || a = 0x040B then 0xFF
  else if 0x0440 ≤ a && a < 0x0500 then (if a % 32 = 2 then 0x62 else 0)
  else if a = 0x0501 then (if prof = 3 then 0 else 1)
  else if a = 0x0605 || a = 0x060B then 0x01
  else if a = 0x0621 then 0x11
  else if a = 0x0622 then 0x40
  else if a = 0x0C18 then 0x80 ||| resetK prof
  else if a = 0x0C1A || a = 0x0C1B then 0xFF
  else if 0x0C00 ≤ a && a < 0x0E00 then
    let v := (a - 0x0C00) / 32
    (match a % 32 with
      | 2 => 0xFF
      | 5 => 0x0F
      | 8 => if 8 ≤ v && v < 12 then 0x80 else 0
      | 13 => if 14 ≤ v then 0x20 else 0
      | _ => 0)
  else 0

end Sys2Proof.Machine
end

