-- ==== Sys2Proof/Machine/IoCore.lean ====
section
/-! DEFINITION. Registers of the mapper, the core and system block, the interrupt controller and the watchdog
(R119, R162, R168, R169, R180, R313 to R318), the locked sequences (R557), and the plain registers that every block
uses. -/

namespace Sys2Proof.Machine

/-! ## Plain registers -/

/-- A register byte as software wrote it. -/
def Cell.reg8 (x : Cell) (a : Nat) : Byte := Table.read (resetByte x.prof) x.regs a

/-- Two register bytes, low byte first (R6). -/
def Cell.reg16 (x : Cell) (a : Nat) : Nat := (x.reg8 a).toNat + 256 * (x.reg8 (a + 1)).toNat

/-- Four register bytes, low byte first. -/
def Cell.reg32 (x : Cell) (a : Nat) : Nat := x.reg16 a + 65536 * x.reg16 (a + 2)

/-- A live byte of a shadowed or line-live register. -/
def Cell.live8 (x : Cell) (a : Nat) : Byte := Table.read (resetByte x.prof) x.live a

def Cell.live16 (x : Cell) (a : Nat) : Nat := (x.live8 a).toNat + 256 * (x.live8 (a + 1)).toNat

def Cell.live32 (x : Cell) (a : Nat) : Nat := x.live16 a + 65536 * x.live16 (a + 2)

/-- A bit of a plain register. -/
def Cell.regBit (x : Cell) (a i : Nat) : Bool := (x.reg8 a).getLsbD i

/-- Store a register byte as it stands. -/
def Cell.putReg (x : Cell) (a : Nat) (v : Byte) : Cell := { x with regs := Table.write (resetByte x.prof) x.regs a v }

/-- Store a live byte as it stands. -/
def Cell.putLive (x : Cell) (a : Nat) (v : Byte) : Cell := { x with live := Table.write (resetByte x.prof) x.live a v }

/-- A software write of a plain register byte: only its read-write bits are stored (R8). -/
def Cell.writePlain (x : Cell) (a : Nat) (v : Byte) : Cell :=
  x.putReg a ((resetByte x.prof a &&& ~~~(rwMask x.prof a)) ||| (v &&& rwMask x.prof a))

/-! ## Locked sequences (R557) -/

/-- The register of a locked sequence at an I/O address, with its first and second key (R118, R169, R314, R315). -/
def lockedAt (a : Nat) : Option (LockedReg × Byte × Byte) :=
  if a = 0x0044 then some (.sysReset, 0xA5, 0x5A)
  else if a = 0x0021 then some (.mapKey, 0x3C, 0xC3)
  else if a = 0x01D3 then some (.wdKick, 0x69, 0x96)
  else if a = 0x01D2 then some (.wdKey, 0x1E, 0xE1)
  else none

/-- The open sequence is broken. -/
def Cell.breakSeq (x : Cell) : Cell :=
  match x.ctl.locked with
  | none => x
  | some q => ({ x with ctl := { x.ctl with locked := none } }).seqFailed q.reg

/-- What an I/O write of the core does to the locked sequences: a first key opens its sequence, a second key of the
open sequence completes it, every other write breaks the open one. Answers the sequence completed. `fromOut` marks a
write made by an OUT, which is itself not counted. -/
def Cell.lockedWrite (x : Cell) (a : Nat) (v : Byte) (fromOut : Bool) : Cell × Option LockedReg :=
  match lockedAt a with
  | none => (x.breakSeq, none)
  | some (r, k1, k2) =>
    if v = k1 then
      let y := match x.ctl.locked with
        | some q => if q.reg = r then x else x.breakSeq
        | none => x
      ({ y with ctl := { y.ctl with locked := some { reg := r, count := 0, fresh := fromOut } } }, none)
    else
      match x.ctl.locked with
      | some q =>
        if q.reg = r && v == k2 then ({ x with ctl := { x.ctl with locked := none } }, some r)
        else (x.breakSeq, none)
      | none => (x, none)

/-! ## Mapper (R168, R169, R180) -/

/-- A write of the low (`high` = false) or high byte of window register `n` (0 to 7 I-space, 8 to 15 D-space). -/
def Mapper.writeWindow (m : Mapper) (n : Nat) (high : Bool) (v : Byte) : Mapper :=
  if (n < 8 && m.lockI) || (8 ≤ n && m.lockD) then { m with stat := m.stat ||| 0x10 }
  else if high then
    let w : Half := v ++ m.stage.getD n 0
    { m with win := m.win.setIfInBounds n (w &&& (if n < 8 then 0x1FFF else 0x3FFF)) }
  else { m with stage := m.stage.setIfInBounds n v }

/-- A completed unlock sequence clears the locks unless HARD is 1 (R169). -/
def Mapper.unlock (m : Mapper) : Mapper := if m.hard then m else { m with lockI := false, lockD := false }

/-! ## Watchdog (R313 to R315) -/

/-- WD_PERIOD, WD_WARN, and the fields of WD_CTL. -/
def Cell.wdPeriod (x : Cell) : Nat := max 1 (x.reg16 0x01D4)
def Cell.wdWarnAt (x : Cell) : Nat := x.reg16 0x01D6
def Cell.wdEn (x : Cell) : Bool := x.regBit 0x01D0 0

/-- A write of WD_CTL (R315). -/
def Cell.writeWdCtl (x : Cell) (v : Byte) : Cell :=
  let w := { x.wd with lock := x.wd.lock || v.getLsbD 7 }
  if x.wd.opened then
    let y := { x with wd := { w with opened := false } }.putReg 0x01D0 (v &&& 0x0F)
    if v.getLsbD 0 && !x.wdEn then { y with wd := { y.wd with count := y.wdPeriod } } else y
  else if (v &&& 0x7F) != (x.reg8 0x01D0 &&& 0x0F) then { x with wd := { w with keyErr := true } }
  else { x with wd := w }

/-- A write of a byte of WD_PERIOD or WD_WARN (R315). -/
def Cell.writeWdConfig (x : Cell) (a : Nat) (v : Byte) : Cell :=
  if x.wd.opened then x.putReg a v else { x with wd := { x.wd with keyErr := true } }

/-- A completed kick reloads the count (R314). -/
def Cell.kicked (x : Cell) : Cell := { x with wd := { x.wd with count := x.wdPeriod } }

/-- A completed key sequence sets OPEN, but has no effect once LOCK is 1 (R315). -/
def Cell.keyed (x : Cell) : Cell := if x.wd.lock then x else { x with wd := { x.wd with opened := true } }

/-- WD_STAT. -/
def Cell.wdStat (x : Cell) : Byte :=
  let w := x.wd
  flagIf w.warn 1 ||| flagIf w.topup 2 ||| flagIf w.lockBroken 4 ||| flagIf w.opened 8 ||| flagIf w.keyErr 16

/-! ## Views: what a read answers, without side effects -/

/-- IC_SRC, IC_RUNPRI and IC_STAT (R162). -/
def Ic.src (i : Ic) : Byte := match i.stack with | [] => 0x80 | (_, n) :: _ => BitVec.ofNat 8 n
def Ic.runpri (i : Ic) : Byte :=
  match i.stack with
  | [] => 0x08
  | (l, _) :: _ => BitVec.ofNat 8 (l + 16 * i.stack.length)

/-- Highest level among pending enabled sources, plus 1; 0 where there is none. -/
def Ic.hiPend (i : Ic) : Nat :=
  (List.range 32).foldl (fun m n => if i.pend.getLsbD n && i.enabled n then max m (i.level n + 1) else m) 0

def Ic.statByte (i : Ic) : Byte :=
  let h := i.hiPend
  flagIf i.eoiUnf 1 ||| BitVec.ofNat 8 (16 * (h - 1)) ||| flagIf (h != 0) 0x80

/-- The pace rate m in force (R102). -/
def Cell.paceRate (x : Cell) : Nat := if x.prof = 1 then 4 else if x.prof = 2 then 16 else x.pace.m

/-- Registers of the mapper, the core and system block and the interrupt controller, IC_SHID aside. -/
def Cell.viewCore (x : Cell) (c : CellNo) (a : Nat) : Byte :=
  if a < 0x20 then (if a % 2 = 0 then loByte (x.map.win.getD (a / 2) 0) else hiByte (x.map.win.getD (a / 2) 0))
  else if a = 0x20 then flagIf x.map.lockI 1 ||| flagIf x.map.lockD 2 ||| flagIf x.map.hard 0x80
  else if a = 0x22 then x.map.stat.zeroExtend 8
  else if a = 0x24 || a = 0x25 then byteOf x.map.pages (a - 0x24)
  else if a = 0x26 || a = 0x27 then byteOf x.map.ropages (a - 0x26)
  else if a = 0x40 then BitVec.ofNat 8 c.val
  else if a = 0x41 then x.prof ||| 0x10
  else if a = 0x42 then flagIf x.ctl.ioUnmapped 1 ||| BitVec.ofNat 8 (2 * x.core.loops.length)
  else if a = 0x43 then x.ctl.resetCause.zeroExtend 8
  else if a = 0x46 then x.ctl.trapCause.zeroExtend 8
  else if a = 0x47 then x.ctl.trapData
  else if a = 0x48 || a = 0x49 then byteOf x.ctl.trapAddr.toNat (a - 0x48)
  else if 0x4A ≤ a && a ≤ 0x4D then byteOf x.ctl.trapOp.toNat (a - 0x4A)
  else if a = 0x50 then x.reg8 a
  else if a = 0x51 then flagIf x.pace.ovr 1 ||| flagIf x.pace.shared 2
  else if a = 0x52 then BitVec.ofNat 8 x.paceRate
  else if a = 0x54 || a = 0x55 then byteOf x.pace.q (a - 0x54)
  else if a = 0x56 || a = 0x57 then byteOf x.pace.last.toNat (a - 0x56)
  else if a = 0x58 || a = 0x59 then byteOf x.pace.ovrCnt.toNat (a - 0x58)
  else if 0x60 ≤ a && a ≤ 0x63 then byteOf x.ctl.slpLast.toNat (a - 0x60)
  else if a = 0x64 || a = 0x65 then byteOf x.ctl.slpCnt.toNat (a - 0x64)
  else if 0x100 ≤ a && a < 0x108 then byteOf x.ic.pend.toNat (a % 4)
  else if 0x108 ≤ a && a < 0x10C then byteOf x.ic.miss.toNat (a % 4)
  else if a = 0x10C then x.ic.src
  else if a = 0x10D then x.ic.runpri
  else if a = 0x10F then x.ic.statByte
  else if 0x120 ≤ a && a < 0x140 then x.ic.cfg.getD (a - 0x120) 0
  else 0

/-! ## Writes -/

/-- A byte of a 32-bit field placed at byte position `i`. -/
def atByte (v : Byte) (i : Nat) : Word := BitVec.ofNat 32 (v.toNat * 256 ^ i)

/-- Bits 7 and 23 of IC_PEND do not exist (R147). -/
def icMask : Word := 0xFF7FFF7F

/-- A write of a register of the mapper, the core and system block or the interrupt controller, locked sequences
aside. -/
def Cell.writeCore (x : Cell) (a : Nat) (v : Byte) : Cell :=
  if a < 0x20 then { x with map := x.map.writeWindow (a / 2) (a % 2 == 1) v }
  else if a = 0x20 then
    { x with map := { x.map with
      lockI := x.map.lockI || v.getLsbD 0, lockD := x.map.lockD || v.getLsbD 1, hard := x.map.hard || v.getLsbD 7 } }
  else if a = 0x22 then { x with map := { x.map with stat := x.map.stat &&& ~~~(v.setWidth 6) } }
  else if a = 0x42 then { x with ctl := { x.ctl with ioUnmapped := x.ctl.ioUnmapped && !v.getLsbD 0 } }
  else if a = 0x50 then x.writePlain a v
  else if a = 0x51 then
    { x with pace := { x.pace with ovr := x.pace.ovr && !v.getLsbD 0, shared := x.pace.shared && !v.getLsbD 1 } }
  else if 0x100 ≤ a && a < 0x104 then { x with ic := { x.ic with pend := x.ic.pend &&& ~~~(atByte v (a % 4)) } }
  else if 0x104 ≤ a && a < 0x108 then
    { x with ic := { x.ic with pend := x.ic.pend ||| (atByte v (a % 4) &&& icMask) } }
  else if 0x108 ≤ a && a < 0x10C then { x with ic := { x.ic with miss := x.ic.miss &&& ~~~(atByte v (a % 4)) } }
  else if a = 0x10E then { x with ic := x.ic.pop }
  else if a = 0x10F then { x with ic := { x.ic with eoiUnf := x.ic.eoiUnf && !v.getLsbD 0 } }
  else if 0x120 ≤ a && a < 0x140 then
    { x with ic := { x.ic with cfg := x.ic.cfg.setIfInBounds (a - 0x120) (v &&& rwMask x.prof a) } }
  else x

/-- A write of a watchdog register, the keys aside. -/
def Cell.writeWd (x : Cell) (a : Nat) (v : Byte) : Cell :=
  if a = 0x1D0 then x.writeWdCtl v
  else if a = 0x1D1 then
    { x with wd := { x.wd with
      warn := x.wd.warn && !v.getLsbD 0, topup := x.wd.topup && !v.getLsbD 1
      lockBroken := x.wd.lockBroken && !v.getLsbD 2, keyErr := x.wd.keyErr && !v.getLsbD 4 } }
  else if 0x1D4 ≤ a && a ≤ 0x1D7 then x.writeWdConfig a v
  else x

/-- Reads of the watchdog registers. -/
def Cell.viewWd (x : Cell) (a : Nat) : Byte :=
  if a = 0x1D0 then x.reg8 a ||| flagIf x.wd.lock 0x80
  else if a = 0x1D1 then x.wdStat
  else if 0x1D4 ≤ a && a ≤ 0x1D7 then x.reg8 a
  else 0

end Sys2Proof.Machine
end

