-- ==== Sys2Proof/Machine/Crc.lean ====
section
/-! DEFINITION. The CRCs of R294 and the check unit (R294 to R297). -/

namespace Sys2Proof.Machine

/-! ## CRCs (R294) -/

/-- One bit of a reflected CRC of width `w` and reflected polynomial `p`. -/
def crcBitR {w : Nat} (p c : BitVec w) : BitVec w := if c.getLsbD 0 then (c >>> 1) ^^^ p else c >>> 1

/-- One bit of an unreflected CRC. -/
def crcBitL {w : Nat} (p c : BitVec w) : BitVec w := if c.getLsbD (w - 1) then (c <<< 1) ^^^ p else c <<< 1

/-- CRC-32C after one byte. -/
def crc32cByte (c : Word) (b : Byte) : Word :=
  let f := crcBitR (0x82F63B78 : Word)
  f (f (f (f (f (f (f (f (c ^^^ b.zeroExtend 32))))))))

/-- CRC-16/CCITT after one byte. -/
def crc16Byte (c : Half) (b : Byte) : Half :=
  let f := crcBitL (0x1021 : Half)
  f (f (f (f (f (f (f (f (c ^^^ (b.zeroExtend 16 <<< 8)))))))))

/-- CRC-8 after one byte. -/
def crc8Byte (c : Byte) (b : Byte) : Byte :=
  let f := crcBitL (0x07 : Byte)
  f (f (f (f (f (f (f (f (c ^^^ b))))))))

/-- CRC-16/CCITT of a byte string. -/
def crc16 (l : List Byte) : Half := l.foldl crc16Byte 0xFFFF

/-- CRC-32C of a byte string. -/
def crc32c (l : List Byte) : Word := l.foldl crc32cByte 0xFFFFFFFF ^^^ 0xFFFFFFFF

/-- The CRC that POLY selects: initial value, one byte, result, width mask. -/
def ckInit (poly : Nat) : Word := if poly = 0 then 0xFFFFFFFF else if poly = 1 then 0xFFFF else 0
def ckByte (poly : Nat) (c : Word) (b : Byte) : Word :=
  if poly = 0 then crc32cByte c b
  else if poly = 1 then (crc16Byte (c.setWidth 16) b).setWidth 32
  else (crc8Byte (c.setWidth 8) b).setWidth 32
def ckFinal (poly : Nat) (c : Word) : Word := if poly = 0 then c ^^^ 0xFFFFFFFF else c
def ckWidth (poly : Nat) : Word := if poly = 0 then 0xFFFFFFFF else if poly = 1 then 0xFFFF else 0xFF

/-! ## The check unit (R295, R296) -/

/-- Fields of CK_CTL. -/
def Cell.ckPoly (x : Cell) : Nat := (x.reg8 0x0380).toNat % 4
def Cell.ckFold (x : Cell) : Nat := (x.reg8 0x0380).toNat / 4 % 4

/-- The four bytes of CK_FOLD, lowest first. -/
def Cell.foldBytes (x : Cell) : List Byte := (List.range 4).map fun i => x.reg8 (0x0388 + i)

/-- The fold and the compare complete (R295). -/
def Cell.ckReady (x : Cell) : Cell :=
  if !x.ck.finishing then x
  else
    let poly := x.ckPoly
    let crc := if x.ckFold = 2 then x.foldBytes.foldl (ckByte poly) x.ck.crc else x.ck.crc
    let res := ckFinal poly crc
    let mis := x.regBit 0x0380 5 && ((res ^^^ BitVec.ofNat 32 (x.reg32 0x038C)) &&& ckWidth poly != 0)
    let st := x.ck.stat
    let edge := (!st.getLsbD 0 && x.regBit 0x0380 6) || (mis && !st.getLsbD 1 && x.regBit 0x0380 7)
    let fold := toBytes (x.reg32 0x0388 + 1) 4
    let y := { x with ck := { x.ck with
      finishing := false, active := false, crc := crc, result := res, stat := st ||| 1 ||| flagIf mis 2 } }
    let y := if x.regBit 0x0380 4 then
        (List.range 4).foldl (fun z i => z.putReg (0x0388 + i) (fold.getD i 0)) y else y
    if edge then y.edge 17 else y

/-- A session finishes: the fold and the compare are under way. -/
def Cell.ckFinish (x : Cell) : Cell := if x.ck.active then { x with ck := { x.ck with finishing := true } } else x

/-- ABORT ends a session without a result. -/
def Cell.ckAbort (x : Cell) : Cell := { x with ck := { x.ck with active := false, finishing := false } }

/-- START (R294, R295). -/
def Cell.ckStart (x : Cell) : Cell :=
  let poly := x.ckPoly
  if poly = 3 then { x with ck := { x.ck with stat := x.ck.stat ||| 0x20 } }
  else
    let crc := if x.ckFold = 1 then x.foldBytes.foldl (ckByte poly) (ckInit poly) else ckInit poly
    { x with ck := { x.ck with active := true, finishing := false, crc := crc, count := 0 } }

/-- A byte fed (R295, R296). A write that finds the unit occupied waits for it. -/
def Cell.ckFeed (x : Cell) (v : Byte) : Cell :=
  let x := x.ckReady
  if !x.ck.active then { x with ck := { x.ck with stat := x.ck.stat ||| 0x10 } }
  else
    let n := x.ck.count + 1
    let len := x.reg32 0x0384
    let y := { x with ck := { x.ck with crc := ckByte x.ckPoly x.ck.crc v, count := n } }
    if len ≠ 0 ∧ n = len then y.ckFinish else y

/-- A write of CK_CMD: the bits act in the order START, FINISH, ABORT of the table. -/
def Cell.ckCommand (x : Cell) (v : Byte) : Cell :=
  let x := x.ckReady
  let x := if v.getLsbD 0 then x.ckStart else x
  let x := if v.getLsbD 1 then x.ckFinish else x
  if v.getLsbD 2 then x.ckAbort else x

/-- CK_STAT. -/
def Cell.ckStat (x : Cell) : Byte := x.ck.stat ||| flagIf x.ck.active 4 ||| flagIf x.ck.finishing 8

/-- Reads of the check unit's registers. -/
def Cell.viewCk (x : Cell) (a : Nat) : Byte :=
  if a = 0x0382 then x.ckStat
  else if 0x0394 ≤ a && a < 0x0398 then byteOf x.ck.result.toNat (a - 0x0394)
  else if 0x0398 ≤ a && a < 0x039C then byteOf x.ck.count (a - 0x0398)
  else if a = 0x0381 || (0x0390 ≤ a && a < 0x0394) then 0
  else x.reg8 a

/-- Writes of the check unit's registers. -/
def Cell.writeCk (x : Cell) (a : Nat) (v : Byte) : Cell :=
  if a = 0x0381 then x.ckCommand v
  else if a = 0x0382 then { x with ck := { x.ck with stat := x.ck.stat &&& ~~~v } }
  else if 0x0390 ≤ a && a < 0x0394 then x.ckFeed v
  else x.writePlain a v

end Sys2Proof.Machine
end

