-- ==== Sys2Proof/Machine/QueueOps.lean ====
section
/-! DEFINITION. Operations of the host queues that other blocks use (R400 to R413): words, overflow by the oldest packet,
slices. -/

namespace Sys2Proof.Machine

/-- Bytes packed into 64-bit words, lowest byte first, the last word padded with 00h. -/
def packWords : List Byte → List Long
  | a :: b :: c :: d :: e :: f :: g :: h :: r => (h ++ g ++ f ++ e ++ d ++ c ++ b ++ a) :: packWords r
  | [] => []
  | l => [BitVec.ofNat 64 (ofBytes l)]

/-- Drop the oldest packet that has not begun delivery: counted, marked, and reported by the next packet (R412). -/
def Queue.dropOldest (q : Queue) : Queue :=
  let q := { q with count := satInc q.count, stat := q.stat ||| 0x20 }
  match q.waiting with
  | [] => q
  | [_] => { q with waiting := [], dropNext := true }
  | _ :: p :: r => { q with waiting := { p with dropped := true } :: r }

/-- The virtual functions are enabled (R398). -/
def State.vfOn (s : State) : Bool := s.link.vfEnable

/-- Header words of a slice (R410). -/
def sliceHeader (cell : Nat) (home : BitVec 3) (rep black : Bool) (line vactive frame pixels : Nat) (time : Long) :
    List Long :=
  [BitVec.ofNat 64 (cell % 128 + home.toNat * 128 + b2n rep * 1024 + b2n black * 2048 + b2n (line == 0) * 4096 +
     b2n (line + 1 == vactive) * 8192 + line % 2048 * 65536 + frame % 65536 * 2 ^ 32 + pixels % 8192 * 2 ^ 48), time]

/-- Pixels as blue, green and red bytes. -/
def pixelBytes (p : List (BitVec 24)) : List Byte :=
  (p.map fun c => [byteOf c.toNat 0, byteOf c.toNat 1, byteOf c.toNat 2]).flatten

/-- A slice enters the cell's slice queue; with 8 waiting the oldest is dropped (R412). Without an enabled queue it is
discarded without count (R398). -/
def State.sliceEnqueue (s : State) (c : CellNo) (ws : List Long) : State :=
  let h := (s.cell c).host
  if !s.vfOn || !h.slice.en then s
  else
    let full := decide (8 ≤ h.slice.waiting.length)
    s.modHost c fun h => { h with
      slice := (if full then h.slice.dropOldest else h.slice).enqueue ws
      sliceDrop := if full then satInc h.sliceDrop else h.sliceDrop }

end Sys2Proof.Machine
end

