-- ==== Sys2Proof/Machine/BeamOps.lean ====
section
/-! DEFINITION. Geometry, pixel clock and pace of a cell beam (R41 to R47, R53, R102 to R106), and the lock states of
the house beam (R33 to R40). -/

namespace Sys2Proof.Machine

/-! ## Geometry (R41, R42, R53) -/

/-- D of R41 with 24 fraction bits, truncated. -/
def dOf (g : Geom) (clks : Nat) : Nat := clks * g.den * 16777216 / (g.num * g.htotal * g.vtotal)

/-- Largest raster and pixel-clock divider limit of a profile (R42): active pixels, active lines, least D. -/
def rasterLimit (prof : Byte) : Nat × Nat × Nat :=
  if prof = 1 then (320, 240, 44) else if prof = 2 then (640, 480, 22) else (1920, 1080, 4)

/-- Frame-rate limits of a profile in mHz (R42). -/
def rateLimit (prof : Byte) : Nat × Nat := if prof = 3 then (24000, 120000) else (50000, 60000)

/-- The limits of R42, for a house beam of `clks` beam clocks and nominal rate `rate` mHz. -/
def geomOk (prof : Byte) (clks rate : Nat) (g : Geom) : Bool :=
  let (hm, vm, dm) := rasterLimit prof
  let (lo, hi) := rateLimit prof
  decide (1 ≤ g.num ∧ g.num ≤ 8 ∧ 1 ≤ g.den ∧ g.den ≤ 8) &&
  decide (64 ≤ g.hactive ∧ g.hactive ≤ hm ∧ g.hactive % 4 = 0) &&
  decide (32 ≤ g.vactive ∧ g.vactive ≤ vm) &&
  decide (g.hactive + 32 ≤ g.htotal ∧ g.htotal ≤ 4096) &&
  decide (g.vactive + 4 ≤ g.vtotal ∧ g.vtotal ≤ 2048) &&
  decide (lo * g.den ≤ rate * g.num ∧ rate * g.num ≤ hi * g.den) &&
  decide (dm * 16777216 ≤ dOf g clks ∧ dOf g clks < 4096 * 16777216)

/-- The geometry group's shadows (R51, R53). -/
def Cell.shadowGeom (x : Cell) : Geom :=
  { num := (x.reg8 0x0400).toNat % 16, den := (x.reg8 0x0400).toNat / 16, htotal := x.reg16 0x0402
    hactive := x.reg16 0x0404, vtotal := x.reg16 0x0406, vactive := x.reg16 0x0408 }

/-- What a transfer does with the geometry group (R42, R53): `true` where the shadows breach R42. -/
def CellBeam.transferGeom (b : CellBeam) (ok : Bool) (g : Geom) : CellBeam × Bool :=
  match b.held with
  | none =>
    if g = b.geom then (b, false)
    else if ok then ({ b with held := some g, heldAge := 0 }, false)
    else ({ b with geomErr := true }, true)
  | some h =>
    if g = h then (b, false)
    else if g = b.geom then ({ b with held := none, heldAge := 0 }, false)
    else if ok then ({ b with held := some g, heldAge := 0 }, false)
    else ({ b with geomErr := true }, true)

/-! ## The program beam's clock -/

/-- Beam clocks of one program line with 24 fraction bits. -/
def lineLen (g : Geom) (clks : Nat) : Nat := g.htotal * dOf g clks

/-- End of the present program line: the last line of a lock interval ends exactly at its lock point (R43), two line
times ahead of the cell beam's; before a geometry switch it ends where the new frame starts (R53). -/
def Cell.lineEnd (x : Cell) (clks : Nat) : Nat :=
  let b := x.beam
  let g := b.pgeom
  let p := x.pace
  let ivEnd := p.tIv + g.den * clks * 16777216
  if b.pline + 1 = g.vtotal && b.pIv + 1 == g.num then
    match b.switchNext, b.held with
    | true, some h => ivEnd + 2 * (lineLen g clks - lineLen h clks)
    | _, _ => ivEnd
  else
    match p.line01 with
    | some l => p.t + l
    | none => p.t + lineLen g clks

/-- Cumulative credit at `t` (R102). -/
def credit (m t : Nat) : Nat := m * t / (594 * 16777216)

/-- The cell can spend credit (R104): it is not PAUSED, SLEEP, HALTED or FAULTED, nor MIGRATING from one of these. -/
def Cell.runnable (x : Cell) : Bool :=
  match x.actual with
  | .running => true
  | .migrating => false
  | .empty => false | .loaded => false | .paused => false | .sleep => false | .halted => false | .faulted => false

/-- One credit accrues (R102, R104): it is discarded when the cell is not runnable, and discarded with a shortfall
when the available credit is a full line already. -/
def Pace.accrue (p : Pace) (runnable : Bool) : Pace :=
  if !runnable then { p with acc := p.acc + 1, avail := 0 }
  else if p.avail < p.q then { p with acc := p.acc + 1, avail := p.avail + 1 }
  else { p with acc := p.acc + 1, shortfall := true }

/-- The credits of the line that have not accrued do so by its end. -/
def Pace.accrueRest (p : Pace) (runnable : Bool) : Nat → Pace
  | 0 => p
  | n + 1 => (p.accrue runnable).accrueRest runnable n

/-- The rate of the line that starts (R101, R102). -/
def nextRate (prof : Byte) (mips : Nat) : Nat := if prof = 1 then 4 else if prof = 2 then 16 else mips

/-- Start the present program line at `t` with rate `m`: its quota, and no more credit than the quota (R104). -/
def Cell.startLine (x : Cell) (clks m t : Nat) : Cell :=
  let p := { x.pace with m := m, t := t, acc := 0, k := 0, shortfall := false, waited := false }
  let x := { x with pace := p }
  let e := x.lineEnd clks
  let q := credit m e - credit m t
  { x with
    pace := { p with tEnd := e, q := q, avail := min p.avail q, shortfall := decide (q < p.avail)
                     line01 := if x.beam.pline < 1 then p.line01 else none }
    beam := { x.beam with linecmp := x.reg16 0x040A, logCount := 0 } }

/-- The pace pixel (R105), or the pixel-clock position where the quota is 0. -/
def Cell.pacePixel (x : Cell) : Nat :=
  if x.pace.q = 0 then min x.beam.hpix (x.beam.pgeom.htotal - 1)
  else min (x.pace.k * x.beam.pgeom.htotal / x.pace.q) (x.beam.pgeom.htotal - 1)

/-- The cell becomes runnable in mid-line at pixel clock `pix`: k is set so that the pace pixel is there (R105). -/
def Cell.resumeAt (x : Cell) (pix : Nat) : Cell :=
  let ht := x.beam.pgeom.htotal
  let pos := min pix (ht - 1)
  { x with
    pace := { x.pace with avail := 0, k := (pos * x.pace.q + ht - 1) / ht }
    beam := { x.beam with hpix := pos } }

/-- Program vertical blanking (R47). -/
def CellBeam.inVblank (b : CellBeam) : Bool := b.on && !b.waiting && decide (b.pgeom.vactive ≤ b.pline)

/-- VB_STATUS (R54); `lock` is HOUSE_LOCK. -/
def Cell.vbStatus (x : Cell) (lock : Bool) : Byte :=
  let b := x.beam
  flagIf b.inVblank 1 ||| flagIf (b.on && !b.waiting && decide (b.pgeom.hactive ≤ x.pacePixel)) 2 |||
  flagIf b.held.isSome 4 ||| flagIf b.geomErr 8 ||| flagIf b.llwOvf 16 ||| flagIf lock 32 ||| flagIf b.commitDone 64

/-- HOUSE_LOCK (R54). -/
def HouseBeam.locked (h : HouseBeam) : Bool := h.lock == .locked || (h.lock == .free && h.src == 0)

/-- Registers of the beam block, without side effects. -/
def Cell.viewBeam (x : Cell) (h : HouseBeam) (a : Nat) : Byte :=
  let b := x.beam
  let live := b.on && !b.waiting
  if a = 0x040C || a = 0x040D then byteOf (if live then b.pline else 0) (a - 0x040C)
  else if a = 0x040E || a = 0x040F then byteOf (if live then x.pacePixel else 0) (a - 0x040E)
  else if a = 0x0410 || a = 0x0411 then byteOf (if live then b.pframe.toNat else 0) (a - 0x0410)
  else if a = 0x0412 then x.vbStatus h.locked
  else if a = 0x0414 then flagIf b.commit 1
  else x.reg8 a

/-- A write of VB_STATUS or VID_COMMIT (R51, R54). -/
def Cell.writeBeam (x : Cell) (a : Nat) (v : Byte) : Cell :=
  if a = 0x0412 then
    { x with beam := { x.beam with
      geomErr := x.beam.geomErr && !v.getLsbD 3, llwOvf := x.beam.llwOvf && !v.getLsbD 4
      commitDone := x.beam.commitDone && !v.getLsbD 6 } }
  else if a = 0x0414 then { x with beam := { x.beam with commit := x.beam.commit || v.getLsbD 0 } }
  else x.writePlain a v

end Sys2Proof.Machine
end

