-- ==== Sys2Proof/Machine/TimerOps.lean ====
section
/-! DEFINITION. Timers and the watchdog's count (R298 to R317): counts, events and actions of one cluster cycle,
captures, compare writes, and the make-up after a sleep or a move. -/

namespace Sys2Proof.Machine

/-! ## Registers of a timer -/

/-- First register address of timer `n`. -/
def tmBase (n : Fin 4) : Nat := 0x0180 + 0x10 * n.val

/-- Update timer `n`. -/
def Cell.modTm (x : Cell) (n : Fin 4) (f : Tm → Tm) : Cell := { x with tm := x.tm.set n (f (x.tm.get n)) }

/-- The partner of a timer, and the even timer of its pair. -/
def tmMate (n : Fin 4) : Fin 4 := ⟨if n.val % 2 = 0 then n.val + 1 else n.val - 1, by have := n.isLt; split <;> omega⟩
def tmEven (n : Fin 4) : Fin 4 := ⟨n.val / 2 * 2, by omega⟩

/-- The timer belongs to a 32-bit pair (R301). -/
def Cell.tmPaired (x : Cell) (n : Fin 4) : Bool := x.regBit (tmBase (tmEven n) + 1) 0

/-- The odd half of a pair: it has no counting of its own. -/
def Cell.tmSlave (x : Cell) (n : Fin 4) : Bool := n.val % 2 == 1 && x.tmPaired n

/-- CLK, PRE and MKUP. -/
def Cell.tmClk (x : Cell) (n : Fin 4) : Nat := (x.reg8 (tmBase n)).toNat % 4
def Cell.tmPre (x : Cell) (n : Fin 4) : Nat := (x.reg8 (tmBase n)).toNat / 4 % 16
def Cell.tmMkup (x : Cell) (n : Fin 4) : Bool := x.regBit (tmBase n) 6

/-- Width modulus of the counter: 16 bits, or 32 in a pair. -/
def Cell.tmMod (x : Cell) (n : Fin 4) : Nat := if x.tmPaired n then 4294967296 else 65536

/-- The counter's value, the compare value in force, and the pending one, over both halves in a pair. -/
def Cell.tmValue (x : Cell) (n : Fin 4) : Nat :=
  if x.tmPaired n then (x.tm.get (tmEven n)).cnt + 65536 * (x.tm.get (tmMate (tmEven n))).cnt else (x.tm.get n).cnt
def Cell.tmCompare (x : Cell) (n : Fin 4) : Nat :=
  if x.tmPaired n then (x.tm.get (tmEven n)).cmp + 65536 * (x.tm.get (tmMate (tmEven n))).cmp else (x.tm.get n).cmp

/-- Set the counter; at 0 a pending compare value becomes live (R306). -/
def Cell.tmSet (x : Cell) (n : Fin 4) (v : Nat) : Cell :=
  let adopt (t : Tm) : Tm := if v = 0 then { t with cmp := t.cmpPend.getD t.cmp, cmpPend := none } else t
  if x.tmPaired n then
    (x.modTm (tmEven n) fun t => adopt { t with cnt := v % 65536 }).modTm (tmMate (tmEven n)) fun t =>
      adopt { t with cnt := v / 65536 % 65536 }
  else x.modTm n fun t => adopt { t with cnt := v % 65536 }

/-- RUN of a timer, of both halves in a pair. A stop takes the snapshot (R307). -/
def Cell.tmRun (x : Cell) (n : Fin 4) (on : Bool) : Cell :=
  let f (t : Tm) : Tm := { t with run := on, snap := if t.run && !on then t.cnt else t.snap }
  if x.tmPaired n then (x.modTm (tmEven n) f).modTm (tmMate (tmEven n)) f else x.modTm n f

/-- Flags `bits` (MATCH 1, OVF 2, CAP 4) of timer `n` are set: one edge where an enabled one was 0 (R305). -/
def Cell.tmFlags (x : Cell) (n : Fin 4) (bits : Byte) (quiet : Bool) : Cell :=
  let st := (x.tm.get n).stat
  let y := x.modTm n fun t => { t with stat := t.stat ||| bits }
  if !quiet && (bits &&& ~~~st &&& x.reg8 (tmBase n + 3) &&& 7 != 0) then y.edge (8 + n.val) else y

/-! ## One cluster cycle (R303, R304) -/

/-- What a count of one timer brings about: flags, and the actions on their targets. -/
structure TmEvents where
  flags : Byte := 0
  deriving DecidableEq, Repr

/-- An action code on match or overflow with its target: timer number and code. -/
def Cell.tmAction (x : Cell) (n : Fin 4) (shift : Nat) : Fin 4 × Nat :=
  let act := (x.reg8 (tmBase n + 2)).toNat / 2 ^ shift
  let target := if act / 4 % 2 = 1 && !x.tmPaired n then tmMate n else n
  (target, act % 4)

/-- Count timer `n` once: the new value, and the flags of its events. -/
def Cell.tmCount (x : Cell) (n : Fin 4) : Cell × Byte :=
  let t := x.tm.get n
  let v := x.tmValue n
  let ovf := !t.selfReset && v + 1 == x.tmMod n
  let w := if t.selfReset || ovf then 0 else v + 1
  let y := (x.tmSet n w).modTm n fun t => { t with selfReset := false }
  (y, flagIf (w == y.tmCompare n) 1 ||| flagIf ovf 2)

/-- The actions of the events of timer `n`: (target, code, the event was a match of the target itself). -/
def Cell.tmActions (x : Cell) (n : Fin 4) (ev : Byte) : List (Fin 4 × Nat × Bool) :=
  let m := x.tmAction n 0
  let o := x.tmAction n 3
  (if ev.getLsbD 0 then [(m.1, m.2, m.1 == n)] else []) ++ (if ev.getLsbD 1 then [(o.1, o.2, false)] else [])

/-- Actions that reach timer `t` in one cycle: any reset applies, a stop prevails over a start (R304). -/
def Cell.tmTake (x : Cell) (acts : List (Fin 4 × Nat × Bool)) (t : Fin 4) : Cell :=
  let mine := acts.filter fun a => a.1 == t
  let x := if mine.any fun a => a.2.1 == 1 && a.2.2 then x.modTm t fun k => { k with selfReset := true } else x
  let x := if mine.any fun a => a.2.1 == 1 && !a.2.2 then (x.tmSet t 0).modTm t fun k => { k with selfReset := false } else x
  if mine.any fun a => a.2.1 == 3 then x.tmRun t false
  else if mine.any fun a => a.2.1 == 2 then x.tmRun t true
  else x

/-- The timers 0 to 3. -/
def tmAll : List (Fin 4) := [0, 1, 2, 3]

/-- The timers of `who` count in one cluster cycle; `quiet` timers give no edge (R311). Answers the events too. -/
def Cell.tmCycle (x : Cell) (who quiet : BitVec 4) : Cell × List (Fin 4 × Byte) :=
  let ns := tmAll.filter fun n => who.getLsbD n.val && (x.tm.get n).run && !x.tmSlave n
  let (x, evs) := ns.foldl (fun (y, l) n => let (z, e) := y.tmCount n; (z, l ++ [(n, e)])) (x, ([] : List (Fin 4 × Byte)))
  let acts := (evs.map fun (n, e) => x.tmActions n e).flatten
  let x := tmAll.foldl (fun y t => y.tmTake acts t) x
  (evs.foldl (fun y (n, e) => y.tmFlags n e (quiet.getLsbD n.val)) x, evs)

/-- Counting is held (R310, R312): in SLEEP, in PAUSE, in a halt with FRZ at 1 or from PAUSED, and during a move. -/
def Cell.tmHeld (x : Cell) : Bool :=
  x.clocksStopped || x.actual == .paused || x.inTransit ||
  (x.ctl.st == .halted && (x.regBit 0x01C1 0 || x.ctl.prior == .paused)) || !x.ctl.st.started

/-- Timers on the line clock. -/
def Cell.tmLineSet (x : Cell) : BitVec 4 :=
  tmAll.foldl (fun m n => putBit m n.val (x.tmClk n == 1)) 0

/-- A program line start for the timers (R298, R310): those on the line clock count, or the line is recorded. -/
def Cell.tmLineStart (x : Cell) : Cell :=
  if x.clocksStopped || x.inTransit then
    { x with ctl := { x.ctl with heldLines := x.pace.t :: x.ctl.heldLines } }
  else if x.tmHeld then x
  else (x.tmCycle x.tmLineSet 0).1

/-! ## Capture (R308, R309) -/

/-- A capture of timer `n`, of both halves in a pair. -/
def Cell.tmCapture (x : Cell) (n : Fin 4) : Cell :=
  if x.tmSlave n then x
  else
    let f (t : Tm) : Tm := { t with cap := t.cnt, snap := t.cnt, capUnread := true }
    let ovr := (x.tm.get n).capUnread
    let y := if x.tmPaired n then (x.modTm n f).modTm (tmMate n) f else x.modTm n f
    let y := if ovr then y.modTm n fun t => { t with stat := t.stat ||| 8 } else y
    y.tmFlags n 4 false

/-- A capture event: `src` as in TMn_CAPCFG.SRC, `sh` the shared input. -/
def Cell.tmCaptureOn (x : Cell) (src sh : Nat) : Cell :=
  tmAll.foldl
    (fun y n =>
      let v := (y.reg8 (tmBase n + 4)).toNat
      if v % 4 = src && (src != 1 || v / 4 % 4 == sh) && !y.clocksStopped then y.tmCapture n else y) x

/-! ## Registers (R299, R300, R306, R307) -/

/-- TG_START: STOP prevails; in a pair the even bit acts on both halves (R299, R301). -/
def Cell.writeTg (x : Cell) (v : Byte) : Cell :=
  tmAll.foldl
    (fun y n =>
      if y.tmSlave n then y
      else if v.getLsbD (4 + n.val) then y.tmRun n false
      else if v.getLsbD n.val then y.tmRun n true
      else y) x

/-- A write of TMn_CMP (R306). -/
def Cell.writeCmp (x : Cell) (n : Fin 4) (high : Bool) (v : Byte) : Cell :=
  if !high then x.modTm n fun t => { t with stageLo := v }
  else if x.tmPaired n && n.val % 2 == 0 then x.modTm n fun t => { t with stageHi := v }
  else
    let e := tmEven n
    let half (t : Tm) (hi : Byte) : Nat := t.stageLo.toNat + 256 * hi.toNat
    let own := half (x.tm.get n) v
    let paired := x.tmPaired n
    let whole := if paired then half (x.tm.get e) (x.tm.get e).stageHi + 65536 * own else own
    let now := !(x.tm.get n).run || decide (x.tmValue n < whole)
    let load (w : Nat) (t : Tm) : Tm :=
      if now then { t with cmp := w, cmpPend := none, cmpRead := w } else { t with cmpPend := some w, cmpRead := w }
    let y := x.modTm n (load own)
    if paired then y.modTm e (load (whole % 65536)) else y

/-- The timer runs, or the other half of its pair does (R300). -/
def Cell.tmBusy (x : Cell) (n : Fin 4) : Bool :=
  (x.tm.get n).run || (x.tmPaired n && (x.tm.get (tmMate n)).run)

/-- Timer of an I/O address in 0180h to 01BFh. -/
def tmOf (a : Nat) : Fin 4 := ⟨(a - 0x0180) / 0x10 % 4, by omega⟩

/-- Writes of timer registers. -/
def Cell.writeTm (x : Cell) (a : Nat) (v : Byte) : Cell :=
  let n := tmOf a
  let o := a % 16
  let refuse : Cell := x.modTm n fun t => { t with stat := t.stat ||| 0x20 }
  if o = 0 then (if x.tmBusy n then refuse else x.writePlain a v)
  else if o = 1 then
    if n.val % 2 = 1 then x
    else if x.tmBusy n || (v.getLsbD 0 && (x.tm.get (tmMate n)).run) then refuse else x.writePlain a v
  else if o = 5 then (if v.getLsbD 0 then x.tmCapture n else x)
  else if o = 6 then x.modTm n fun t => { t with stat := t.stat &&& ~~~v }
  else if o = 8 || o = 9 then
    if x.tmBusy n then refuse
    else x.modTm n fun t =>
      let w := if o = 8 then t.cnt / 256 * 256 + v.toNat else t.cnt % 256 + 256 * v.toNat
      { t with cnt := w, snap := w }
  else if o = 10 then x.writeCmp n false v
  else if o = 11 then x.writeCmp n true v
  else if o = 12 || o = 13 then x
  else x.writePlain a v

/-- Reads of timer registers, without side effects. -/
def Cell.viewTm (x : Cell) (a : Nat) : Byte :=
  let n := tmOf a
  let t := x.tm.get n
  let o := a % 16
  if o = 1 then (if n.val % 2 = 1 then 0 else x.reg8 a)
  else if o = 5 then 0
  else if o = 6 then t.stat
  else if o = 8 || o = 9 then byteOf (if t.run then t.snap else t.cnt) (o - 8)
  else if o = 10 || o = 11 then byteOf t.cmpRead (o - 10)
  else if o = 12 || o = 13 then byteOf t.cap (o - 12)
  else x.reg8 a

/-- TG_START reads RUN. -/
def Cell.viewTg (x : Cell) : Byte := tmAll.foldl (fun b n => b ||| flagIf (x.tm.get n).run (BitVec.ofNat 8 (2 ^ n.val))) 0

/-- Side effects of a read: RD_RUN (R307), and a captured value counts as read (R309). -/
def Cell.readTm (x : Cell) (a : Nat) : Cell :=
  let n := tmOf a
  let o := a % 16
  if (o = 8 || o = 9) && (x.tm.get n).run then x.modTm n fun t => { t with stat := t.stat ||| 0x10 }
  else if o = 12 then x.modTm n fun t => { t with capUnread := false }
  else x

/-! ## Make-up (R310 to R312) -/

/-- Units of make-up time: 32 to a cluster cycle, so that a slow-clock cycle is 390,625. -/
def mkSlow : Nat := 390625

/-- Position of a program line start within the hold, in those units. -/
def Cell.mkLine (x : Cell) (t : Nat) : Nat := (t - x.ctl.heldFrom) * 12800 / (594 * 16777216) + 1

/-- The next count of timer `n` strictly after instant `now`, for one that started its period at `from`. -/
def Cell.mkNext (x : Cell) (n : Fin 4) (start now : Nat) : Option Nat :=
  let clk := x.tmClk n
  if clk = 0 then
    let p := 32 * 2 ^ x.tmPre n
    some (start + ((now - start) / p + 1) * p)
  else if clk = 1 then (x.ctl.heldLines.reverse.map x.mkLine).find? fun t => decide (now < t)
  else if clk = 2 then some ((now / mkSlow + 1) * mkSlow)
  else none

/-- A make-up in progress: the present instant, and for each timer the start of its prescaler period and how many
matches and overflows it has met. -/
structure MkState where
  x : Cell
  now : Nat
  start : Vector Nat 4
  matches_ : Vector Nat 4
  ovfs : Vector Nat 4

/-- A timer takes part: it runs, is no odd half, and has MKUP at 1 unless `all`. -/
def Cell.mkPart (x : Cell) (all : Bool) (n : Fin 4) : Bool :=
  (x.tm.get n).run && !x.tmSlave n && (all || x.tmMkup n)

/-- The earliest next count among the timers that take part. -/
def MkState.next (m : MkState) (all : Bool) : Option Nat :=
  tmAll.foldl
    (fun best n =>
      if m.x.mkPart all n then
        match best, m.x.mkNext n (m.start.get n) m.now with
        | none, t => t
        | some b, some t => some (min b t)
        | some b, none => some b
      else best) none

/-- One instant of the make-up: every timer whose next count falls at `t` counts, in one cycle. -/
def MkState.step (m : MkState) (all : Bool) (quiet : BitVec 4) (t : Nat) : MkState :=
  let who : BitVec 4 := tmAll.foldl
    (fun w n => putBit w n.val (m.x.mkPart all n && m.x.mkNext n (m.start.get n) m.now == some t)) 0
  let ran (n : Fin 4) := (m.x.tm.get n).run
  let (y, evs) := m.x.tmCycle who quiet
  let bump (v : Vector Nat 4) (bit : Nat) : Vector Nat 4 :=
    evs.foldl (fun v (n, e) => if e.getLsbD bit then v.set n (v.get n + 1) else v) v
  { x := y, now := t
    start := tmAll.foldl (fun v n => if (y.tm.get n).run && !ran n then v.set n t else v) m.start
    matches_ := bump m.matches_ 0, ovfs := bump m.ovfs 1 }

/-- Advance to instant `total`. -/
def MkState.run (all : Bool) (quiet : BitVec 4) (total : Nat) : Nat → MkState → MkState
  | 0, m => m
  | k + 1, m =>
    match m.next all with
    | none => m
    | some t => if total < t then m else MkState.run all quiet total k (m.step all quiet t)

/-- Advance the cell's timers by `total` units (R310): in time order, through every event, MKOVR for repeated kinds. -/
def Cell.tmMakeUp (x : Cell) (all : Bool) (quiet : BitVec 4) (total : Nat) : Cell :=
  let fuel := 4 * (total / 32 + 1) + 4 * (x.ctl.heldLines.length + 1)
  let z : Vector Nat 4 := Vector.replicate 4 0
  let m := MkState.run all quiet total fuel { x := x, now := 0, start := z, matches_ := z, ovfs := z }
  let y := tmAll.foldl
    (fun y n =>
      if 1 < m.matches_.get n || 1 < m.ovfs.get n then y.modTm n fun t => { t with stat := t.stat ||| 0x40 } else y) m.x
  { y with ctl := { y.ctl with heldLines := [] } }

/-- Counts until the first enabled event of timer `n` (R311). -/
def Cell.tmFirst (x : Cell) (n : Fin 4) : Option Nat :=
  let v := x.tmValue n
  let m := x.tmMod n
  let t := x.tm.get n
  let toMatch := if t.selfReset then x.tmCompare n + 1 else if v < x.tmCompare n then x.tmCompare n - v else m - v + x.tmCompare n
  let toOvf := if t.selfReset then m + 1 else m - v
  let ie := (x.reg8 (tmBase n + 3)).toNat
  if ie % 2 = 1 then some (if ie / 2 % 2 = 1 then min toMatch toOvf else toMatch)
  else if ie / 2 % 2 = 1 then some toOvf else none

/-- The instant of that event within a sleep, in make-up units, lines taken at their present length. -/
def Cell.tmFirstAt (x : Cell) (clks : Nat) (n : Fin 4) : Option Nat :=
  if !x.mkPart false n then none
  else
    (x.tmFirst n).map fun k =>
      if x.tmClk n = 0 then k * 32 * 2 ^ x.tmPre n
      else if x.tmClk n = 1 then k * x.beam.pgeom.htotal * dOf x.beam.pgeom clks * 12800 / (594 * 16777216)
      else k * mkSlow

/-- The sleeping cell's alarm is armed for timer `n` (R311): no other timer's first event comes earlier. -/
def Cell.alarmFor (x : Cell) (clks : Nat) (n : Fin 4) : Bool :=
  match x.tmFirstAt clks n with
  | none => false
  | some t => tmAll.all fun m => match x.tmFirstAt clks m with
    | none => true
    | some u => decide (t ≤ u)

/-! ## The watchdog's count (R313, R316, R317) -/

/-- The watchdog counts: EN is 1 and no hold applies. -/
def Cell.wdCounts (x : Cell) : Bool :=
  x.wdEn && x.ctl.st.started && x.ctl.st != .faulted && x.actual != .paused &&
  !(x.ctl.st == .halted && (x.regBit 0x01D0 3 || x.ctl.prior == .paused)) &&
  !(x.actual == .sleep && x.regBit 0x01D0 2)

/-- One slow-clock cycle. -/
def Cell.wdTick (x : Cell) : Cell :=
  if !x.wdCounts || x.wd.expireDue then x
  else
    let n := x.wd.count - 1
    let w := x.wdWarnAt
    { x with wd := { x.wd with
      count := n
      warnDue := x.wd.warnDue || (n == w && w != 0 && decide (w < x.wdPeriod))
      expireDue := n == 0 } }

/-- At the end of a hold the count is raised to an eighth of the period, rounded up (R316). -/
def Cell.wdTopUp (x : Cell) : Cell :=
  let least := (x.wdPeriod + 7) / 8
  if x.wdEn && decide (x.wd.count < least) then { x with wd := { x.wd with count := least, topup := true } } else x

end Sys2Proof.Machine
end

