-- ==== Sys2Proof/Machine/Links.lean ====
section
/-! DEFINITION. Jajan frames, the reliable transport of a swarm link, paths to members, and the events of shared sources
(R157 to R161, R372 to R389). -/

namespace Sys2Proof.Machine

/-! ## Access to links -/

/-- Update link `l`. -/
def State.modLinkL (s : State) (l : Fin 7) (f : Link → Link) : State :=
  { s with swarm := { s.swarm with links := s.swarm.links.set l (f (s.swarm.links.get l)) } }

def State.modSwarm (s : State) (f : Swarm → Swarm) : State := { s with swarm := f s.swarm }

def State.swarmLink (s : State) (l : Fin 7) : Link := s.swarm.links.get l

def allLinks : List (Fin 7) := List.finRange 7

/-- LK_STATE values (R375). -/
def lkDown : Byte := 0
def lkTrain : Byte := 1
def lkHello : Byte := 2
def lkUp : Byte := 3
def lkRetrain : Byte := 4
def lkConflict : Byte := 5
def lkForeign : Byte := 6

/-- A change of LK_STATE raises LK_STATE (0012h) and is journalled (R375). -/
def State.setLink (s : State) (l : Fin 7) (st : Byte) (f : Link → Link) : State :=
  let old := (s.swarmLink l).state
  let s := s.modLinkL l fun k => { f k with state := st }
  if old = st then s else s.raiseEvent 0x12 l.val false st.toNat

/-! ## Frames (R376 to R378) -/

/-- Class of a frame type (R377). -/
def jclass (kind : Nat) : Fin 4 :=
  if kind < 4 then 0 else if kind < 8 then 1 else if kind < 10 then 2 else 3

/-- The 12-byte header of a frame. -/
def JFrame.header (f : JFrame) : List Byte :=
  [BitVec.ofNat 8 (f.kind % 16 + 16 * b2n f.last), BitVec.ofNat 8 (f.src.toNat + 8 * f.dst.toNat)] ++
  toBytes f.seq.toNat 2 ++ toBytes (match f.ack with | none => 0 | some a => a.toNat + 32768) 2 ++
  toBytes f.payload.length 2 ++ toBytes f.tag.toNat 4

/-- Zero padding of a payload of `n` bytes to a multiple of 8: the longest frame, with LEN 1,040, has 1,056 bytes. -/
def jpad (n : Nat) : List Byte := List.replicate ((8 - n % 8) % 8) 0

/-- The frame without its CRC. -/
def JFrame.body (f : JFrame) : List Byte :=
  f.header ++ f.payload ++ jpad f.payload.length

/-- The CRC of a frame: the 4 bytes of SEQ are folded in as a suffix (R378). -/
def JFrame.crc (f : JFrame) : Word := crc32c (f.body ++ toBytes f.seq.toNat 4)

/-- The bytes of a frame. -/
def JFrame.encode (f : JFrame) : List Byte := f.body ++ toBytes f.crc.toNat 4

/-- A frame from its bytes, its CRC and layout checked; `none` for a frame that is discarded (R376, R378). -/
def JFrame.parse (l : List Byte) : Option JFrame :=
  match l with
  | b0 :: b1 :: s0 :: s1 :: a0 :: a1 :: n0 :: n1 :: r =>
    let len := ofBytes [n0, n1]
    let seq := ofBytes [s0, s1]
    let ack := ofBytes [a0, a1]
    let f : JFrame :=
      { kind := b0.toNat % 16, last := b0.getLsbD 4, src := b1.setWidth 3, dst := (b1 >>> 3).setWidth 3
        seq := BitVec.ofNat 12 seq, ack := if 32768 ≤ ack then some (BitVec.ofNat 12 ack) else none
        tag := BitVec.ofNat 32 (ofBytes (r.take 4)), payload := (r.drop 4).take len }
    if decide (b0.toNat < 32) && decide (b1.toNat < 64) && decide (seq < 4096) && decide (ack / 4096 % 8 = 0) &&
        decide (len ≤ 1040) && f.encode == l then some f else none
  | _ => none

/-- Types 4h to Bh: the cell and its home device (R377). -/
def JFrame.cell (f : JFrame) : Fin 128 := ⟨f.tag.toNat % 128, Nat.mod_lt _ (by decide)⟩
def JFrame.home (f : JFrame) : BitVec 3 := BitVec.ofNat 3 (f.tag.toNat / 128)

/-! ## Paths (R373, R389) -/

/-- FENCE_LINK names the link, or its scout finds it SLOW. -/
def State.linkAvoided (s : State) (l : Fin 7) : Bool :=
  (s.objOr 0x3001 4 0).testBit l.val ||
  (Table.read (fun _ => ({} : Scout)) s.keeper.scouts (3 * 32 + l.val)).slow

/-- A link that is UP to member `d`. -/
def State.directLink (s : State) (d : BitVec 3) : Option (Fin 7) :=
  let up := allLinks.filter fun l => (s.swarmLink l).state == lkUp && (s.swarmLink l).peer == d.zeroExtend 8
  match up.find? fun l => !s.linkAvoided l with
  | some l => some l
  | none => up.head?

/-- A link to a member that reaches `d` directly. -/
def State.relayLink (s : State) (d : BitVec 3) : Option (Fin 7) :=
  allLinks.find? fun l =>
    (s.swarmLink l).state == lkUp && !s.linkAvoided l &&
    (match (s.swarmLink l).hello with | some h => h.reaches.getLsbD d.toNat | none => false)

/-- The link that traffic to member `d` takes: direct, unless that link is fenced or SLOW and a relay is open. -/
def State.pathTo (s : State) (d : BitVec 3) : Option (Fin 7) :=
  match s.directLink d with
  | some l => if s.linkAvoided l then (match s.relayLink d with | some r => some r | none => some l) else some l
  | none => s.relayLink d

/-- Member `d` can be reached (R389). -/
def State.reaches (s : State) (d : BitVec 3) : Bool := d == s.devId || (s.pathTo d).isSome

/-- SW_MEMBERS. -/
def State.members (s : State) : BitVec 8 :=
  (List.range 8).foldl (fun m d => putBit m d (s.reaches (BitVec.ofNat 3 d))) 0

/-! ## Sending (R379, R380) -/

/-- 128-byte units of a frame. -/
def JFrame.units (f : JFrame) : Nat := (f.encode.length + 127) / 128

/-- A frame sent on link `l`. A class 0 frame carries the SEQ of the next numbered frame; every other frame takes that
number, uses credit of its class and waits in the replay buffer for its ACK. -/
def Link.send (k : Link) (f : JFrame) : Link :=
  let f := { f with seq := k.txSeq, ack := some k.rxSeq }
  if jclass f.kind = 0 then { k with lastCtrl := some f }
  else
    let c := jclass f.kind
    { k with txSeq := k.txSeq + 1, replay := k.replay ++ [f], credit := k.credit.set c (k.credit.get c - f.units) }

/-- A frame to member `d`; with no path it is discarded and counted (R389). -/
def State.sendTo (s : State) (d : BitVec 3) (kind : Nat) (last : Bool) (tag : Word) (payload : List Byte) : State :=
  match s.pathTo d with
  | none => s.modSwarm fun w => { w with fwdLost := satInc w.fwdLost }
  | some l => s.modLinkL l fun k =>
      k.send { kind := kind, last := last, src := s.devId, dst := d, seq := 0, ack := none, tag := tag, payload := payload }

/-- TAG of types 4h to Bh. -/
def jtag (c : Nat) (home : BitVec 3) (extra : Nat) : Word := BitVec.ofNat 32 (c + 128 * home.toNat + 1024 * extra)

/-- A payload in frames of at most 1,024 bytes, END on the last (R376). -/
def State.sendChunks (s : State) (d : BitVec 3) (kind : Nat) (tag : Word) : List (List Byte) → State
  | [] => s
  | [p] => s.sendTo d kind true tag p
  | p :: r => (s.sendTo d kind false tag p).sendChunks d kind tag r

/-- Cut bytes into runs of 1,024. -/
def chunks : Nat → List Byte → List (List Byte)
  | 0, _ => []
  | n + 1, l => l.take 1024 :: chunks n (l.drop 1024)

def State.sendParts (s : State) (d : BitVec 3) (kind : Nat) (tag : Word) (l : List Byte) : State :=
  s.sendChunks d kind tag (chunks ((l.length + 1023) / 1024) l)

/-! ## Shared sources (R157 to R161) -/

def State.modSource (s : State) (n : Fin 153) (f : SharedSrc → SharedSrc) : State :=
  { s with sources := s.sources.set n (f (s.sources.get n)) }

/-- The edge of a shared input, with the captures that it makes (R160, R308). -/
def State.shInput (s : State) (c : CellNo) (input : Nat) : State :=
  s.modCell c fun x => (x.edge (24 + input)).tmCaptureOn 1 input

/-- Cells of this device and guests: the run device holds the pending bit. -/
def State.shToCell (s : State) (n : Fin 153) (dev : BitVec 3) (c : CellNo) (input : Nat) : State :=
  let x := s.cell c
  if dev = s.devId then
    if !x.ctl.st.started then s.modSource n fun r => { r with lost := satInc r.lost }
    else
      match x.kp.away with
      | some d => s.sendTo d 6 true (jtag c.val dev (n.val + 256 * s.devId.toNat)) []
      | none => s.shInput c input
  else if x.kp.guest = some dev then s.shInput c input
  else s.sendTo dev 6 true (jtag c.val dev (n.val + 256 * s.devId.toNat)) []

/-- A notice SH_EVENT for `n` is still unread. -/
def State.shPending (s : State) (n : Nat) : Bool :=
  (s.link.notice.waiting ++ s.link.notice.inRing).any fun p =>
    match p.words with
    | w :: _ => w.toNat % 65536 == 8 && w.toNat / 4294967296 == n
    | [] => false

/-- One event of shared source `n`. -/
def State.fireShared (s : State) (n : Fin 153) : State :=
  let r := s.objOr (0x2200 + n.val) 1 0
  let s := s.modSource n fun k => { k with events := satInc k.events }
  match r % 4 with
  | 0 => s
  | 1 => s.shToCell n (BitVec.ofNat 3 (r / 4)) ⟨r / 32 % 128, Nat.mod_lt _ (by decide)⟩ (r / 4096 % 4)
  | 2 => if s.shPending n.val then s else s.raise 8 0 false n.val
  | _ => s.msi 0 (r / 65536 % 256)

end Sys2Proof.Machine
end

