-- ==== Sys2Proof/Machine/Tiles.lean ====
section
/-! DEFINITION. Tile planes and packed tiles (R181 to R195): the value of a plane at a screen pixel, from live registers
and cell space. -/

namespace Sys2Proof.Machine

/-- The colour of a pixel before palette lookup: an index, or a colour of its own. -/
inductive Colour where
  | index (i : Nat)
  | direct (rgb : BitVec 24)
  deriving DecidableEq, Repr

/-- Palette size P of a profile (R181). -/
def palSize (prof : Byte) : Nat := if prof = 1 then 256 else if prof = 2 then 1024 else 4096

/-- A 5-bit or 6-bit component widened by repeating its high bits (R22). -/
def widen5 (v : Nat) : Nat := v * 8 + v / 4
def widen6 (v : Nat) : Nat := v * 4 + v / 16

/-- A colour from its components. -/
def rgbOf (r g b : Nat) : BitVec 24 := BitVec.ofNat 24 (r % 256 * 65536 + g % 256 * 256 + b % 256)

/-- A direct 16-bit value: transparent where bit 15 is 0 (R186). -/
def directColour (v : Nat) : Option Colour :=
  if v / 32768 % 2 = 0 then none
  else some (.direct (rgbOf (widen5 (v / 1024 % 32)) (widen5 (v / 32 % 32)) (widen5 (v % 32))))

/-- Bytes of cell space; `none` where any of them lies beyond the space (R165). -/
def Cell.span (x : Cell) (a n : Nat) : Option (List Byte) :=
  if a + n ≤ 32768 * x.map.pages then some ((List.range n).map fun i => x.readMem (a + i)) else none

/-- The pixel at index `i` of an array of `bpp`-bit pixels (R184). -/
def pixelOf (bpp : Nat) (bs : List Byte) (i : Nat) : Nat :=
  if bpp = 4 then
    let v := (bs.getD (i / 2) 0).toNat
    if i % 2 = 0 then v % 16 else v / 16
  else if bpp = 8 then (bs.getD i 0).toNat
  else (bs.getD (2 * i) 0).toNat + 256 * (bs.getD (2 * i + 1) 0).toNat

/-! ## Packed tiles (R189 to R192) -/

/-- A packed tile being decoded: values taken so far, groups decoded (newest first, four pixels each), and a fault. -/
structure PtState where
  taken : Nat := 0
  groups : List (List Nat) := []
  bad : Bool := false
  deriving DecidableEq, Repr

/-- Value `k` of a packed tile whose values start at byte `ofs`; beyond the tile it reads as 0 (R192). -/
def ptValue (bpp ofs : Nat) (bs : List Byte) (k : Nat) : Nat :=
  if bpp = 4 then pixelOf 4 (bs.drop ofs) k else (bs.getD (ofs + k) 0).toNat

/-- Value `k` lies within the tile. -/
def ptHas (bpp ofs : Nat) (bs : List Byte) (k : Nat) : Bool :=
  decide (ofs + (if bpp = 4 then k / 2 else k) < bs.length)

/-- Decode group `g` of a tile of `t` × `t` pixels (R190, R191). -/
def ptGroup (t bpp : Nat) (bs : List Byte) (p : PtState) (g : Nat) : PtState :=
  let ofs := 1 + t * t / 16
  let per := t / 4
  if bs.length ≤ 1 + g / 4 then { p with groups := [0, 0, 0, 0] :: p.groups, bad := true }
  else
    let code := (bs.getD (1 + g / 4) 0).toNat / 4 ^ (g % 4) % 4
    if code = 0 then { p with groups := [0, 0, 0, 0] :: p.groups }
    else if code = 1 then
      { p with groups := (if g < per then [0, 0, 0, 0] else p.groups.getD (per - 1) [0, 0, 0, 0]) :: p.groups }
    else if code = 2 then
      let v := ptValue bpp ofs bs p.taken
      { taken := p.taken + 1, groups := [v, v, v, v] :: p.groups, bad := p.bad || !ptHas bpp ofs bs p.taken }
    else
      { taken := p.taken + 4
        groups := ((List.range 4).map fun i => ptValue bpp ofs bs (p.taken + i)) :: p.groups
        bad := p.bad || !ptHas bpp ofs bs (p.taken + 3) }

/-- The pixels of a packed tile, row by row, and whether R192 finds a fault; a header fault leaves no pixels. -/
def ptDecode (t bpp : Nat) (bs : List Byte) : List Nat × Bool :=
  if bs.getD 0 0 != BitVec.ofNat 8 (b2n (bpp == 8) + 2 * b2n (t == 16)) then ([], true)
  else
    let p := (List.range (t * t / 4)).foldl (ptGroup t bpp bs) {}
    (p.groups.reverse.flatten, p.bad)

/-! ## One plane (R181 to R187) -/

/-- Registers of plane `p`. -/
def planeBase (p : Nat) : Nat := 0x0440 + 0x20 * p

/-- Bits per pixel of a DEPTH code. -/
def depthBpp (d : Nat) : Nat := if d = 0 then 4 else if d = 1 then 8 else 16

/-- The live configuration of plane `p` is one that R182 allows. -/
def Cell.planeOk (x : Cell) (p : Nat) : Bool :=
  let a := planeBase p
  let ctl := (x.live8 a).toNat
  let msz := (x.live8 (a + 1)).toNat
  let depth := ctl / 2 % 4
  let lim := x.prof.toNat
  decide (depth ≠ 3) && !(depth == 2 && (x.prof != 3 || ctl / 8 % 2 == 1)) &&
  !(ctl / 16 % 2 == 1 && x.prof != 3) && decide (msz % 4 ≤ lim) && decide (msz / 4 % 4 ≤ lim) &&
  decide ((x.live8 (a + 3)).toNat % 4 ≠ 3)

/-- The window of plane `p` admits screen pixel (`px`, `py`) (R187). -/
def Cell.planeAdmits (x : Cell) (p px py : Nat) : Bool :=
  let a := planeBase p
  let inside := decide (x.live16 (a + 0x14) ≤ px) && decide (px < x.live16 (a + 0x16)) &&
    decide (x.live16 (a + 0x18) ≤ py) && decide (py < x.live16 (a + 0x1A))
  let m := (x.live8 (a + 3)).toNat % 4
  if m = 0 then true else if m = 1 then inside else !inside

/-- What a plane gives at a pixel: the opaque pixel with its level, and the TP_STAT error bits met (R192, R195). -/
structure PlanePx where
  px : Option (Colour × Nat) := none
  err : Byte := 0
  deriving DecidableEq, Repr

/-- The value of pixel (`u`, `v`) of tile `tile` (R184, R189): the value, or `none` with its error bit. -/
def Cell.tileValue (x : Cell) (packed : Bool) (t bpp pat tile u v : Nat) : Option Nat × Byte :=
  let size := t * t * bpp / 8
  let raw (a : Nat) (whole : Bool) : Option Nat × Byte :=
    let ofs := (v * t + u) * bpp / 8
    let n := if bpp = 16 then 2 else 1
    if whole && (x.span a size).isNone then (none, 2)
    else match x.span (a + ofs) n with
      | none => (none, 2)
      | some bs => (some (pixelOf bpp bs (if bpp = 4 then u % 2 else 0)), 0)
  if !packed then raw (pat + tile * size) false
  else
    match x.span (pat + 4 * tile) 4 with
    | none => (none, 2)
    | some d =>
      let e := ofBytes d
      let a := pat + 4 * (e % 8388608)
      if e / 8388608 % 2 = 1 then raw a true
      else
        match x.span a (4 * (e / 16777216 + 1)) with
        | none => (none, 2)
        | some bs =>
          let (pixels, bad) := ptDecode t bpp bs
          (some (pixels.getD (v * t + u) 0), if bad then 1 else 0)

/-- The colour index of an indexed value (R186, R204). -/
def indexed (prof : Byte) (base pal g value : Nat) : Option Colour :=
  if value = 0 then none else some (.index ((base + pal * g + value) % palSize prof))

/-- Plane `p` at screen pixel `px` of active line `py` (R185 to R187). -/
def Cell.planePixel (x : Cell) (p px py : Nat) : PlanePx :=
  let a := planeBase p
  if !(x.live8 0x0420).getLsbD p || !x.planeOk p || !x.planeAdmits p px py then {}
  else
    let ctl := (x.live8 a).toNat
    let t := if ctl % 2 = 1 then 16 else 8
    let bpp := depthBpp (ctl / 2 % 4)
    let e := if ctl / 16 % 2 = 1 then 4 else 2
    let w := 32 * 2 ^ ((x.live8 (a + 1)).toNat % 4)
    let h := 32 * 2 ^ ((x.live8 (a + 1)).toNat / 4 % 4)
    let sx := (px + x.live16 (a + 0x10)) % (w * t)
    let sy := (py + x.live16 (a + 0x12)) % (h * t)
    match x.span (x.live32 (a + 8) + e * (sy / t * w + sx / t)) e with
    | none => { err := 2 }
    | some bs =>
      let m := ofBytes bs
      let (tile, fl, pal) := if e = 2 then (m % 1024, m / 1024, m / 8192) else (m % 65536, m / 65536, m / 1048576 % 256)
      let u := if fl % 2 = 1 then t - 1 - sx % t else sx % t
      let v := if fl / 2 % 2 = 1 then t - 1 - sy % t else sy % t
      let lev := (x.live8 (a + 2)).toNat
      let level := if fl / 4 % 2 = 1 then lev / 16 % 8 else lev % 8
      match x.tileValue (ctl / 8 % 2 == 1) t bpp (x.live32 (a + 0x0C)) tile u v with
      | (none, err) => { err := err }
      | (some val, err) =>
        let col := if bpp = 16 then directColour val
          else indexed x.prof (x.live16 (a + 4)) pal (if bpp = 4 then 16 else 256) val
        { px := col.map fun k => (k, level), err := err }

/-- TP_STAT bits of an error of plane `p`. -/
def tpBits (p : Nat) (err : Byte) : Half :=
  if err = 0 then 0 else err.zeroExtend 16 ||| BitVec.ofNat 16 (256 * 2 ^ p)

/-- The front tile-plane pixel (R188) and the errors met. -/
def Cell.tilePixel (x : Cell) (px py : Nat) : Option (Colour × Nat) × Half :=
  (List.range (planeCount x.prof)).foldl
    (fun (best, err) p =>
      let r := x.planePixel p px py
      let best := match best, r.px with
        | none, q => q
        | some b, some q => if b.2 < q.2 then some q else some b
        | some b, none => some b
      (best, err ||| tpBits p r.err)) (none, 0)

/-- TP_STAT bits of the planes whose live configuration R182 does not allow. -/
def Cell.planeCfgErr (x : Cell) : Half :=
  (List.range (planeCount x.prof)).foldl (fun e p => if x.planeOk p then e else e ||| tpBits p 4) 0

end Sys2Proof.Machine
end

