-- ==== Sys2Proof/Machine/Sprites.lean ====
section
/-! DEFINITION. Sprites (R198 to R212): the snapshot of the attribute table, the evaluation of a line, the front sprite
pixel and collisions. -/

namespace Sys2Proof.Machine

/-- Largest SPR_COUNT and SPR_LMAX of a profile (R198). -/
def spriteMax (prof : Byte) : Nat := if prof = 1 then 64 else if prof = 2 then 256 else 1024
def spriteLmax (prof : Byte) : Nat := if prof = 1 then 8 else if prof = 2 then 32 else 128

/-- A 12-bit two's complement coordinate (R202). -/
def signed12 (v : Nat) : Int := if 2048 ≤ v % 4096 then (v % 4096 : Int) - 4096 else (v % 4096 : Int)

/-- An attribute entry decoded (R202). -/
structure Sprite where
  slot : Nat
  y : Int
  x : Int
  w : Nat
  h : Nat
  hf : Bool
  vf : Bool
  pat : Nat
  pal : Nat
  level : Nat
  bpp : Nat
  col : Bool
  deriving DecidableEq, Repr

/-- The fields of slot `i` with entry `e`. -/
def spriteOf (i : Nat) (e : Long) : Sprite :=
  let n := e.toNat
  { slot := i, y := signed12 n, x := signed12 (n / 4096), w := 8 * 2 ^ (n / 2 ^ 24 % 8), h := 8 * 2 ^ (n / 2 ^ 27 % 8)
    hf := e.getLsbD 30, vf := e.getLsbD 31, pat := n / 2 ^ 32 % 65536, pal := n / 2 ^ 48 % 256
    level := n / 2 ^ 56 % 8, bpp := depthBpp (n / 2 ^ 59 % 4), col := e.getLsbD 61 }

/-- An entry whose fields the table and the profile allow (R198, R202). -/
def spriteOk (prof : Byte) (e : Long) : Bool :=
  let n := e.toNat
  let lim := prof.toNat + 1
  decide (n / 2 ^ 24 % 8 ≤ lim) && decide (n / 2 ^ 27 % 8 ≤ lim) && decide (n / 2 ^ 59 % 4 ≤ (if prof = 3 then 2 else 1))

/-- One entry of the snapshot: the entry that enters its slot and the SPR_STAT bits it sets (R200, R202). -/
def Cell.snapEntry (x : Cell) (base i : Nat) : Long × Byte :=
  match x.span (base + 8 * i) 8 with
  | none => (0, 4)
  | some bs =>
    let e := BitVec.ofNat 64 (ofBytes bs)
    if spriteOk x.prof e then (e, 0) else (0, 8)

/-- The snapshot: entries 0 to `n` − 1 into their slots, every other slot disabled (R199). -/
def Cell.snapshot (x : Cell) (base n : Nat) : Cell :=
  let entries := (List.range n).map fun i => (i, x.snapEntry base i)
  let slots := entries.foldl (fun t (i, e, _) => Table.write (fun _ => 0) t i e) ([] : Table Long)
  let bits := entries.foldl (fun b (_, _, f) => b ||| f) (0 : Byte)
  { x with vid := { x.vid with sprites := slots, snap := none, sprStat := x.vid.sprStat ||| bits } }

/-- Live SPR_COUNT under the profile's limit (R199). -/
def Cell.spriteCount (x : Cell) : Nat := min (x.live16 0x0502) (spriteMax x.prof)

/-- A transfer begins the snapshot (R199). -/
def Cell.snapBegin (x : Cell) : Cell :=
  let bad := decide (spriteMax x.prof < x.live16 0x0502)
  { x with vid := { x.vid with
    snap := some (x.live32 0x0508, x.spriteCount)
    sprStat := if bad then x.vid.sprStat ||| 8 else x.vid.sprStat } }

/-- The sprite overlaps an active column. -/
def Sprite.inColumns (p : Sprite) (hactive : Nat) : Bool := decide (p.x < hactive) && decide (0 < p.x + p.w)

/-- Candidates for line `n` in slot order (R198, R205). -/
def Cell.candidates (x : Cell) (n : Nat) : List Sprite :=
  x.vid.sprites.filterMap fun (i, e) =>
    let p := spriteOf i e
    if e.getLsbD 62 && decide (i < x.spriteCount) && decide (p.y ≤ n) && decide ((n : Int) < p.y + p.h) &&
        (x.prof != 3 || p.inColumns x.beam.geom.hactive) then some p else none

/-- The pattern bytes of a sprite's row on line `n` (R203); `none` where the read is refused. -/
def Cell.spriteRow (x : Cell) (p : Sprite) (n : Nat) : Option (List Byte) :=
  let v := ((n : Int) - p.y).toNat
  let v := if p.vf then p.h - 1 - v else v
  x.span (x.live32 0x050C + 32 * p.pat + v * p.w * p.bpp / 8) (p.w * p.bpp / 8)

/-- A selected sprite with its row's pixels. -/
structure DrawnSprite where
  s : Sprite
  row : List Byte
  deriving DecidableEq, Repr

/-- The colour a drawn sprite gives at column `px`. -/
def DrawnSprite.colour (d : DrawnSprite) (prof : Byte) (palbase px : Nat) : Option Colour :=
  if d.s.x ≤ px && (px : Int) < d.s.x + d.s.w then
    let u := ((px : Int) - d.s.x).toNat
    let u := if d.s.hf then d.s.w - 1 - u else u
    let v := pixelOf d.s.bpp d.row u
    if d.s.bpp = 16 then directColour v else indexed prof palbase d.s.pal (if d.s.bpp = 4 then 16 else 256) v
  else none

/-- The front pixel among the opaque pixels (R208): `hits` are in slot order. -/
def frontSprite (order : Bool) (hits : List (DrawnSprite × Colour)) : Option (Colour × Nat) :=
  hits.foldl
    (fun best (d, k) =>
      match best with
      | none => some (k, d.s.level)
      | some b => if !order && b.2 < d.s.level then some (k, d.s.level) else some b) none

/-- Comb clocks of a selected sprite (R206). -/
def Sprite.clocks (p : Sprite) (hactive : Nat) : Nat :=
  let lo := max 0 p.x
  let hi := min (hactive : Int) (p.x + p.w)
  if lo < hi then ((hi - lo).toNat + 3) / 4 else 0

/-- What the sprite stage finds on a line: the sprites that draw, the flags and records (R205, R211). -/
structure SpriteLine where
  drawn : List DrawnSprite := []
  candidates : Nat := 0
  dropped : Option Nat := none
  range : Bool := false
  clocks : Nat := 0
  deriving DecidableEq, Repr

/-- Evaluate line `n` (R205, R206). -/
def Cell.spriteLine (x : Cell) (n : Nat) : SpriteLine :=
  let cs := x.candidates n
  let sel := cs.take (spriteLmax x.prof)
  { drawn := sel.filterMap fun p => (x.spriteRow p n).map fun r => ⟨p, r⟩
    candidates := cs.length
    dropped := (cs.drop (spriteLmax x.prof)).head?.map (·.slot)
    range := sel.any fun p => (x.spriteRow p n).isNone
    clocks := (sel.map fun p => p.clocks x.beam.geom.hactive).sum }

/-- Sprite events of a completed line: SPR_STAT, the records, and how many edges source 5 receives (R210, R211). -/
def Cell.spriteFlags (x : Cell) (line : Nat) (dropped : Option Nat) (coll : Option (Nat × Nat)) (range : Bool) : Cell :=
  let v := x.vid
  let newOvf := dropped.isSome && !v.sprStat.getLsbD 1
  let newCol := coll.isSome && !v.sprStat.getLsbD 0
  let ovf := match dropped with
    | some k => if newOvf then BitVec.ofNat 32 (line + 65536 * k) else v.sprOvf
    | none => v.sprOvf
  let col := match coll with
    | some (a, b) => if newCol then BitVec.ofNat 32 (a + 1024 * b + 1048576 * line) else v.sprCol
    | none => v.sprCol
  let st := v.sprStat ||| flagIf coll.isSome 1 ||| flagIf dropped.isSome 2 ||| flagIf range 4
  let y := { x with vid := { v with sprStat := st, sprOvf := ovf, sprCol := col } }
  if newOvf || newCol then y.edge 5 else y

end Sys2Proof.Machine
end

