-- ==== Sys2Proof/Machine/Waggle.lean ====
section
/-! DEFINITION. Waggle lists (R214 to R229): the line-live registers, the engine that executes a list in a line slot, and
one meaning for each waggle instruction. -/

namespace Sys2Proof.Machine

/-! ## Line-live registers (R214) -/

/-- A 16-bit line-live register starts at `a`. -/
def lineLive16 (prof : Byte) (a : Nat) : Bool :=
  (decide (0x0440 ≤ a) && decide (a < 0x0500) && decide ((a - 0x0440) / 32 < planeCount prof) &&
    (a % 32 == 0x10 || a % 32 == 0x12 || a % 32 == 0x14 || a % 32 == 0x16)) ||
  a == 0x0602 || (prof != 1 && [0x0604, 0x0606, 0x0608, 0x060A, 0x060C, 0x060E].contains a)

/-- The byte at `a` belongs to a line-live register of the profile. -/
def lineLive8 (prof : Byte) (a : Nat) : Bool :=
  a == 0x0420 || a == 0x0500 || a == 0x0600 || (prof != 1 && (a == 0x0610 || a == 0x0611)) ||
  lineLive16 prof a || (decide (1 ≤ a) && lineLive16 prof (a - 1))

/-- Instructions per line (R225). -/
def wgLmax (prof : Byte) : Nat := if prof = 1 then 32 else if prof = 2 then 64 else 256

/-! ## Words (R219) -/

/-- Word `a` of a list; `none` where the read is refused. -/
def Cell.wgWord (x : Cell) (a : Nat) : Option Nat := (x.span a 4).map ofBytes

/-- Number of words of an opcode, which is also its cost in comb clocks. -/
def wgWords (op : Nat) : Nat := if op = 4 || op = 5 || op = 10 then 2 else 1

/-- The must-be-zero bits and field ranges of an instruction are kept (R219). -/
def wgFormOk (op w0 w1 : Nat) : Bool :=
  if op = 1 then decide (w0 / 2048 % 32 = 0)
  else if op = 2 then decide (w0 / 2 ^ 26 % 4 = 0) && decide (w0 / 256 % 256 = 0)
  else if op = 3 then decide (w0 / 2 ^ 26 % 4 = 0)
  else if op = 4 then decide (w0 % 65536 = 0) && decide (w1 / 2 ^ 24 = 0)
  else if op = 5 then
    decide (w0 / 2 ^ 26 % 4 = 0) && decide (w0 / 4096 % 16 ≤ 11) && decide (w1 / 2 ^ 25 = 0) && decide (w1 % 2 = 0)
  else if op = 6 then decide (w0 / 2048 % 2 ^ 17 = 0) && decide (w0 % 2048 ≠ 0)
  else if op = 10 then decide (w0 % 2 ^ 28 = 0) && decide (w1 / 2 ^ 25 = 0) && decide (w1 % 4 = 0)
  else decide (w0 % 2 ^ 28 = 0)

/-! ## The engine in a slot -/

/-- A fault (R226): the engine stops for the frame; the slot keeps the record of its first fault. -/
def Slot.wgFault (sl : Slot) (bit cost : Nat) (counted : Bool) : Slot :=
  let word := ((sl.eng.ptr : Int) - sl.eng.base) / 4 % 2097152
  { sl with
    eng := { sl.eng with off := true, wait := none }
    run := { sl.run with held := true, count := sl.run.count + b2n counted }
    cost := sl.cost + cost
    record := if sl.fault = 0 then BitVec.ofNat 32 (sl.run.line + 2048 * word.toNat) else sl.record
    fault := sl.fault ||| BitVec.ofNat 8 (2 ^ bit) }

/-- An instruction executes: it counts, costs its clocks and the pointer moves past it. -/
def Slot.wgCount (sl : Slot) (words : Nat) : Slot :=
  { sl with
    eng := { sl.eng with ptr := sl.eng.ptr + 4 * words }
    run := { sl.run with count := sl.run.count + 1 }
    cost := sl.cost + words }

/-- A write stamped at the present position (R217). -/
def Slot.wgWrite (sl : Slot) (hactive : Nat) (w : LlWrite) : Slot :=
  if sl.run.pos < hactive then { sl with run := { sl.run with writes := sl.run.writes ++ [(sl.run.pos, w)] } }
  else { sl with carry := sl.carry ++ [w] }

/-- A 16-bit register written at the present position. -/
def Slot.wgWrite16 (sl : Slot) (hactive a v : Nat) : Slot :=
  (sl.wgWrite hactive (.reg a (byteOf v 0))).wgWrite hactive (.reg (a + 1) (byteOf v 1))

/-- WAIT (R220). -/
def Slot.wgWaitAt (sl : Slot) (line pixel : Nat) : Slot :=
  if line = sl.run.line then { sl with run := { sl.run with pos := max sl.run.pos pixel } }
  else if line < sl.run.line then sl
  else { sl with eng := { sl.eng with wait := some (line, pixel) }, run := { sl.run with held := true } }

/-- REPL (R222), executed already past its word. -/
def Slot.wgOpenLoop (sl : Slot) (count : Nat) : Slot :=
  { sl with eng := { sl.eng with loop := some (count, sl.eng.ptr) } }

/-- ENDR (R222) of the open loop. -/
def Slot.wgCloseLoop (sl : Slot) (count start : Nat) : Slot :=
  if 2 ≤ count then
    { sl with eng := { sl.eng with loop := some (count - 1, start), ptr := start }, run := { sl.run with held := true } }
  else { sl with eng := { sl.eng with loop := none } }

/-- Execute a well-formed instruction (R219 to R224). -/
def Slot.wgExec (sl : Slot) (x : Cell) (op w0 w1 : Nat) : Slot :=
  let ha := x.beam.geom.hactive
  let a := 0x0400 + w0 / 65536 % 1024
  let k := sl.wgCount (wgWords op)
  if op = 0 then { k with eng := { k.eng with off := true }, run := { k.run with held := true } }
  else if op = 1 then
    k.wgWaitAt (if w0 / 2 ^ 27 % 2 = 1 then sl.run.line + w0 / 65536 % 2048 else w0 / 65536 % 2048) (w0 % 2048)
  else if op = 2 then
    if lineLive8 x.prof a then k.wgWrite ha (.reg a (BitVec.ofNat 8 w0)) else sl.wgFault 2 1 true
  else if op = 3 then
    if a % 2 = 0 && lineLive16 x.prof a then k.wgWrite16 ha a (w0 % 65536) else sl.wgFault 2 1 true
  else if op = 4 then
    if w0 / 65536 % 4096 < palSize x.prof then k.wgWrite ha (.pal (w0 / 65536 % 4096) (BitVec.ofNat 24 w1))
    else sl.wgFault 2 2 true
  else if op = 5 then
    if a % 2 = 0 && lineLive16 x.prof a then
      match x.span (w1 + 2 * ((sl.run.line + w0 % 4096) % 2 ^ (w0 / 4096 % 16))) 2 with
      | none => sl.wgFault 4 2 true
      | some bs => k.wgWrite16 ha a (ofBytes bs)
    else sl.wgFault 2 2 true
  else if op = 6 then
    if sl.eng.loop.isSome then sl.wgFault 3 1 true else k.wgOpenLoop (w0 % 2048)
  else if op = 7 then
    match sl.eng.loop with
    | none => sl.wgFault 3 1 true
    | some (count, start) => k.wgCloseLoop count start
  else if op = 8 then { k with irq := some sl.run.line }
  else if op = 10 then { k with eng := { k.eng with ptr := w1 } }
  else k

/-- The engine takes its next instruction (R217, R225, R226). -/
def Slot.wgStep (sl : Slot) (x : Cell) : Slot :=
  if sl.run.held then sl
  else if wgLmax x.prof ≤ sl.run.count then sl.wgFault 5 0 false
  else
    match x.wgWord sl.eng.ptr with
    | none => sl.wgFault 4 1 true
    | some w0 =>
      let op := w0 / 2 ^ 28
      if 10 < op then sl.wgFault 1 1 true
      else
        match if wgWords op = 2 then x.wgWord (sl.eng.ptr + 4) else some 0 with
        | none => sl.wgFault 4 1 true
        | some w1 => if wgFormOk op w0 w1 then sl.wgExec x op w0 w1 else sl.wgFault 1 (wgWords op) true

/-- The engine takes up active line `m`: at line 0 the frame reset of R216 comes first, then the writes carried from the
line before, then a wait target that the line reaches (R220). -/
def Slot.openLine (sl : Slot) (x : Cell) (m : Nat) : Slot :=
  let base := x.live32 0x0584
  let on := (x.live8 0x0580).getLsbD 0
  let e := if m = 0 then { on := on, base := base, ptr := base, off := !on } else sl.eng
  let (e, pos, held) := match e.wait with
    | none => (e, 0, e.off)
    | some (l, p) => if l = m then ({ e with wait := none }, p, e.off) else (e, 0, true)
  { sl with
    eng := e
    run := { line := m, pos := pos, held := held, count := 0, writes := sl.carry.map fun w => (0, w) }
    carry := [] }

/-- The engine has stopped for its line: the line's writes are kept for composition. -/
def Slot.closeLine (sl : Slot) : Slot :=
  { sl with done := sl.done ++ [(sl.run.line, sl.run.writes)], peak := max sl.peak sl.run.count }

/-- Take up the lines that wait, as far as the engine has stopped for the one before (R228). -/
def Slot.settleOn (x : Cell) : List Nat → Slot → Slot
  | [], sl => { sl with todo := [] }
  | m :: r, sl => if sl.run.held then Slot.settleOn x r (sl.closeLine.openLine x m) else { sl with todo := m :: r }

def Slot.settle (sl : Slot) (x : Cell) : Slot := Slot.settleOn x sl.todo sl

/-- Begin the work of a slot on lines `m :: r` (R228). -/
def Slot.begin (sl : Slot) (x : Cell) : List Nat → Slot
  | [] => sl
  | m :: r => ({ sl with eng := x.vid.eng, carry := x.vid.carry, todo := r }.openLine x m).settle x

/-- Run the engine to its stop on every line of the slot. -/
def Slot.wgRunAll (x : Cell) : Nat → Slot → Slot
  | 0, sl => sl
  | n + 1, sl => if sl.run.held && sl.todo.isEmpty then sl else Slot.wgRunAll x n ((sl.wgStep x).settle x)

/-- Every instruction that the slot's lines may execute. -/
def Slot.wgFuel (sl : Slot) (x : Cell) : Nat := (wgLmax x.prof + 1) * (sl.todo.length + 1)

/-! ## One instruction of the list -/

/-- The engine of cell `c` is at work in a started slot and its next word has opcode `op`: it takes that instruction.
Anything else leaves the device as it is (assumption 3). -/
def wgInstr (op : Nat) (c : CellNo) (s : State) : Res :=
  onCell c s <|
    let x := s.cell c
    match x.vid.slot with
    | none => .next s
    | some sl =>
      if !sl.started || sl.run.held then .next s
      else
        match x.wgWord sl.eng.ptr with
        | none => .next s
        | some w0 =>
          if w0 / 2 ^ 28 = op then .next (s.modVid c fun v => { v with slot := some ((sl.wgStep x).settle x) })
          else .next s

/-- END (R224). -/
def execWgEnd (c : CellNo) (s : State) : Res := wgInstr 0 c s
/-- WAIT (R220). -/
def execWgWait (c : CellNo) (s : State) : Res := wgInstr 1 c s
/-- WR8 (R221). -/
def execWgWr8 (c : CellNo) (s : State) : Res := wgInstr 2 c s
/-- WR16 (R221). -/
def execWgWr16 (c : CellNo) (s : State) : Res := wgInstr 3 c s
/-- PAL (R221). -/
def execWgPal (c : CellNo) (s : State) : Res := wgInstr 4 c s
/-- TBL (R221). -/
def execWgTbl (c : CellNo) (s : State) : Res := wgInstr 5 c s
/-- REPL (R222). -/
def execWgRepl (c : CellNo) (s : State) : Res := wgInstr 6 c s
/-- ENDR (R222). -/
def execWgEndr (c : CellNo) (s : State) : Res := wgInstr 7 c s
/-- IRQ (R223). -/
def execWgIrq (c : CellNo) (s : State) : Res := wgInstr 8 c s
/-- NOP (R224). -/
def execWgNop (c : CellNo) (s : State) : Res := wgInstr 9 c s
/-- JMP (R224). -/
def execWgJmp (c : CellNo) (s : State) : Res := wgInstr 10 c s

end Sys2Proof.Machine
end

