-- ==== Sys2Proof/Machine/Compose.lean ====
section
/-! DEFINITION. Composition of a line (R231 to R239): the merge of stamped writes, the affine plane, the order of layers
and the palette lookup. -/

namespace Sys2Proof.Machine

/-! ## Stamped writes (R227) -/

/-- Insert a stamped write after every write with a stamp no later than its own. -/
def insertStamped (w : Nat × LlWrite) : List (Nat × LlWrite) → List (Nat × LlWrite)
  | [] => [w]
  | v :: r => if v.1 ≤ w.1 then v :: insertStamped w r else w :: v :: r

/-- Writes in the order of their stamps; writes of one stamp keep their order (R227). -/
def sortStamped (l : List (Nat × LlWrite)) : List (Nat × LlWrite) := l.foldl (fun acc w => insertStamped w acc) []

/-- The bits of a palette entry that a profile stores (R233). -/
def palMask (prof : Byte) : BitVec 24 := if prof = 1 then 0xF8F8F8 else if prof = 2 then 0xFCFCFC else 0xFFFFFF

/-- A signed 16-bit register value. -/
def signed16 (v : Nat) : Int := if 32768 ≤ v then (v : Int) - 65536 else v

/-- The reference point from the live registers (R236). -/
def Cell.loadRx (x : Cell) : Cell :=
  { x with vid := { x.vid with rx := signed16 (x.live16 0x060C) * 256 + (x.live8 0x0610).toNat } }
def Cell.loadRy (x : Cell) : Cell :=
  { x with vid := { x.vid with ry := signed16 (x.live16 0x060E) * 256 + (x.live8 0x0611).toNat } }

/-- A write of a line-live register byte or palette entry takes effect. -/
def Cell.applyLl (x : Cell) : LlWrite → Cell
  | .reg a v =>
    let y := x.putLive a (v &&& rwMask x.prof a)
    if a = 0x060C || a = 0x060D || a = 0x0610 then y.loadRx
    else if a = 0x060E || a = 0x060F || a = 0x0611 then y.loadRy
    else y
  | .pal i rgb =>
    { x with vid := { x.vid with pal := Table.write (fun _ => 0) x.vid.pal (i % palSize x.prof) (rgb &&& palMask x.prof) } }

/-- After an active line the reference point moves by PB and PD (R236). -/
def Cell.affineNext (x : Cell) : Cell :=
  { x with vid := { x.vid with
    rx := x.vid.rx + signed16 (x.live16 0x0606), ry := x.vid.ry + signed16 (x.live16 0x060A) } }

/-! ## Affine plane (R235 to R239) -/

/-- The live affine configuration is one that R235 allows. -/
def Cell.afOk (x : Cell) : Bool :=
  let mode := (x.live8 0x0620).toNat % 4
  let size := (x.live8 0x0621).toNat
  decide (mode ≠ 3) && !(mode == 2 && x.prof != 3) && decide (size % 8 ≤ 5) && decide (size / 16 % 8 ≤ 5) &&
  !(mode == 0 && size % 8 == 5)

/-- The affine source at source pixel (`u`, `v`): the opaque pixel with its level, and whether a read was refused. -/
def Cell.afSource (x : Cell) (u v : Nat) : Option (Colour × Nat) × Bool :=
  let mode := (x.live8 0x0620).toNat % 4
  let ws := 128 * 2 ^ ((x.live8 0x0621).toNat % 8)
  let pat := x.live32 0x062C
  let lev := (x.live8 0x0622).toNat
  let base := x.live16 0x0624
  if mode = 0 then
    match x.span (x.live32 0x0628 + 2 * (v / 8 * (ws / 8) + u / 8)) 2 with
    | none => (none, true)
    | some bs =>
      let m := ofBytes bs
      let tu := if m / 1024 % 2 = 1 then 7 - u % 8 else u % 8
      let tv := if m / 2048 % 2 = 1 then 7 - v % 8 else v % 8
      match x.span (pat + 64 * (m % 1024) + tv * 8 + tu) 1 with
      | none => (none, true)
      | some b =>
        let col := indexed x.prof base (m / 8192) 256 (ofBytes b)
        (col.map fun k => (k, if m / 4096 % 2 = 1 then lev / 16 % 8 else lev % 8), false)
  else if mode = 1 then
    match x.span (pat + v * ws + u) 1 with
    | none => (none, true)
    | some b => ((indexed x.prof base 0 256 (ofBytes b)).map fun k => (k, lev % 8), false)
  else
    match x.span (pat + 2 * (v * ws + u)) 2 with
    | none => (none, true)
    | some b => ((directColour (ofBytes b)).map fun k => (k, lev % 8), false)

/-- The affine pixel at unwrapped source coordinates (R236). -/
def Cell.afPixel (x : Cell) (u v : Int) : Option (Colour × Nat) × Bool :=
  let ws : Int := 128 * 2 ^ ((x.live8 0x0621).toNat % 8)
  let hs : Int := 128 * 2 ^ ((x.live8 0x0621).toNat / 16 % 8)
  if (x.live8 0x0620).getLsbD 2 then x.afSource (u % ws).toNat (v % hs).toNat
  else if 0 ≤ u && u < ws && 0 ≤ v && v < hs then x.afSource u.toNat v.toNat
  else (none, false)

/-! ## The line (R231, R232, R237) -/

/-- A line being drawn, left to right. -/
structure Draw where
  x : Cell
  /-- Writes of the line not yet applied, by stamp. -/
  writes : List (Nat × LlWrite)
  sprites : List DrawnSprite := []
  /-- e(x) of R237 and the coordinates it was last counted at. -/
  e : Nat := 0
  u : Int := 0
  v : Int := 0
  /-- COMP_LIVE.AFEN, and SPR_ENABLE, has been 1 at some pixel of the line. -/
  afSeen : Bool := false
  sprSeen : Bool := false
  afRange : Bool := false
  tp : Half := 0
  /-- First collision: the two lowest slots. -/
  coll : Option (Nat × Nat) := none
  /-- Pixels drawn, newest first. -/
  out : Pixels := []

/-- Apply the writes with a stamp of at most `px`. -/
def applyUpTo (px : Nat) : List (Nat × LlWrite) → Cell → Cell × List (Nat × LlWrite)
  | [], x => (x, [])
  | (p, w) :: r, x => if p ≤ px then applyUpTo px r (x.applyLl w) else (x, (p, w) :: r)

/-- Apply every write. -/
def applyAll (l : List (Nat × LlWrite)) (x : Cell) : Cell := l.foldl (fun y w => y.applyLl w.2) x

/-- A component of a palette entry widened to 8 bits (R22). -/
def widen (prof : Byte) (v : Nat) : Nat := if prof = 1 then widen5 (v / 8) else if prof = 2 then widen6 (v / 4) else v

/-- The colour of a palette entry as it leaves the comb (R232). -/
def Cell.palColour (x : Cell) (i : Nat) : BitVec 24 :=
  let n := (Table.read (fun _ => (0 : BitVec 24)) x.vid.pal (i % palSize x.prof)).toNat
  rgbOf (widen x.prof (n / 65536)) (widen x.prof (n / 256 % 256)) (widen x.prof (n % 256))

/-- The better of two candidates; the first stays in front where levels are equal (R231). -/
def frontOf (a b : Option (Colour × Nat)) : Option (Colour × Nat) :=
  match a, b with
  | none, q => q
  | some p, none => some p
  | some p, some q => if p.2 < q.2 then some q else some p

/-- Draw pixel `px` of active line `py`. -/
def Draw.pixel (py : Nat) (d : Draw) (px : Nat) : Draw :=
  let (x, rest) := applyUpTo px d.writes d.x
  let (tile, terr) := x.tilePixel px py
  let sprOn := (x.live8 0x0500).getLsbD 0
  let hits := if sprOn then d.sprites.filterMap fun k => (k.colour x.prof (x.live16 0x0504) px).map fun c => (k, c) else []
  let spr := frontSprite ((x.live8 0x0501).getLsbD 0) hits
  let coll := match d.coll, hits.filter fun h => h.1.s.col with
    | none, a :: b :: _ => some (a.1.s.slot, b.1.s.slot)
    | c, _ => c
  let af := x.prof != 1 && (x.live8 0x0600).getLsbD 0
  let u := (x.vid.rx + signed16 (x.live16 0x0604) * px) / 256
  let v := (x.vid.ry + signed16 (x.live16 0x0608) * px) / 256
  let e := if px = 0 then 1 else d.e + max (u - d.u).natAbs (v - d.v).natAbs
  let (afp, afr) := if af && x.afOk && decide (e ≤ 2048) then x.afPixel u v else (none, false)
  let rgb := match frontOf (frontOf spr tile) afp with
    | some (.index i, _) => x.palColour i
    | some (.direct c, _) => c
    | none => x.palColour (x.live16 0x0602)
  { d with
    x := x, writes := rest, e := e, u := u, v := v, afSeen := d.afSeen || af, sprSeen := d.sprSeen || sprOn
    afRange := d.afRange || afr, tp := d.tp ||| terr, coll := coll, out := rgb :: d.out }

/-- Draw active line `py` of the cell under the writes of the line. -/
def Cell.drawLine (x : Cell) (py : Nat) (writes : List (Nat × LlWrite)) (sl : SpriteLine) : Draw :=
  (List.range x.beam.geom.hactive).foldl (Draw.pixel py) { x := x, writes := writes, sprites := sl.drawn }

end Sys2Proof.Machine
end

