-- ==== Sys2Proof/Machine/Slots.lean ====
section
/-! DEFINITION. Line slots, the slot table and the destinations of a line (R240, R241, R252 to R266, R560), the
line-live write log (R49). -/

namespace Sys2Proof.Machine

/-! ## The line-live write log (R49) -/

/-- The active line after line `n`. -/
def nextActive (g : Geom) (n : Nat) : Nat := if n + 1 < g.vactive then n + 1 else 0

/-- Enter a write in the log, made at pixel-clock position `pix` of the present program line. -/
def Cell.logWrite (x : Cell) (pix : Nat) (w : LlWrite) : Cell :=
  let b := x.beam
  if !b.on || b.waiting then { x with beam := { b with log := b.log ++ [⟨0, 0, w⟩] } }
  else
    let exceeded := decide (32 ≤ b.logCount)
    let here := !exceeded && decide (b.pline < b.pgeom.vactive) && decide (pix < b.pgeom.hactive)
    let e : LogEnt := if here then ⟨b.pline, pix, w⟩ else ⟨nextActive b.pgeom b.pline, 0, w⟩
    let y := { x with beam := { b with log := b.log ++ [e], logCount := b.logCount + 1, llwOvf := b.llwOvf || exceeded } }
    if exceeded && !b.llwOvf then y.edge 4 else y

/-- The log entries that the slot for line `n` leaves: those of the two lines after it. -/
def logLater (g : Geom) (n : Nat) (e : LogEnt) : Bool :=
  e.line == nextActive g n || e.line == nextActive g (nextActive g n)

/-- Stamped log writes of line `m`. -/
def logOf (m : Nat) (log : List LogEnt) : List (Nat × LlWrite) :=
  (log.filter fun e => e.line == m).map fun e => (e.pixel, e.what)

/-! ## The slot table (R263 to R266) -/

/-- COMB of an entry: none where it names no comb. -/
def entryComb (e : Word) : Option (Fin 24) :=
  let k := e.toNat % 32
  if h : k < 24 then some ⟨k, h⟩ else none

/-- RANK and PLAN of an entry. -/
def entryRank (e : Word) : Nat := e.toNat / 256 % 256
def entryPlan (e : Word) : Nat := e.toNat / 65536

/-- The live entry of cell `c`. -/
def State.slotEntry (s : State) (c : CellNo) : Word := s.slots.live.get c

/-- Slot window of a cell in comb clocks (R48): a line time less 40 ns. -/
def State.slotWindow (s : State) (c : CellNo) : Nat :=
  lineLen (s.cell c).beam.geom s.house.frameClks * 800 / (594 * 16777216) - 32

/-- Cells whose entry in `t` names comb `k`. -/
def combCells (t : Vector Word 128) (k : Fin 24) : List CellNo :=
  allCells.filter fun c => entryComb (t.get c) == some k

/-- p_i / w_i of a cell in millionths, rounded up. -/
def State.slotShare (s : State) (t : Vector Word 128) (c : CellNo) : Nat :=
  let w := max 1 (s.slotWindow c)
  (16 * entryPlan (t.get c) * 1000000 + w - 1) / w

/-- u(c) of R265 in millionths. -/
def State.combLoad (s : State) (t : Vector Word 128) (k : Fin 24) : Nat :=
  ((combCells t k).map fun c => s.slotShare t c).sum

/-- The condition of R265 holds on comb `k` under UTIL_CAP. -/
def State.combFits (s : State) (t : Vector Word 128) (k : Fin 24) : Bool :=
  let cs := combCells t k
  let p := cs.foldl (fun m c => max m (16 * entryPlan (t.get c))) 0
  let w := max 1 (cs.foldl (fun m c => min m (s.slotWindow c)) 10000000)
  decide (s.combLoad t k + p * 1000000 / w ≤ s.objOr 0x5000 2 90 * 10000)

/-- The PLAN that R265 gives cell `c`: the largest elapsed time of its last 8 frames plus 12.5%, until 8 frames have
run at least setup and base pass, and never less than half the PLAN before. -/
def State.planOf (s : State) (c : CellNo) : Nat :=
  let x := s.cell c
  let base := (100 + (x.beam.geom.hactive + 3) / 4 + 15) / 16
  let peak := x.vid.peaks.foldl max 0
  let want := (peak * 9 + 127) / 128
  let p := if x.vid.peaks.length < 8 then max base want else want
  min 65535 (max p (if x.vid.peaks.isEmpty then 0 else (entryPlan (s.slotEntry c) + 1) / 2))

/-! ## Destinations (R240, R241) -/

/-- The bytes of a line in a writeback format (R241). -/
def wbBytes (fmt : Bool) (p : Pixels) : List Byte :=
  if fmt then
    (p.map fun c =>
      let n := c.toNat
      toBytes (n / 524288 * 2048 + n / 1024 % 64 * 32 + n / 8 % 32) 2).flatten
  else pixelBytes p

/-- The writeback of a frame ends with its last line: DONE, WB_FRAMES, and a single capture switches itself off. -/
def Cell.wbFinish (x : Cell) : Cell :=
  let mode := (x.live8 0x0640).toNat % 4
  let x := if mode = 1 then x.putLive 0x0640 (x.live8 0x0640 &&& 0xFC) else x
  { x with vid := { x.vid with wbOn := false, wbBad := false } }

/-- DONE of a captured frame (R241). -/
def CellVid.wbDone (v : CellVid) : CellVid := { v with wbStat := v.wbStat ||| 1, wbFrames := satInc v.wbFrames }

/-- A line goes to the writeback area. -/
def Cell.writeback (x : Cell) (line : Nat) (p : Pixels) : Cell :=
  let mode := (x.live8 0x0640).toNat % 4
  let fmt := (x.live8 0x0640).getLsbD 2
  let pitch := x.live16 0x0642
  let len := p.length * (if fmt then 2 else 3)
  let x := if line = 0 then
      let on := mode == 1 || mode == 2
      let bad := on && (decide (pitch < len) || pitch % 4 != 0)
      { x with vid := { x.vid with
        wbOn := on, wbBad := bad, wbStat := if bad then x.vid.wbStat ||| 4 else x.vid.wbStat } }
    else x
  if !x.vid.wbOn then x
  else
    let a := x.live32 0x0644 + line * pitch
    let final := decide (line + 1 = x.beam.geom.vactive)
    let v := x.vid
    let v :=
      if v.wbBad then v
      else if a < 32768 * x.map.ropages || 32768 * x.map.pages < a + len then
        let v := { v with wbStat := v.wbStat ||| 2 }
        if final then v.wbDone else v
      else if 2 ≤ v.wbQueue.length then
        let v := { v with wbStat := v.wbStat ||| 8 }
        if final then v.wbDone else v
      else { v with wbQueue := v.wbQueue ++ [{ addr := a, bytes := wbBytes fmt p, last := final }] }
    let x := { x with vid := v }
    if final then x.wbFinish else x

/-- Line `line` of cell `c` goes to its destinations (R240, R260): slice queue, head rings, writeback. -/
def State.deliver (s : State) (c : CellNo) (line : Nat) (p : Pixels) (rep black : Bool) : State :=
  let x := s.cell c
  let out := if line = 0 then decide (s.objOr (0x4002 + 16 * c.val) 1 1 ≠ 0) else x.vid.outSlice
  let x := x.writeback line p
  let v := { x.vid with
    outSlice := out, last := some (x.beam.geom.hactive, p)
    ring := if x.vid.heads = 0 then [] else ((line, p) :: x.vid.ring).take 64 }
  let frame := if line = 0 && x.beam.started && decide (x.beam.line ≠ 0) then x.beam.frame + 1 else x.beam.frame
  let s := s.setCell c { x with vid := v }
  match x.kp.guest with
  | some home =>
    s.sendParts home 4 (jtag c.val home line)
      (((sliceHeader c.val home rep black line x.beam.geom.vactive frame.toNat p.length s.devTime).map fun w =>
        toBytes w.toNat 8).flatten ++ pixelBytes p)
  | none =>
    if out then
      s.sliceEnqueue c (sliceHeader c.val s.devId rep black line x.beam.geom.vactive frame.toNat p.length s.devTime ++
        packWords (pixelBytes p))
    else s

/-! ## Release and start (R256 to R258) -/

/-- The line whose slot is due: the cell beam's next line, line 0 before its first frame. -/
def Cell.dueLine (x : Cell) : Nat :=
  if x.beam.started then (if x.beam.line + 1 < x.beam.geom.vtotal then x.beam.line + 1 else 0) else 0

/-- A slot's deadline has passed: the cell beam has reached its line. -/
def Cell.slotPast (x : Cell) (sl : Slot) : Bool := x.dueLine != sl.line || (!x.beam.started && decide (3 ≤ x.beam.pline))

/-- A frame's collection opens (R560). -/
def CellVid.openColl (v : CellVid) : CellVid :=
  if v.prev.isSome then v else { v with prev := some v.coll, coll := {} }

/-- The slot for the next line is released (R256). -/
def State.releaseSlot (s : State) (c : CellNo) (deadline : Nat) : State :=
  let x := s.cell c
  let n := x.dueLine
  match entryComb (s.slotEntry c) with
  | none => s
  | some k =>
    if !x.beam.on || x.beam.waiting || !x.ctl.st.started || x.vid.slot.isSome || x.beam.geom.vactive ≤ n ||
        (!x.beam.started && x.beam.pline < 1) then s
    else
      s.modVid c fun v =>
        let v := if n = 0 then { v.openColl with prefill := none } else v
        { v with slot := some { comb := k, line := n, deadline := deadline } }

/-- Slot `a` of cell `ca` comes before slot `b` of cell `cb` (R257). -/
def State.slotBefore (s : State) (ca : CellNo) (a : Slot) (cb : CellNo) (b : Slot) : Bool :=
  let ra := entryRank (s.slotEntry ca)
  let rb := entryRank (s.slotEntry cb)
  decide (a.deadline < b.deadline) ||
  (a.deadline == b.deadline && (decide (ra < rb) || (ra == rb && decide (ca.val < cb.val))))

/-- The released slot that comb `k` starts next. -/
def State.nextSlot (s : State) (k : Fin 24) : Option (CellNo × Slot) :=
  allCells.foldl
    (fun best c =>
      match (s.cell c).vid.slot with
      | none => best
      | some sl =>
        if sl.comb = k && !sl.started then
          match best with
          | none => some (c, sl)
          | some (cb, b) => if s.slotBefore c sl cb b then some (c, sl) else best
        else best) none

/-! ## Completion (R210, R223, R226, R259) -/

/-- A missed line is taken up: its writes act before those of the next line (R228). -/
def Cell.catchUp (log : List LogEnt) (x : Cell) (l : Nat × List (Nat × LlWrite)) : Cell :=
  let x := if l.1 = 0 then x.loadRx.loadRy else x
  (applyAll (sortStamped (l.2 ++ logOf l.1 log)) x).affineNext

/-- Status of the waggle list at slot completion (R223, R226). -/
def Cell.wgFlags (x : Cell) (sl : Slot) : Cell :=
  let v := x.vid
  let rec_ := decide (sl.fault ≠ 0) && decide (v.wgStat &&& 0x3E = 0)
  let y := { x with vid := { v with
    eng := sl.eng, carry := sl.carry
    wgFlt := if rec_ then sl.record else v.wgFlt
    wgIrqLine := sl.irq.getD v.wgIrqLine
    wgStat := v.wgStat ||| sl.fault ||| flagIf sl.irq.isSome 1 } }
  if sl.irq.isSome then y.edge 6 else y

/-- Status of composition (R235, R237, R239). -/
def Cell.compFlags (x : Cell) (d : Draw) : Cell :=
  let v := x.vid
  let short := d.afSeen && x.afOk && decide (2048 < d.e)
  let st := v.compStat ||| flagIf short 1 ||| flagIf d.afRange 2 ||| flagIf (d.afSeen && !x.afOk) 4
  let y := { x with vid := { v with compStat := st, lbufLines := if short then satInc v.lbufLines else v.lbufLines } }
  if short && !v.compStat.getLsbD 0 then y.edge 4 else y

/-- Comb clocks of the slot of a line (R252). -/
def slotCost (x : Cell) (sl : Slot) (spr : SpriteLine) (d : Draw) : Nat :=
  let ha := x.beam.geom.hactive
  100 + (ha + 3) / 4 + sl.cost + (if d.sprSeen then (x.spriteCount + 15) / 16 + spr.clocks else 0) +
  (if d.afSeen then (min d.e 2048 + 3) / 4 + (ha + 3) / 4 else 0)

/-- Comb `k` completes the line slot of cell `c` (R259). -/
def State.completeSlot (s : State) (k : Fin 24) (c : CellNo) (sl : Slot) : State :=
  let x := s.cell c
  let sl := (Slot.wgRunAll x (sl.wgFuel x) sl).closeLine
  let log := x.beam.log
  let now := log.filter fun e => !logLater x.beam.geom sl.line e
  let stale := now.filter fun e => !(sl.done.any fun l => l.1 == e.line)
  let x := { x with beam := { x.beam with log := log.filter (logLater x.beam.geom sl.line) } }
  let x := applyAll (stale.map fun e => (0, e.what)) x
  let x := sl.done.dropLast.foldl (Cell.catchUp now) x
  let x := if sl.line = 0 then x.loadRx.loadRy else x
  let writes := sortStamped ((sl.done.getLast?.map (·.2)).getD [] ++ logOf sl.line now)
  let spr := x.spriteLine sl.line
  let d := x.drawLine sl.line writes spr
  let y := (applyAll d.writes d.x)
  let y := (y.compFlags d).wgFlags sl
  let y := y.spriteFlags sl.line spr.dropped d.coll (d.sprSeen && spr.range)
  let cost := slotCost y sl spr d + sl.waits
  let co := y.vid.coll
  let y := { y with vid := { y.vid with
    slot := none, missed := []
    coll := { tp := co.tp ||| d.tp ||| y.planeCfgErr, spr := max co.spr spr.candidates
              wg := max co.wg sl.peak, ls := max co.ls (min cost 65535) } } }
  let y := y.affineNext
  let short := d.afSeen && y.afOk && decide (2048 < d.e)
  let notice := short && !y.vid.lbufNoticed
  let s := s.setCell c { y with vid := { y.vid with lbufNoticed := y.vid.lbufNoticed || short } }
  let s := if notice then s.raise 9 c.val true 0 else s
  let s := s.modComb k fun b => { b with
    work := none, slots := b.slots + 1, busy := b.busy + cost
    late := b.late || decide (16 * entryPlan (s.slotEntry c) < cost)
    near := b.near || decide (12 * entryPlan (s.slotEntry c) < cost) }
  s.deliver c sl.line d.out.reverse false false

/-! ## Misses (R260, R261) -/

/-- The slot of cell `c` misses: the line is repeated or black, and the miss is reported. -/
def State.missSlot (s : State) (c : CellNo) (sl : Slot) : State :=
  let x := s.cell c
  let v := x.vid
  let ha := x.beam.geom.hactive
  let rep := match v.last with
    | some (h, p) => if h = ha then some p else none
    | none => none
  let black := rep.isNone
  let first := !v.lsStat.getLsbD 0
  let notice := !v.missNoticed
  let y := { x with vid := { v with
    slot := none, missed := v.missed ++ [sl.line], lsStat := v.lsStat ||| 1 ||| flagIf black 2
    missCnt := satInc16 v.missCnt, missLine := sl.line, missLines := satInc v.missLines, missNoticed := true } }
  let s := s.setCell c (if first then y.edge 4 else y)
  let s := s.modComb sl.comb fun b => { b with
    misses := satInc b.misses, late := true, near := true
    work := if b.work = some c then none else b.work, busy := b.busy + (if sl.started then sl.cost + sl.waits else 0) }
  let s := if notice then s.raise 0xC c.val true sl.comb.val else s
  s.deliver c sl.line (rep.getD (List.replicate ha 0)) true black

end Sys2Proof.Machine
end

