-- ==== Sys2Proof/Machine/KeeperOps.lean ====
section
/-! DEFINITION. The placement table, power-domain and unit states, page moves, fences, scouts and caps (R351 to R371). -/

namespace Sys2Proof.Machine

def State.modKeeper (s : State) (f : Keeper → Keeper) : State := { s with keeper := f s.keeper }
def State.modPwr (s : State) (f : Pwr → Pwr) : State := { s with pwr := f s.pwr }
def State.modKp (s : State) (c : CellNo) (f : CellKp → CellKp) : State := s.modCell c fun x => { x with kp := f x.kp }

/-! ## Power domains and unit states -/

/-- Domain `d` is ON (R489). -/
def State.domOn (s : State) (d : Nat) : Bool := (s.pwr.doms[d]?.getD {}).st == 2

/-- The dictionary is served (R483). -/
def State.dictServed (s : State) : Bool :=
  match s.pwr.mode with
  | .train => true | .ready => true | .serve => true | .limited => true | .drain => true | .diag => true
  | .off => false | .hold => false | .sense => false | .load => false | .retain => false | .faultHold => false

/-- Unit kinds of R415. -/
def kCluster : Nat := 0
def kComb : Nat := 1
def kChannel : Nat := 2
def kLink : Nat := 3
def kHost : Nat := 4
def kWaxHi : Nat := 5

/-- Scout of a unit. -/
def State.scout (s : State) (kind u : Nat) : Scout := Table.read (fun _ => {}) s.keeper.scouts (kind * 32 + u)

/-- The fence bit of a unit (R365). -/
def State.fenced (s : State) (kind u : Nat) : Bool :=
  if kind = 5 then s.objOr 0x3001 5 0 != 0 else if kind = 4 then false else (s.objOr 0x3001 (kind + 1) 0).testBit u

/-- Power domain of a unit (R490). -/
def unitDomain (kind u : Nat) : Nat :=
  if kind = 0 then 1 + u else if kind = 1 then 17 + u else if kind = 2 then 41 + u else if kind = 3 then 54 + u
  else if kind = 4 then 49 else 62

/-- A control store is closed (R138). -/
def State.closedStore (s : State) (kind u : Nat) : Bool :=
  let f (n : StoreUnit) : Bool := match n with
    | .cluster k => kind == 0 && k.val == u
    | .comb k => kind == 1 && k.val == u
  s.stores.closed.any f

/-- Unit state code: 0 ON, 1 FENCED, 2 SLOW, 3 CLOSED, 4 OFF (R266, R370). -/
def State.unitState (s : State) (kind u : Nat) : Byte :=
  if !s.domOn (unitDomain kind u) then 4 else if s.closedStore kind u then 3 else if s.fenced kind u then 1
  else if (s.scout kind u).slow then 2 else 0

/-! ## Placement table entries (R354) -/

def pteState (e : Long) : Nat := e.toNat % 4
def pteLoc (e : Long) : Nat := e.toNat / 4 % 4
def pteFrame (e : Long) : BitVec 17 := (e >>> 4).setWidth 17
def pteChan (e : Long) : Nat := e.toNat / 16 % 8
def pteOslot (e : Long) : Nat := e.toNat / 2097152 % 2048
def pteHeat (e : Long) : Nat := e.toNat / 2 ^ 32 % 4096
def pteShare (e : Long) : Nat := e.toNat / 2 ^ 44 % 256
def pteCell (e : Long) : Nat := e.toNat / 2 ^ 52 % 128
def pteCat (e : Long) : Bool := e.getLsbD 59

/-- LOC and OSLOT of a place. -/
def placeLoc : Place → Nat × Nat
  | .wax n => (1, n.val)
  | .sram k n => (2, n.val + 32 * k.val)
  | .rld _ => (0, 0)

/-- An entry with the given fields. -/
def mkPte (st : Nat) (at_ : Place) (frame : BitVec 17) (heat share cell : Nat) (cat : Bool) : Long :=
  BitVec.ofNat 64 (st + 4 * (placeLoc at_).1 + 16 * frame.toNat + 2097152 * (placeLoc at_).2 + 2 ^ 32 * heat + 2 ^ 44 * share +
    2 ^ 52 * cell + 2 ^ 59 * b2n cat)

/-- Entry `i`: entries that describe no memory are absent (R30, R514). -/
def State.pte (s : State) (i : Nat) : Long :=
  if s.memu.frames ≤ i then 3 else Table.read (fun _ => 0) s.keeper.pt i

def State.setPte (s : State) (i : Nat) (e : Long) : State :=
  s.modKeeper fun k => { k with pt := Table.write (fun _ => 0) k.pt i e }

/-- Entries in use. -/
def State.ptUsed (s : State) : Nat := (s.keeper.pt.filter fun e => pteState e.2 != 0).length

/-- First entry of the suspension area (R486). -/
def State.areaBase (s : State) : Nat := s.memu.frames - 128

/-- Pages of the keeper in use: the suspension area aside. -/
def State.keptPages (s : State) : List (Nat × Long) :=
  s.keeper.pt.filter fun e => decide (e.1 < s.areaBase) && pteState e.2 != 0

/-- Data pages present (R30, R486). -/
def State.dataPages (s : State) : Nat := s.memu.frames - 128

/-- A frame lies on a channel whose frames are in use, and no entry reserves it (R355, R514). -/
def State.frameFree (s : State) (f : BitVec 17) : Bool :=
  ((s.memu.chans[f.toNat % 8]?.getD {}).counted) &&
  (s.memu.density == 2 || decide (f.toNat / 512 < 128)) &&
  !s.keeper.pt.any (fun e => pteState e.2 != 0 && pteFrame e.2 == f)

/-- Slots of the wax store that rings hold (R523). -/
def State.ringSlots (s : State) : Nat :=
  (s.heads.toList.map fun h => (h.wins.toList.map (·.slots)).sum).sum

/-- No page's data lies in a slot, and none is on its way there. -/
def State.slotFree (s : State) (p : Place) : Bool :=
  !s.keeper.pt.any (fun e => pteState e.2 != 0 && pteLoc e.2 == (placeLoc p).1 && pteOslot e.2 == (placeLoc p).2) &&
  !s.keeper.moves.any (fun m => m.place == p)

/-- TENANT of a cell (R179). -/
def State.tenantOf (s : State) (c : CellNo) : Nat := s.objOr (0x4001 + 16 * c.val) 9 0

/-- Pages of a tenant at a location: the caps of R367. -/
def State.tenantPages (s : State) (t loc : Nat) : Nat :=
  (allCells.filter fun c => (s.cell c).ctl.st != .empty && s.tenantOf c == t).foldl
    (fun n c => n + ((s.cell c).kp.pmap.filter fun i => pteLoc (s.pte i) == loc).length) 0

/-- Enabled cap records of a tenant (R367). -/
def State.capRecords (s : State) (t : Nat) : List Nat :=
  (List.range 32).filter fun r => s.objOr (0x3400 + r) 2 0 != 0 && s.objOr (0x3400 + r) 1 0 == t

/-- `n` more pages of tenant `t` at location `loc` stay within its caps (R367). -/
def State.capOk (s : State) (t loc n : Nat) : Bool :=
  (s.capRecords t).all fun r =>
    if loc = 1 then decide (s.tenantPages t 1 + n ≤ s.objOr (0x3400 + r) 3 1536)
    else if loc = 2 then decide (s.tenantPages t 2 + n ≤ s.objOr (0x3400 + r) 4 512)
    else true

/-- A page of cell `c` may be placed at `p` (R352, R357, R365, R490). -/
def State.placeAllowed (s : State) (c : Nat) (p : Place) : Bool :=
  match p with
  | .rld f => s.unitState kChannel (f.toNat % 8) == 0
  | .wax n => s.slotFree p && (decide (n.val < 768) || (!s.fenced kWaxHi 0 && s.domOn 62))
  | .sram k _ =>
    s.slotFree p && s.unitState kCluster k.val == 0 &&
    (match (s.cells[c]?.getD {}).kp.core with | some j => j.val / 8 == k.val | none => false)

/-- The keeper's placement of `n` pages that enter the space of a cell of tenant `t` is one that the rules allow (R351,
R355, R367). -/
def State.allocOk (s : State) (t : Nat) (n : Nat) (l : List PageAlloc) : Bool :=
  l.length == n &&
  (l.map fun a => a.page.val).Nodup && (l.map fun a => a.frame.toNat).Nodup &&
  l.all fun a =>
    decide (a.page.val < s.areaBase) && pteState (s.pte a.page.val) == 0 && s.frameFree a.frame &&
    s.unitState kChannel (a.frame.toNat % 8) == 0 &&
    (match a.place with
      | .rld f => f == a.frame
      | .wax m => s.placeAllowed 0 (.wax m) && (l.filter fun b => b.place == a.place).length == 1
      | .sram _ _ => false) &&
    s.capOk t 1 (l.filter fun b => (placeLoc b.place).1 == 1).length

/-- The pages of a load enter the placement table (R354). -/
def State.allocPages (s : State) (c : CellNo) (ro : Nat) (l : List PageAlloc) : State :=
  let s := (List.range l.length).foldl
    (fun s i => match l[i]? with
      | some a => s.setPte a.page.val (mkPte 1 a.place a.frame 0 1 c.val (decide (i < ro)))
      | none => s) s
  s.modKp c fun k => { k with pmap := l.map fun a => a.page.val }

/-- Cells whose page maps name entry `i`. -/
def State.sharers (s : State) (i : Nat) : List CellNo := allCells.filter fun c => (s.cell c).kp.pmap.contains i

/-- Cell `c` releases its pages: an entry that no other cell names becomes free (R174, R176). -/
def State.releasePages (s : State) (c : CellNo) : State :=
  let l := (s.cell c).kp.pmap
  let s := s.modKp c fun k => { k with pmap := [] }
  l.foldl
    (fun s i =>
      match s.sharers i with
      | [] => (s.setPte i 0).modKeeper fun k => { k with moves := k.moves.filter fun m => m.page != i }
      | d :: r =>
        let e := s.pte i
        let low := r.foldl (fun m c => min m c.val) d.val
        let e := BitVec.ofNat 64 (e.toNat - pteShare e * 2 ^ 44 - pteCell e * 2 ^ 52 + (r.length + 1) * 2 ^ 44 + low * 2 ^ 52)
        s.setPte i e) s

/-! ## Moves of pages (R353, R358, R359) -/

/-- Unit code of a location: cluster SRAMs, wax halves, channels. -/
def unitOf (loc oslot chan : Nat) : Nat :=
  if loc = 1 then (if oslot < 768 then 300 else 301) else if loc = 2 then 200 + oslot / 32 else 100 + chan

/-- The object left the unit within the last 256 house frames (R353). -/
def State.leftLately (s : State) (obj unit : Nat) : Bool :=
  s.keeper.left.any fun r => r.object == obj && r.unit == unit && decide (s.keeper.frames < r.frame + 256)

/-- The page moved within the last 32 house frames (R353). -/
def State.movedLately (s : State) (page : Nat) : Bool :=
  s.keeper.left.any fun r => r.object == page && decide (s.keeper.frames < r.frame + 32)

/-- A move of `page` to `to` may start. -/
def State.moveOk (s : State) (page : Nat) (dest : Place) (forced : Bool) : Bool :=
  let e := s.pte page
  let chan := match dest with | .rld f => f.toNat % 8 | .wax _ => pteChan e | .sram _ _ => pteChan e
  let frameOk := match dest with
    | .rld f => f == pteFrame e || s.frameFree f
    | .wax _ => true
    | .sram _ _ => true
  pteState e == 1 && decide (page < s.areaBase) && s.placeAllowed (pteCell e) dest && frameOk &&
  decide (s.keeper.started < s.objOr 0x3000 2 256) &&
  (s.sharers page).all (fun c => (s.cell c).ctl.st != .migrating &&
    ((placeLoc dest).1 == pteLoc e || s.capOk (s.tenantOf c) (placeLoc dest).1 1)) &&
  (forced || (!s.movedLately page && !s.leftLately page (unitOf (placeLoc dest).1 (placeLoc dest).2 chan)))

/-- A page move starts (R173): the entry is marked moving. -/
def State.startMove (s : State) (page : Nat) (dest : Place) (forced : Bool) : State :=
  let e := s.pte page
  (s.setPte page (e + 1)).modKeeper fun k =>
    { k with moves := k.moves ++ [{ page := page, place := dest, forced := forced }], started := k.started + 1 }

/-- The redirect of a page move and the release of its old location (R173). -/
def State.endMove (s : State) (m : PageMove) : State :=
  let e := s.pte m.page
  let frame := match m.place with | .rld f => f | .wax _ => pteFrame e | .sram _ _ => pteFrame e
  let s := (s.sharers m.page).foldl (fun s c => s.modKp c fun k => { k with pageMoves := satInc k.pageMoves }) s
  (s.setPte m.page (mkPte 1 m.place frame (pteHeat e) (pteShare e) (pteCell e) (pteCat e))).modKeeper fun k =>
    { k with
      moves := k.moves.filter fun n => n.page != m.page, pageMoves := k.pageMoves + 1
      left := { object := m.page, unit := unitOf (pteLoc e) (pteOslot e) (pteChan e), frame := k.frames } :: k.left }

/-! ## Cores (R18, R353, R360) -/

/-- Cells whose core is `k`. -/
def State.onCoreCells (s : State) (k : Fin 128) : List CellNo :=
  allCells.filter fun c => (s.cell c).kp.core == some k

/-- Pace budget of a cell in MIPS (R18, R102). -/
def State.budget (s : State) (c : CellNo) : Nat :=
  let p := (s.cell c).prof
  if p = 1 then 4 else if p = 2 then 16 else s.objOr (0x4000 + 16 * c.val) 4 100

/-- Core `k` may be given to cell `c` (R18, R352). -/
def State.coreOk (s : State) (c : CellNo) (k : Fin 128) : Bool :=
  let others := (s.onCoreCells k).filter (· != c)
  s.unitState kCluster (k.val / 8) == 0 && decide (others.length ≤ 1) &&
  (others.isEmpty || decide (s.budget c + (others.map s.budget).sum ≤ 90)) &&
  (others.isEmpty || (List.range 16).any fun j => s.unitState kCluster j != 0 || (s.pwr.throttle[j / 2]?.getD 100) != 100)

/-- Cell `c` takes core `k`; the core serves it at once. -/
def State.giveCore (s : State) (c : CellNo) (k : Fin 128) : State :=
  let s := (s.onCoreCells k).foldl (fun s d => s.modKp d fun q => { q with onCore := false }) s
  s.modKp c fun q => { q with core := some k, onCore := true, coreSince := some s.keeper.frames }

/-! ## Fences (R365) -/

/-- A fenced unit is empty. -/
def State.unitEmpty (s : State) (kind u : Nat) : Bool :=
  if kind = 0 then
    !(allCells.any fun c => match (s.cell c).kp.core with | some k => k.val / 8 == u | none => false) &&
    !(s.keptPages.any fun e => pteLoc e.2 == 2 && pteOslot e.2 / 32 == u)
  else if kind = 1 then
    !(allCells.any fun c => (s.slots.live.get c).toNat % 32 == u)
  else if kind = 2 then !(s.keptPages.any fun e => pteChan e.2 == u)
  else if kind = 3 then (s.swarm.links[u]?.getD {}).replay.isEmpty
  else !(s.keptPages.any fun e => pteLoc e.2 == 1 && decide (768 ≤ pteOslot e.2))

/-- Bit of a unit in FENCE_DONE. -/
def fenceBit (kind u : Nat) : Nat :=
  if kind = 0 then u else if kind = 1 then 16 + u else if kind = 2 then 40 + u else if kind = 3 then 48 + u else 55

/-- The units that a fence can name. -/
def fenceUnits : List (Nat × Nat) :=
  (List.range 16).map (fun u => (0, u)) ++ (List.range 24).map (fun u => (1, u)) ++
  (List.range 8).map (fun u => (2, u)) ++ (List.range 7).map (fun u => (3, u)) ++ [(5, 0)]

/-- FENCE_DONE follows the fences: a fenced unit that is empty is noticed once (R365). -/
def State.fenceUnit (s : State) (q : Nat × Nat) : State :=
  let b := fenceBit q.1 q.2
  let was := s.keeper.fenceDone.getLsbD b
  let now := s.fenced q.1 q.2 && (was || s.unitEmpty q.1 q.2)
  let s := s.modKeeper fun k => { k with fenceDone := putBit k.fenceDone b now }
  if now && !was then s.raiseEvent 0x10 q.2 false q.1 else s

def State.fenceCheck (s : State) : State := fenceUnits.foldl State.fenceUnit s

/-- A cell that runs here and is neither EMPTY nor LOADED. -/
def State.active (s : State) (c : CellNo) : Bool := (s.cell c).ctl.st.started && (s.cell c).kp.away.isNone

/-- The fence objects as they would be with value `v` written to subindex `sub` leave no rule of R365 broken. -/
def State.fenceOk (s : State) (sub v : Nat) : Bool :=
  let f (k : Nat) : Nat := if sub = k then v else s.objOr 0x3001 k 0
  if sub = 2 then
    (List.range (Config.combCount s.part)).any fun c => !(f 2).testBit c && s.domOn (17 + c) && !s.closedStore 1 c &&
      !(s.scout 1 c).slow
  else if sub = 1 then
    let cores := 8 * ((List.range 16).filter fun k => !(f 1).testBit k && s.domOn (1 + k) && !s.closedStore 0 k).length
    let cells := allCells.filter s.active
    let heavy := (cells.filter fun c => decide (45 < s.budget c)).length
    decide (heavy + (cells.length - heavy + 1) / 2 ≤ cores)
  else if sub = 3 then
    let per := if s.memu.density = 2 then 16384 else 8192
    let chans := (List.range 8).filter fun c => !(f 3).testBit c && (s.memu.chans[c]?.getD {}).counted
    decide (s.keptPages.length ≤ per * chans.length)
  else if sub = 4 then
    allLinks.all fun l =>
      let k := s.swarmLink l
      !(f 4).testBit l.val || k.state != lkUp ||
      !(allCells.any fun c => (s.cell c).kp.away == some (k.peer.setWidth 3) || (s.cell c).kp.guest == some (k.peer.setWidth 3)) ||
      allLinks.any fun m =>
        m != l && (s.swarmLink m).state == lkUp && !(f 4).testBit m.val &&
        ((s.swarmLink m).peer == k.peer ||
          (match (s.swarmLink m).hello with | some h => h.reaches.getLsbD k.peer.toNat | none => false))
  else true

/-! ## Scouts (R363, R364) and caps (R367) -/

/-- A measure is beyond its threshold, and within 3/4 of it (R363, assumption 31). -/
def State.scoutJudge (s : State) (kind value : Nat) : Bool × Bool :=
  if kind = 0 then
    let t := s.objOr 0x3002 2 95
    (decide (value < t), decide (4 * (100 - value) ≤ 3 * (100 - t)))
  else if kind = 2 then
    let t := s.objOr 0x3002 1 400
    (decide (t < value), decide (4 * value ≤ 3 * t))
  else if kind = 3 then
    let t := s.objOr 0x3002 3 90
    (decide (value < t), decide (4 * (100 - value) ≤ 3 * (100 - t)))
  else
    let t := s.objOr 0x3002 4 20
    (decide (t < value), decide (4 * value ≤ 3 * t))

/-- The scout of a unit takes in one house frame. -/
def State.scoutStep (s : State) (kind u : Nat) (exceeded good : Bool) : State :=
  let k := s.scout kind u
  let n : Scout := { exceeded := if exceeded then k.exceeded + 1 else 0, good := if good then k.good + 1 else 0, slow := k.slow }
  let n := if !n.slow && decide (2 ≤ n.exceeded) then { n with slow := true }
    else if n.slow && decide (16 ≤ n.good) then { n with slow := false } else n
  let s := s.modKeeper fun q => { q with scouts := Table.write (fun _ => {}) q.scouts (kind * 32 + u) n }
  if n.slow = k.slow then s
  else s.raiseEvent 0x0F u false (kind + 65536 * (if n.slow then 2 else (s.unitState kind u).toNat))

/-- The measures of a house frame are kept in their objects. -/
def State.scoutRead (s : State) (r : ScoutRead) : State :=
  let s :=
    if r.kind = 0 then s.modKeeper fun k => { k with clRate := k.clRate.setIfInBounds r.unit (BitVec.ofNat 8 r.value) }
    else if r.kind = 2 then s.modKeeper fun k => { k with chLat := k.chLat.setIfInBounds r.unit (BitVec.ofNat 16 r.value) }
    else if r.kind = 3 then s.modSwarm fun w =>
      { w with links := w.links.setIfInBounds r.unit { (w.links[r.unit]?.getD {}) with payload := BitVec.ofNat 8 r.value } }
    else s.modKeeper fun k => { k with hostWait := BitVec.ofNat 16 r.value }
  let j := s.scoutJudge r.kind r.value
  s.scoutStep r.kind r.unit j.1 j.2

/-- The combs' own scouts judge the elapsed times of their slots. -/
def State.combScouts (s : State) : State :=
  (List.finRange 24).foldl
    (fun s k =>
      let b := s.combs.get k
      (s.scoutStep kComb k.val b.late (!b.near)).modComb k fun b => { b with late := false, near := false }) s

/-- SOLO of cap record `r` is not met: a cell of the tenant shares a comb or a core with another tenant's (R367). -/
def State.soloUnmet (s : State) (r : Nat) : Bool :=
  let ten (c : CellNo) : Nat := s.tenantOf c
  let t := s.objOr (0x3400 + r) 1 0
  s.objOr (0x3400 + r) 2 0 != 0 && s.objOr (0x3400 + r) 6 0 != 0 &&
  (allCells.filter fun c => s.active c && ten c == t).any fun c =>
    (allCells.filter fun d => s.active d && ten d != t).any fun d =>
      ((s.cell c).kp.core.isSome && (s.cell c).kp.core == (s.cell d).kp.core) ||
      ((entryComb (s.slots.live.get c)).isSome && entryComb (s.slots.live.get c) == entryComb (s.slots.live.get d))

/-- Unmet SOLO records are counted and noticed once per house frame (R367). -/
def State.soloCheck (s : State) : State :=
  (List.range 32).foldl
    (fun s r =>
      if s.soloUnmet r then
        (s.modKeeper fun k => { k with unmet := k.unmet.setIfInBounds r (satInc (k.unmet[r]?.getD 0)) }).raise 0x11 0 false r
      else s) s

/-- The keeper's frame work: periods, move counts, departures older than 256 frames (R351, R353, R358). -/
def State.keeperFrame (s : State) : State :=
  let cap := max 1 (s.objOr 0x3000 2 256)
  s.modKeeper fun k => { k with
    frames := k.frames + 1, moveUse := BitVec.ofNat 8 (k.started * 100 / cap), started := 0
    halved := if (k.frames + 1) % 4 = 0 then false else k.halved
    left := k.left.filter fun r => decide (k.frames + 1 < r.frame + 256) }

end Sys2Proof.Machine
end

