-- ==== Sys2Proof/Machine/HeadOps.lean ====
section
/-! DEFINITION. Heads, their windows and overlay layers (R242 to R249, R421, R423 to R431, R523). -/

namespace Sys2Proof.Machine

def State.modHead (s : State) (h : Fin 4) (f : Head → Head) : State := { s with heads := s.heads.set h (f (s.heads.get h)) }

/-- Object `sub` of head `h` (R430). -/
def State.hd (s : State) (h sub d : Nat) : Nat := s.objOr (0xB000 + h) sub d

/-! ## Geometry and pixel clock (R425, R426) -/

/-- The geometry of a head: NUM, DEN, HTOTAL, HACTIVE, VTOTAL, VACTIVE. -/
def State.headGeom (s : State) (h : Nat) : Geom :=
  { num := s.hd h 2 0x11 % 16, den := s.hd h 2 0x11 / 16, htotal := s.hd h 3 2200, hactive := s.hd h 4 1920
    vtotal := s.hd h 5 1125, vactive := s.hd h 6 1080 }

/-- D of R425 with 36 fraction bits, truncated. -/
def headD (g : Geom) (clks : Nat) : Nat := 2 * clks * g.den * 2 ^ 36 / max 1 (g.num * g.htotal * g.vtotal)

/-- The limits of R426. -/
def headGeomOk (g : Geom) (clks rate : Nat) : Bool :=
  decide (640 ≤ g.hactive ∧ g.hactive ≤ 4096 ∧ g.hactive % 4 = 0) &&
  decide (480 ≤ g.vactive ∧ g.vactive ≤ 2160) &&
  decide (g.hactive + 80 ≤ g.htotal ∧ g.htotal ≤ 8192) &&
  decide (g.vactive + 8 ≤ g.vtotal ∧ g.vtotal ≤ 4096) &&
  decide (1 ≤ g.num ∧ g.num ≤ 8 ∧ 1 ≤ g.den ∧ g.den ≤ 8) &&
  decide (24000 * g.den ≤ rate * g.num ∧ rate * g.num ≤ 240000 * g.den) &&
  decide (2 ^ 36 ≤ headD g clks ∧ 25 * headD g clks ≤ 1188 * 2 ^ 36)

/-- HD_PCLK in kHz. -/
def State.headPclk (s : State) (h : Nat) : Nat := 1188000 * 2 ^ 36 / max 1 (headD (s.headGeom h) s.house.frameClks)

/-! ## Link training (R424) -/

/-- Payload of a lane at a rate code, in kbit/s × 33: 8b/10b for codes 1 to 4, 128b/132b for 5 and 6. -/
def lanePayload (rate : Nat) : Nat :=
  if rate = 1 then 1620000 * 33 * 4 / 5 else if rate = 2 then 2700000 * 33 * 4 / 5 else if rate = 3 then 5400000 * 33 * 4 / 5
  else if rate = 4 then 8100000 * 33 * 4 / 5 else if rate = 5 then 10000000 * 32 else 20000000 * 32

/-- A combination carries the mode: at least 1.02 × pixel clock × 24 bits. -/
def State.carries (s : State) (h lanes rate : Nat) : Bool :=
  decide (102 * 24 * 33 * 1188000 * 2 ^ 36 ≤ 100 * lanes * lanePayload rate * headD (s.headGeom h) s.house.frameClks)

/-- The combinations in the order in which they are tried. -/
def State.combos (s : State) (h : Nat) (k : SinkCaps) : List (Nat × Nat) :=
  let lanes := [4, 2, 1].filter fun n => decide (n ≤ k.lanes) && decide (n ≤ s.hd h 0x0C 4)
  let rates := [1, 2, 3, 4, 5, 6].filter fun r => decide (r ≤ k.rate) && decide (r ≤ s.hd h 0x0B 6)
  (lanes.map fun n => (rates.filter fun r => s.carries h n r).map fun r => (n, r)).flatten

/-- HD_LINK changes: notice HEAD_LINK, and a retraining from ACTIVE is counted. -/
def State.setHeadLink (s : State) (h : Fin 4) (st : Byte) (lanes rate : Nat) : State :=
  let k := s.heads.get h
  let n := { k with
    link := st, lanes := BitVec.ofNat 8 lanes, rate := BitVec.ofNat 8 rate, sending := k.sending && st == 3
    retrains := if st = 2 ∧ k.link = 3 then satInc k.retrains else k.retrains }
  let s := s.modHead h fun _ => n
  if st = k.link then s else s.raise 0x40 h.val false (st.toNat + 256 * rate + 65536 * lanes)

/-- Training starts, or NOSINK or NOFIT stands. -/
def State.trainHead (s : State) (h : Fin 4) : State :=
  match (s.heads.get h).sink with
  | none => s.setHeadLink h 1 0 0
  | some k =>
    match s.combos h.val k with
    | [] => s.setHeadLink h 5 0 0
    | (n, r) :: _ => s.setHeadLink h 2 n r

/-- The combination after the one that failed. -/
def nextCombo : List (Nat × Nat) → Nat × Nat → Option (Nat × Nat)
  | [], _ => none
  | p :: r, q => if p = q then r.head? else nextCombo r q

/-- The training in progress ends. -/
def State.headTrained (s : State) (h : Fin 4) (ok : Bool) : State :=
  let k := s.heads.get h
  if ok then s.setHeadLink h 3 k.lanes.toNat k.rate.toNat
  else
    match k.sink with
    | none => s.setHeadLink h 1 0 0
    | some c =>
      match nextCombo (s.combos h.val c) (k.lanes.toNat, k.rate.toNat) with
      | some (n, r) => s.setHeadLink h 2 n r
      | none => s.setHeadLink h 4 0 0

/-- HD_EN becomes 1 or 0 (R426): the raster waits for its lock point, or runs on to its next vertical blanking. -/
def State.headEnable (s : State) (h : Fin 4) (on : Bool) : State :=
  let k := s.heads.get h
  if on then
    if k.on then s.modHead h fun k => { k with stopping := false }
    else (s.modHead h fun k => { k with on := true, waiting := true, stopping := false, line := 0, frame := 0, underNoted := false }).trainHead h
  else if k.waiting then (s.modHead h fun k => { k with on := false, waiting := false }).setHeadLink h 0 0 0
  else s.modHead h fun k => { k with stopping := k.on }

/-! ## Windows (R242 to R244, R523) -/

/-- Slots of the wax store that the ring of a window on a cell of `hactive` pixels takes. -/
def ringSize (hactive : Nat) : Nat := (64 * hactive * 3 + 32767) / 32768

def Win.cell (w : Win) : CellNo := ⟨w.src / 16 % 128, Nat.mod_lt _ (by decide)⟩
def Win.dev (w : Win) : BitVec 3 := BitVec.ofNat 3 (w.src / 2)
def Win.sx0 (w : Win) : Nat := w.rect % 65536
def Win.sy0 (w : Win) : Nat := w.rect / 65536 % 65536
def Win.wd (w : Win) : Nat := w.rect / 2 ^ 32 % 65536
def Win.ht (w : Win) : Nat := w.rect / 2 ^ 48 % 65536
def Win.dx (w : Win) : Nat := w.dst % 65536
def Win.dy (w : Win) : Nat := w.dst / 65536 % 65536
def Win.xs (w : Win) : Nat := max 1 (w.scale % 16)
def Win.ys (w : Win) : Nat := max 1 (w.scale / 16)

/-- The cell of a window is one whose beam this device knows: its own, here or away, or a guest. -/
def State.winCell (s : State) (w : Win) : Option Cell :=
  let x := s.cell w.cell
  if w.dev = s.devId then (if x.kp.guest.isNone then some x else none)
  else if x.kp.guest = some w.dev then some x else none

/-- The condition of R243 at source row `j` for a cell frame start `d` after the head frame start, all in 2^−37 beam
clocks: A(k) ≤ F(k), and L(k) ≤ the start of cell beam line k + 63. -/
def winRowOk (w : Win) (cl hl d fwd : Int) (hv j : Nat) : Bool :=
  let k : Int := w.sy0 + j
  let top : Int := w.dy + w.ys * j
  let bot : Int := min (top + w.ys - 1) ((hv : Int) - 1)
  decide (d + k * cl + fwd ≤ (top - 1) * hl) && decide (bot * hl ≤ d + (k + 63) * cl)

/-- The source rows that the window shows: within the cell's active raster and the head's active area. -/
def winRows (w : Win) (cv hv : Nat) : List Nat :=
  (List.range w.ht).filter fun j => decide (w.sy0 + j < cv) && decide (w.dy + w.ys * j < hv)

/-- The state of an enabled window whose ring is placed (R243). -/
def State.winState (s : State) (h : Fin 4) (w : Win) : Byte :=
  match s.winCell w with
  | none => 1
  | some x =>
    let g := s.headGeom h.val
    let c := x.beam.geom
    if !(x.beam.on && x.beam.started) || !(s.heads.get h).on then 1
    else if c.num * g.den ≠ g.num * c.den then 3
    else
      let clks := s.house.frameClks
      let cl : Int := (lineLen c clks * 8192 : Nat)
      let hl : Int := (g.htotal * headD g clks : Nat)
      let p : Int := (clks * c.den * 2 ^ 37 / max 1 c.num : Nat)
      let d0 : Int := (((x.beam.stagger : Int) - (s.hd h.val 9 0 : Int)) * 2 ^ 37) % (max 1 p)
      let fwd : Int := if x.kp.away.isSome then 594 * 2 ^ 37 else 0
      let rows := winRows w c.vactive g.vactive
      if [-2, -1, 0, 1].any fun n => rows.all fun j => winRowOk w cl hl (d0 + n * p) fwd g.vactive j then 2 else 1

/-- Heads with an ATTACHED window on cell `c`: OUT_HEADS; the ring of a cell that no head shows is empty. -/
def State.headsOf (s : State) (c : CellNo) : Byte :=
  (List.finRange 4).foldl
    (fun b h => putBit b h.val ((s.heads.get h).wins.toList.any fun w => w.st == 2 && (s.winCell w).isSome && w.cell == c)) 0

def State.headsUpdate (s : State) (c : CellNo) : State :=
  let b := s.headsOf c
  s.modVid c fun v => { v with heads := b, ring := if b = 0 then [] else v.ring }

/-- The ring of a window is allocated, kept or released (R523). -/
def State.winRing (s : State) (h : Fin 4) (w : Win) (old : Win) : Win × Bool :=
  if w.src % 2 = 0 then ({ w with slots := 0 }, true)
  else
    let need := match s.winCell w with
      | some x => ringSize x.beam.geom.hactive
      | none => ringSize 1920
    let used := s.ringSlots - old.slots
    if used + need ≤ 512 then ({ w with slots := need }, true) else ({ w with slots := 0 }, false)

/-- Window `n` of head `h` at the start of vertical blanking: its objects take effect and its state is evaluated. -/
def State.winEval (s : State) (h : Fin 4) (n : Nat) : State :=
  let old := ((s.heads.get h).wins[n]?).getD {}
  let o := 0xB100 + 16 * h.val + n
  let w := { old with src := s.objOr o 1 0, rect := s.objOr o 2 0, dst := s.objOr o 3 0, scale := s.objOr o 4 0x11 }
  let r := s.winRing h w old
  let st : Byte := if w.src % 2 = 0 then 0 else if !r.2 then 4 else s.winState h r.1
  let s := s.modHead h fun k => { k with wins := k.wins.setIfInBounds n { r.1 with st := st } }
  let s := if w.src = old.src then s else s.headsUpdate old.cell
  let s := s.headsUpdate w.cell
  if st = old.st then s else s.raise 0x0A 0 false (n + 16 * h.val + 256 * st.toNat)

/-! ## Composition of a head line (R242, R245 to R247, R428, R429) -/

/-- A component blended: R247. -/
def blend8 (a o c : Nat) : Nat := (a * o + (255 - a) * c + 127) / 255

/-- A layer pixel over the colour beneath it. -/
def blendPixel (g : Nat) (p : Word) (c : BitVec 24) : BitVec 24 :=
  let a := (p.toNat / 2 ^ 24 * g + 127) / 255
  let f (i : Nat) : Nat := blend8 a (p.toNat / 256 ^ i % 256) (c.toNat / 256 ^ i % 256)
  BitVec.ofNat 24 (f 0 + 256 * f 1 + 65536 * f 2)

/-- The newest copy of active line `k` in a cell's ring. -/
def ringLine (v : CellVid) (k : Nat) : Option Pixels := (v.ring.find? fun e => e.1 == k).map (·.2)

/-- The pixel of an ATTACHED window at head pixel (`px`, `py`). -/
def State.winPixel (s : State) (w : Win) (px py : Nat) : Option (BitVec 24) :=
  if w.st = 2 ∧ w.dx ≤ px ∧ w.dy ≤ py then
    let i := (px - w.dx) / w.xs
    let j := (py - w.dy) / w.ys
    if i < w.wd ∧ j < w.ht then
      match ringLine (s.cell w.cell).vid (w.sy0 + j) with
      | some l => l[w.sx0 + i]?
      | none => none
    else none
  else none

/-- The front window's pixel, or the background. -/
def State.headBase (s : State) (h : Fin 4) (px py : Nat) : BitVec 24 :=
  let ws := (s.heads.get h).wins.toList.reverse
  match ws.findSome? fun w => s.winPixel w px py with
  | some c => c
  | none => BitVec.ofNat 24 (s.hd h.val 0x0A 0)

/-- Objects of a layer. -/
def State.ov (s : State) (h : Fin 4) (l : Fin 2) (sub d : Nat) : Nat := s.objOr (0xB180 + 2 * h.val + l.val) sub d

/-- A layer at head pixel (`px`, `py`): the row for the line, if it arrived. -/
def State.layerPixel (s : State) (h : Fin 4) (l : Fin 2) (px py : Nat) (c : BitVec 24) : BitVec 24 :=
  let y := (s.heads.get h).layers.get l
  let x0 := s.ov h l 2 0 % 65536
  if s.ov h l 1 0 % 2 = 0 || decide (px < x0) then c
  else
    match (y.rows.find? fun e => e.1 == py).map (·.2) with
    | none => c
    | some r =>
      match r[px - x0]? with
      | some p => blendPixel (s.ov h l 4 255) p c
      | none => c

/-- Head line `py` composed. -/
def State.headLine (s : State) (h : Fin 4) (py : Nat) : Pixels :=
  (List.range (s.headGeom h.val).hactive).map fun px =>
    s.layerPixel h 1 px py (s.layerPixel h 0 px py (s.headBase h px py))

/-- An EN layer shows a row on head line `py`. -/
def State.layerRow (s : State) (h : Fin 4) (l : Fin 2) (py : Nat) : Option Nat :=
  let y0 := s.ov h l 2 0 / 65536
  let ht := s.ov h l 3 0 / 65536
  if s.ov h l 1 0 % 2 = 1 ∧ y0 ≤ py ∧ py < y0 + ht then some (py - y0) else none

/-- The underruns of head line `py` (R429). -/
def State.headUnderrun (s : State) (h : Fin 4) (l : Fin 2) (py : Nat) : State :=
  let k := s.heads.get h
  if (s.layerRow h l py).isNone || (k.layers.get l).rows.any (fun e => e.1 == py) then s
  else
    let s := s.modHead h fun k => { k with underrun := satInc k.underrun, underNoted := true }
    if k.underNoted then s
    else (s.fireShared ⟨0x84 + h.val, by omega⟩).raise 0x41 h.val false (l.val + 256 * (k.frame.toNat % 2 ^ 24))

/-- Lines that ATTACHED windows read for head line `py` and that their rings do not hold (R244). -/
def State.headLate (s : State) (h : Fin 4) (py : Nat) : State :=
  s.modHead h fun k => { k with wins := k.wins.map fun w =>
    if w.st = 2 ∧ w.dy ≤ py ∧ (py - w.dy) % w.ys = 0 ∧ (py - w.dy) / w.ys < w.ht ∧
        w.sy0 + (py - w.dy) / w.ys < (s.cell w.cell).beam.geom.vactive ∧
        (ringLine (s.cell w.cell).vid (w.sy0 + (py - w.dy) / w.ys)).isNone then
      { w with late := satInc w.late }
    else w }

/-- Head line `py` is composed: its underruns and late lines, then its pixels. -/
def State.headCompose (s : State) (h : Fin 4) (py : Nat) : State :=
  let s := ((s.headUnderrun h 0 py).headUnderrun h 1 py).headLate h py
  let o := s.headLine h py
  s.modHead h fun k =>
    { k with out := o, layers := k.layers.map fun y => { y with rows := y.rows.filter fun e => decide (py < e.1) } }

/-! ## Flips (R248, R249) -/

/-- SEAL is sampled for an armed flip. -/
def State.flipSample (s : State) (h : Fin 4) (l : Fin 2) : State :=
  let y := (s.heads.get h).layers.get l
  match y.armed with
  | none => s
  | some (a, p) =>
    if y.flipSeal.toNat ≤ y.sealNow.toNat then
      let f := (s.heads.get h).frame.toNat
      let y := { y with armed := none, curAddr := a, curPitch := p, flips := satInc y.flips }
      (s.modHead h fun k => { k with layers := k.layers.set l y }).raise 0x0B 0 false
        (l.val + 2 * h.val + 256 * (f % 2 ^ 24))
    else s

/-- FLIP_SEAL is written: a flip is armed, in place of one that still waited. -/
def Layer.arm (y : Layer) (v : Long) : Layer :=
  { y with flipSeal := v, armed := some (y.nextAddr, y.nextPitch), skips := if y.armed.isSome then satInc y.skips else y.skips }

/-- A write of the flip block, SEAL aside. -/
def Layer.write (y : Layer) (off : Nat) (wide : Bool) (v : Long) : Layer :=
  let lo := v.setWidth 32
  if off = 0x00 then
    { y with nextAddr := if wide then v else BitVec.ofNat 64 (y.nextAddr.toNat / 2 ^ 32 * 2 ^ 32 + lo.toNat) }
  else if off = 0x04 ∧ !wide then { y with nextAddr := BitVec.ofNat 64 (y.nextAddr.toNat % 2 ^ 32 + lo.toNat * 2 ^ 32) }
  else if off = 0x08 then { y with nextPitch := lo }
  else if off = 0x10 then (if wide then y.arm v else { y with lowFlip := lo })
  else if off = 0x14 ∧ !wide then y.arm (lo ++ y.lowFlip)
  else y

/-- A write of SEAL. -/
def Layer.writeSeal (y : Layer) (high wide : Bool) (v : Long) : Layer :=
  let lo := v.setWidth 32
  if wide then { y with sealNow := v } else if high then { y with sealNow := lo ++ y.lowSeal } else { y with lowSeal := lo }

/-! ## Overlay rows (R246, R428) -/

/-- 32-bit little-endian words. -/
def words32 : List Byte → List Word
  | a :: b :: c :: d :: r => (d ++ c ++ b ++ a) :: words32 r
  | _ => []

/-- Decode group `g` of a packed row: values left, and pixels so far, newest group first. -/
def ovGroup (codes : List Byte) (above : List Word) (p : List Word × List (List Word)) (g : Nat) : List Word × List (List Word) :=
  let code := (codes.getD (g / 4) 0).toNat / 4 ^ (g % 4) % 4
  if code = 0 then (p.1, [0, 0, 0, 0] :: p.2)
  else if code = 1 then (p.1, ((List.range 4).map fun i => above.getD (4 * g + i) 0) :: p.2)
  else if code = 2 then (p.1.drop 1, List.replicate 4 (p.1.headD 0) :: p.2)
  else (p.1.drop 4, ((List.range 4).map fun i => p.1.getD i 0) :: p.2)

/-- The pixels of a packed row of `w` pixels; `above` is the row above it. -/
def ovUnpack (w : Nat) (bytes : List Byte) (above : List Word) : List Word :=
  let n := (w + 15) / 16
  (((List.range (w / 4)).foldl (ovGroup (bytes.take n) above) (words32 (bytes.drop n), [])).2.reverse).flatten

/-- The row for head line `py` can still arrive: its fetch has begun, and its underrun has not been judged. -/
def State.rowOpen (s : State) (h : Fin 4) (py : Nat) : Bool :=
  let k := s.heads.get h
  let g := s.headGeom h.val
  k.on && !k.waiting &&
  (if g.vactive ≤ k.line then decide (py < 16) && !(k.line + 1 == g.vtotal && py == 0)
   else decide (k.line + 2 ≤ py) && decide (py ≤ k.line + 16)) && decide (py < g.vactive)

/-- An overlay row arrives whole. -/
def State.rowArrive (s : State) (h : Fin 4) (l : Fin 2) (py : Nat) (dir : Word) (bytes : List Byte) : State :=
  match s.layerRow h l py with
  | none => s
  | some j =>
    if !s.rowOpen h py then s
    else
      let w := s.ov h l 3 0 % 65536
      let packed := s.ov h l 1 0 / 2 % 2 == 1
      let y := (s.heads.get h).layers.get l
      let above := if j = 0 then [] else ((y.rows.find? fun e => e.1 + 1 == py).map (·.2)).getD []
      let bad := packed && dir.toNat / 2 ^ 30 != 0
      let r := if bad then List.replicate w 0 else if packed then ovUnpack w bytes above else (words32 bytes).take w
      let y := { y with rows := (py, r) :: y.rows, pkErr := if bad then satInc y.pkErr else y.pkErr }
      s.modHead h fun k => { k with layers := k.layers.set l y }

/-! ## The raster (R425, R427, R428) -/

/-- The start of head vertical blanking: shared source, flips, windows, and the prefill begins anew; a head that HD_EN has
stopped goes off. -/
def State.headBlank (s : State) (h : Fin 4) : State :=
  let k := s.heads.get h
  if k.stopping then
    (s.modHead h fun k => { k with on := false, waiting := false, stopping := false, line := 0 }).setHeadLink h 0 0 0
  else
    let s := s.fireShared ⟨0x80 + h.val, by omega⟩
    let s := s.modHead h fun k => { k with layers := k.layers.map fun y => { y with rows := [] } }
    let s := (s.flipSample h 0).flipSample h 1
    (List.range 16).foldl (fun s n => s.winEval h n) s

/-- A head frame starts. -/
def Head.frameStart (k : Head) : Head :=
  { k with
    line := 0, waiting := false, frame := if k.waiting then k.frame else k.frame + 1, underNoted := false
    sending := k.link == 3 }

/-- A head line starts: the raster moves on, and the next head line is composed. -/
def State.headLineStart (s : State) (h : Fin 4) : State :=
  let k := s.heads.get h
  if !k.on then s
  else
    let g := s.headGeom h.val
    let s :=
      if k.waiting || decide (g.vtotal ≤ k.line + 1) then s.modHead h Head.frameStart
      else s.modHead h fun k => { k with line := k.line + 1 }
    let n := (s.heads.get h).line
    let s := if n = g.vactive then s.headBlank h else s
    if !(s.heads.get h).on then s
    else if n + 1 < g.vactive then s.headCompose h (n + 1)
    else if n + 1 = g.vtotal then s.headCompose h 0
    else s

end Sys2Proof.Machine
end

