-- ==== Sys2Proof/Machine/HostOps.lean ====
section
/-! DEFINITION. The queue blocks, the mailbox, the event queue and the player ports (R397 to R419), and the forwarding of a
cell's queue words to and from its home device (R388). -/

namespace Sys2Proof.Machine

/-! ## Access to queues -/

/-- The queue a name stands for (R400). -/
def State.queue (s : State) : QueueId → Queue
  | .slice c => (s.cell c).host.slice
  | .audio c => (s.cell c).host.audio
  | .event c => (s.cell c).host.event
  | .input c => (s.cell c).host.input
  | .command => s.link.command
  | .notice => s.link.notice

/-- Update a queue. -/
def State.modQueue (s : State) (q : QueueId) (f : Queue → Queue) : State :=
  match q with
  | .slice c => s.modHost c fun h => { h with slice := f h.slice }
  | .audio c => s.modHost c fun h => { h with audio := f h.audio }
  | .event c => s.modHost c fun h => { h with event := f h.event }
  | .input c => s.modHost c fun h => { h with input := f h.input }
  | .command => s.modLink fun l => { l with command := f l.command }
  | .notice => s.modLink fun l => { l with notice := f l.notice }

/-- The cell of a VF queue. -/
def qCell : QueueId → Option CellNo
  | .slice c => some c | .audio c => some c | .event c => some c | .input c => some c
  | .command => none | .notice => none

/-- CLASS, capacity in words, and largest packet (R400); slices and audio count packets instead. -/
def qClass : QueueId → Nat
  | .slice _ => 0 | .audio _ => 1 | .event _ => 2 | .input _ => 3 | .command => 4 | .notice => 5
def qCapacity : QueueId → Nat
  | .slice _ => 5776 | .audio _ => 784 | .event _ => 64 | .input _ => 32 | .command => 512 | .notice => 128
def qPacketMax : QueueId → Nat
  | .slice _ => 722 | .audio _ => 49 | .event _ => 16 | .input _ => 8 | .command => 64 | .notice => 8

/-- The queue is written by the host. -/
def qFromHost : QueueId → Bool
  | .input _ => true | .command => true
  | .slice _ => false | .audio _ => false | .event _ => false | .notice => false

/-- The function of the queue answers the host: PF0, or a VF while VFs are enabled (R398). -/
def State.fnOn (s : State) (q : QueueId) : Bool :=
  match qCell q with
  | some _ => s.vfOn
  | none => true

/-- The queue carries traffic (R398, R409). -/
def State.queueOn (s : State) (q : QueueId) : Bool := s.fnOn q && (s.queue q).en

/-- A command for a queue of a cell that the part lacks is refused (R2). -/
def onQueue (q : QueueId) (s : State) (k : Res) : Res :=
  match qCell q with
  | some c => onCell c s k
  | none => k

/-- A message of the function that a queue belongs to (R416). -/
def State.msiOf (s : State) (q : QueueId) (vf pf : Nat) : State :=
  match qCell q with
  | some c => if s.vfOn then s.msi (c.val + 1) vf else s
  | none => s.msi 0 pf

/-- A message of VF `c`. -/
def State.msiVf (s : State) (c : CellNo) (vec : Nat) : State := s.msiOf (.slice c) vec 0

/-! ## Taking and rewinding -/

/-- EV_STAT.FULL: the event queue holds 64 words (R420). -/
def Queue.full64 (q : Queue) : Bool := decide (64 ≤ q.words)

/-- EVQ receives an edge when EV_STAT.FULL went from 1 to 0 (R419). -/
def State.evqRoom (s : State) (c : CellNo) (was : Bool) : State :=
  if was && !(s.cell c).host.event.full64 then s.edge c 22 else s

/-- EVQ after a change of queue `q` from `before`. -/
def State.afterTake (s : State) (q : QueueId) (before : Queue) : State :=
  match q with
  | .event c => s.evqRoom c before.full64
  | .slice _ => s | .audio _ => s | .input _ => s | .command => s | .notice => s.noticeOwed

/-- The consumer of a host-written queue took the oldest packet: a stall ends, and room is announced once after a rewind
for fullness (R407, R416). -/
def State.roomBack (s : State) (q : QueueId) : State :=
  let k := s.queue q
  let s := s.modQueue q fun k => { k with stalled := false, roomOwed := false }
  if k.roomOwed then s.msiOf q 3 1 else s

/-- A packet of a host-written queue is rewound (R405). -/
def State.rewind (s : State) (q : QueueId) (full : Bool) : State :=
  let s := s.modQueue q fun k => { k with
    opened := [], spoiled := false, stat := k.stat ||| 2, count := satInc k.count, roomOwed := k.roomOwed || full }
  match q with
  | .input c => s.modHost c fun h => { h with inRewind := satInc h.inRewind }
  | .command => s.modLink fun l => { l with cmdRewind := satInc l.cmdRewind }
  | .slice _ => s | .audio _ => s | .event _ => s | .notice => s

/-- Fields of a tag word (R401). -/
def tagValid (t : Long) : Bool := t.getLsbD 0
def tagEnd (t : Long) : Bool := t.getLsbD 1
def tagClass (t : Long) : Nat := t.toNat / 16 % 16
def tagPrio (t : Long) : BitVec 3 := BitVec.ofNat 3 (t.toNat / 2 ^ 32)
def tagReserved (t : Long) : Nat := t.toNat / 2 ^ 35 % 2 ^ 13
def tagCheck (t : Long) : Nat := t.toNat / 2 ^ 48

/-- Reserved bits of a data word: [7:3] of an input word (R417). -/
def dataReserved (q : QueueId) (d : Long) : Bool :=
  match q with
  | .input _ => d.toNat / 8 % 32 != 0
  | .slice _ => false | .audio _ => false | .event _ => false | .command => false | .notice => false

/-- The check of an open packet at its END word (R405). -/
def packetOk (q : QueueId) (l : List (Long × Long)) : Bool :=
  match l.getLast? with
  | none => false
  | some (_, t) =>
    l.all (fun p => tagClass p.2 == (qClass q) && tagReserved p.2 == 0 && !dataReserved q p.1 && tagPrio p.2 == tagPrio t) &&
    decide (l.length ≤ qPacketMax q) &&
    tagCheck t == (crc16 (l.map fun p => toBytes p.1.toNat 8).flatten).toNat

/-- The committed words of an away cell's input go to its run device (R388). -/
def State.inputForward (s : State) (c : CellNo) : State :=
  match (s.cell c).kp.away, (s.cell c).host.input.waiting with
  | some d, p :: r =>
    let s := s.modHost c fun h => { h with input := { h.input with waiting := r } }
    (s.sendTo d 7 true (jtag c.val s.devId 0) (p.words.map fun w => toBytes w.toNat 8).flatten).roomBack (.input c)
  | _, _ => s

/-- A host word joins the open packet; its END word commits or rewinds the packet (R405). -/
def State.windowWord (s : State) (q : QueueId) (data tag : Long) : State :=
  if !tagValid tag then s
  else
    let k := s.queue q
    let room := decide (k.words < qCapacity q)
    let l := if room then k.opened ++ [(data, tag)] else k.opened
    let bad := k.spoiled || !room
    if !tagEnd tag then s.modQueue q fun k => { k with opened := l, spoiled := bad }
    else if bad then s.rewind q true
    else if packetOk q l then
      let s := s.modQueue q fun k => { k with
        opened := [], spoiled := false, tail := k.tail + 1
        waiting := k.waiting ++ [{ words := l.map (·.1), prio := tagPrio tag, pseq := k.tail.setWidth 16 }] }
      match q with
      | .input c => s.inputForward c
      | .command => s | .slice _ => s | .audio _ => s | .event _ => s | .notice => s
    else s.rewind q false

/-! ## Configuration (R409) -/

/-- Least SLOT_BYTES of a class. -/
def slotMin (cls : Nat) : Nat := if cls = 0 then 64 else if cls = 1 then 448 else if cls = 2 then 128 else 64

/-- The configuration of a queue meets the minimums of R409. -/
def Queue.configOk (k : Queue) (q : QueueId) : Bool :=
  let c := k.ctl.toNat
  (c / 4 % 4 != 2 || c / 16 % 4096 != 0) &&
  (qFromHost q || k.pop ||
    (c / 65536 % 16 != 0 && k.ringBase.toNat % 128 == 0 && k.cplBase.toNat % 128 == 0 &&
     k.slotBytes.toNat % 64 == 0 && decide (slotMin (qClass q) ≤ k.slotBytes.toNat)))

/-- The queue is disabled: everything in it is discarded without count; HEAD and TAIL stay. -/
def Queue.disable (k : Queue) : Queue :=
  { k with ctl := k.ctl &&& 0xFFFFFFFE, waiting := [], opened := [], spoiled := false, popped := 0, inRing := []
           stalled := false, dropNext := false, roomOwed := false }

/-- Bits of CTL that a queue has: MODE belongs to the event and notice queues alone. -/
def qCtlMask : QueueId → Word
  | .event _ => 0x000FFFFF | .notice => 0x000FFFFF
  | .slice _ => 0x000FFFFD | .audio _ => 0x000FFFFD | .input _ => 0x000FFFFD | .command => 0x000FFFFD

/-- A write of CTL. -/
def Queue.writeCtl (k : Queue) (q : QueueId) (v : Word) : Queue :=
  let v := v &&& qCtlMask q
  if k.en then
    let n := (k.ctl &&& 0x000F0002) ||| (v &&& 0x0000FFFD)
    let k := { k with ctl := n, stat := if (v ^^^ k.ctl) &&& 0x000F0002 = 0 then k.stat else k.stat ||| 0x10 }
    if n.getLsbD 0 then k else k.disable
  else
    let n := { k with ctl := v }
    if !v.getLsbD 0 then n
    else if n.configOk q then { n with head := 0, tail := 0, count := 0, sinceIrq := 0 }
    else { n with ctl := v &&& 0xFFFFFFFE, stat := k.stat ||| 8 }

/-- A write of a configuration register of a queue block. -/
def Queue.writeReg (k : Queue) (q : QueueId) (off : Nat) (v : Long) : Queue :=
  let held := { k with stat := k.stat ||| 0x10 }
  if off = 0x00 then (if k.en then held else { k with ringBase := v })
  else if off = 0x08 then (if k.en then held else { k with cplBase := v })
  else if off = 0x10 then k.writeCtl q (v.setWidth 32)
  else if off = 0x14 then (if k.en then held else { k with slotBytes := v.setWidth 32 })
  else if off = 0x20 then { k with tailUs := v.setWidth 32 }
  else if off = 0x28 then { k with stat := k.stat &&& ~~~(v.setWidth 6) }
  else k

/-- A write of HEAD (R403). -/
def Queue.writeHead (k : Queue) (v : Word) : Queue :=
  let n := (v - k.head).toNat
  if decide (n ≤ (k.tail - k.head).toNat) then
    { k with head := v, inRing := k.inRing.drop n, stalled := k.stalled && n == 0 }
  else { k with stat := k.stat ||| 4 }

/-! ## Delivery (R402, R404) -/

/-- Credit of a ring. -/
def Queue.credit (k : Queue) : Bool := decide ((k.tail - k.head).toNat < 2 ^ (k.ctl.toNat / 65536 % 16))

/-- LAP of the next packet. -/
def Queue.lap (k : Queue) : Bool := k.tail.toNat / 2 ^ (k.ctl.toNat / 65536 % 16) % 2 == 0

/-- The tag of the last word of a delivered packet, or of word `i` of a popped one. -/
def Queue.tagOf (k : Queue) (cls : Nat) (p : Packet) (end_ ring : Bool) : Long :=
  BitVec.ofNat 64 (1 + 2 * b2n end_ + 4 * b2n (ring && k.lap) + 8 * b2n p.dropped + 16 * cls +
    256 * min 255 (k.waiting.length - 1) + 65536 * (k.tail.toNat % 65536))

/-- A slice packet carries LAST (R410). -/
def sliceLast (p : Packet) : Bool := match p.words with | w :: _ => w.getLsbD 13 | [] => false

/-- The oldest packet and its completion entry are written to host memory. A slice larger than the slot is not delivered
(R411). -/
def State.deliverPacket (s : State) (q : QueueId) : State :=
  let k := s.queue q
  match k.waiting with
  | [] => s
  | p :: r =>
    if k.slotBytes.toNat < 8 * p.words.length then
      let r := match r with
        | [] => []
        | n :: m => { n with dropped := true } :: m
      let s := s.modQueue q fun k => { k with
        waiting := r, dropNext := k.dropNext || r.isEmpty, count := satInc k.count, stat := k.stat ||| 0x20 }
      match q with
      | .slice c => s.modHost c fun h => { h with sliceBig := satInc h.sliceBig }
      | .audio _ => s | .event _ => s | .input _ => s | .command => s | .notice => s
    else
      let t := k.tagOf (qClass q) p true true
      let n := { k with
        waiting := r, inRing := k.inRing ++ [p], tail := k.tail + 1
        lastSlot := k.tail.toNat % 2 ^ (k.ctl.toNat / 65536 % 16)
        lastCpl := (BitVec.ofNat 64 (8 * p.words.length), t) }
      let last := match q with
        | .slice _ => sliceLast p
        | .audio _ => true | .event _ => true | .input _ => true | .command => true | .notice => true
      let m := n.irqStep last
      let s := s.modQueue q fun _ => m.1
      let s := if m.2 then s.msiOf q (qClass q) 0 else s
      s.afterTake q k

/-- The packet at the head of a pop queue is taken: TAIL advances for it (R404, R408). -/
def Queue.popEnd (k : Queue) : Queue :=
  { k with waiting := k.waiting.drop 1, popped := 0, tail := k.tail + 1, stalled := false }

/-- A 16-byte read of POP: the oldest word, or VALID 0. -/
def State.popWord (s : State) (q : QueueId) : State :=
  let k := s.queue q
  match k.waiting with
  | [] => s.modQueue q fun k => { k with lastCpl := (0, 0) }
  | p :: _ =>
    let w := (p.words[k.popped]?).getD 0
    let end_ := decide (p.words.length ≤ k.popped + 1)
    let n := { k with lastCpl := (w, k.tagOf (qClass q) p end_ false), popped := k.popped + 1 }
    (s.modQueue q fun _ => if end_ then n.popEnd else n).afterTake q k

/-- The queue stalls (R407): reported once. -/
def State.stallQueue (s : State) (q : QueueId) : State :=
  let k := s.queue q
  if k.stalled || k.tailUs = 0 || (k.waiting.isEmpty && k.inRing.isEmpty) then s
  else
    let s := s.modQueue q fun k => { k with stalled := true, stat := k.stat ||| 1 }
    let s := s.msiOf q 6 3
    match qCell q with
    | some c => (s.modHost c fun h => { h with qTails := satInc h.qTails }).raise 0x16 c.val true (qClass q)
    | none => s.raise 0x16 0 false (qClass q)

/-! ## Function resets (R398) -/

/-- The queues of a VF are disabled and emptied, and its mailbox is cleared. -/
def CellHost.flr (h : CellHost) : CellHost :=
  { h with
    slice := h.slice.disable, audio := h.audio.disable, event := h.event.disable, input := h.input.disable
    mbData := 0, mbFull := false, mbRej := false, mbLow := 0 }

def State.vfReset (s : State) (c : CellNo) : State :=
  let was := (s.cell c).host.event.full64
  (s.modHost c CellHost.flr).evqRoom c was

/-- VF Enable is cleared: every VF is disabled. -/
def State.vfsOff (s : State) : State :=
  if s.vfOn then (allCells.foldl State.vfReset s).modLink fun l => { l with vfEnable := false } else s

/-! ## Player ports (R417, R540) -/

/-- An input word as the port holds it: reserved bits are 0. -/
def portWord (d : Long) : Long := BitVec.ofNat 64 (d.toNat / 256 % 2 ^ 24 + d.toNat / 2 ^ 32 * 2 ^ 32)

/-- Port `p` takes value `v`: IN_CHG records a change. -/
def CellHost.setPort (h : CellHost) (p : Nat) (v : Long) : CellHost :=
  if (h.inP[p]?.getD 0) = v then h
  else { h with inP := h.inP.setIfInBounds p v, inChg := putBit h.inChg p true }

/-- The last word for port `p` in commit order. -/
def lastFor (ws : List Long) (p : Nat) : Option Long := (ws.filter fun w => w.toNat % 8 == p).getLast?

/-- Committed input packets take effect together at a program line start; `src` is IN_SRC, `pins` the values of the ports
that follow the pins (R417). -/
def State.applyInput (s : State) (c : CellNo) (src : Byte) (pins : Nat → Long) : State :=
  let x := s.cell c
  let ws := (x.host.input.waiting.map (·.words)).flatten
  let h := (List.range 8).foldl
    (fun h p =>
      if src.getLsbD p then h.setPort p (pins p)
      else match lastFor ws p with
        | some w => h.setPort p (portWord w)
        | none => h) x.host
  let rose := (h.inChg &&& ~~~x.host.inChg) != 0
  let took := !x.host.input.waiting.isEmpty
  let s := s.modHost c fun _ => { h with input := { h.input with waiting := [] } }
  let s := if took then s.roomBack (.input c) else s
  if rose then s.edge c 19 else s

/-! ## Mailbox (R418) -/

/-- The mailbox takes a word on the cell's side. -/
def State.mailboxIn (s : State) (c : CellNo) (v : Long) : State :=
  (s.modHost c fun h => { h with mbData := v, mbFull := true }).edge c 21

/-- A host write of the whole of MB_DATA. -/
def State.mailboxWrite (s : State) (c : CellNo) (v : Long) : State :=
  if (s.cell c).host.mbFull then s.modHost c fun h => { h with mbRej := true }
  else
    match (s.cell c).kp.away with
    | some d => (s.modHost c fun h => { h with mbData := v, mbFull := true }).sendTo d 7 true (jtag c.val s.devId 1) (toBytes v.toNat 8)
    | none => s.mailboxIn c v

/-- A cell's write of MB_ACK. -/
def State.mailboxAck (s : State) (c : CellNo) : State :=
  let s := s.modHost c fun h => { h with mbFull := false }
  match (s.cell c).kp.guest with
  | some d => s.sendTo d 7 true (jtag c.val d 1) []
  | none => s.msiVf c 4

/-! ## Event queue (R419, R420) -/

/-- The open event packet vanishes and counts as dropped (R401, R409). -/
def Queue.evLose (k : Queue) (spoiled : Bool) : Queue :=
  { k with opened := [], spoiled := spoiled, count := if k.spoiled then k.count else satInc k.count
           stat := if k.spoiled then k.stat else k.stat ||| 0x20, dropNext := true }

/-- A whole event packet becomes visible, here or on the home device. -/
def State.evCommit (s : State) (c : CellNo) (ws : List Long) : State :=
  match (s.cell c).kp.guest with
  | some d => s.sendTo d 7 true (jtag c.val d 2) (ws.map fun w => toBytes w.toNat 8).flatten
  | none =>
    let q := { (s.cell c).host.event with opened := [] }.enqueue ws
    let r := if q.pop then q.irqStep true else (q, false)
    let s := s.modHost c fun h => { h with event := r.1 }
    if r.2 then s.msiVf c 2 else s

/-- The push of the staged word. -/
def State.evPush (s : State) (c : CellNo) : State :=
  let h := (s.cell c).host
  let end_ := h.evEndNext
  let k := h.event
  let s := s.modHost c fun h => { h with evEndNext := false }
  if !s.queueOn (.event c) && (s.cell c).kp.guest.isNone then s
  else if k.spoiled then s.modHost c fun h => { h with evOvf := true, event := { k with spoiled := !end_ } }
  else if decide (64 ≤ k.words) || decide (16 ≤ k.opened.length) then
    (s.modHost c fun h => { h with evOvf := true, event := k.evLose (!end_) }).evqRoom c k.full64
  else
    let l := k.opened ++ [(BitVec.ofNat 64 (ofBytes h.evStage.toList), 0)]
    let s := s.modHost c fun h => { h with event := { k with opened := l } }
    if end_ then s.evCommit c (l.map (·.1)) else s

/-- A write of a byte of EV_DATA: lower bytes are staged, byte 7 pushes. -/
def State.evWrite (s : State) (c : CellNo) (i : Nat) (v : Byte) : State :=
  let s := s.modHost c fun h => { h with evStage := h.evStage.setIfInBounds i v }
  if i = 7 then s.evPush c else s

/-- EV_CTL.DROP (R408). -/
def State.evDrop (s : State) (c : CellNo) : State :=
  let was := (s.cell c).host.event.full64
  (s.modHost c fun h => { h with event := { h.event with opened := [], spoiled := false } }).evqRoom c was

/-- Registers of the host block. -/
def CellHost.view (h : CellHost) (a : Nat) : Byte :=
  if 0x0E00 ≤ a && a < 0x0E40 then byteOf (h.inP[(a - 0x0E00) / 8]?.getD 0).toNat (a % 8)
  else if a = 0x0E40 then h.inChg
  else if 0x0F00 ≤ a && a < 0x0F08 then byteOf h.mbData.toNat (a % 8)
  else if a = 0x0F08 then BitVec.ofNat 8 (b2n h.mbFull)
  else if a = 0x0F18 then BitVec.ofNat 8 (b2n h.evEndNext)
  else if a = 0x0F19 then BitVec.ofNat 8 (b2n h.event.full64 + 2 * b2n h.evOvf)
  else if a = 0x0F1A then BitVec.ofNat 8 (64 - h.event.words)
  else 0

/-- Writes of the host block by the cell. -/
def State.writeHost (s : State) (c : CellNo) (a : Nat) (v : Byte) : State :=
  if a = 0x0E40 then s.modHost c fun h => { h with inChg := h.inChg &&& ~~~v }
  else if a = 0x0F09 then s.mailboxAck c
  else if 0x0F10 ≤ a && a < 0x0F18 then s.evWrite c (a - 0x0F10) v
  else if a = 0x0F18 then
    let s := if v.getLsbD 1 then s.evDrop c else s
    s.modHost c fun h => { h with evEndNext := h.evEndNext || v.getLsbD 0 }
  else if a = 0x0F19 then s.modHost c fun h => { h with evOvf := h.evOvf && !v.getLsbD 1 }
  else s

end Sys2Proof.Machine
end

