-- ==== Sys2Proof/Machine/SoundOps.lean ====
section
/-! DEFINITION. Cell sound (R319 to R333): the write log, voices, envelopes, the stream FIFO and the mix of a sample
point. -/

namespace Sys2Proof.Machine

/-- Update voice `v`. -/
def Cell.modVoice (x : Cell) (v : Fin 16) (f : Voice → Voice) : Cell :=
  { x with snd := { x.snd with voices := x.snd.voices.set v (f (x.snd.voices.get v)) } }

/-- First register address of voice `v`. -/
def vcBase (v : Fin 16) : Nat := 0x0C00 + 0x20 * v.val

/-- The sixteen voices. -/
def allVoices : List (Fin 16) := List.finRange 16

/-! ## Sample rate (R319) -/

/-- K of a SND_CTL value. -/
def sndK (v : Byte) : Nat := if v.toNat % 4 = 1 then 2 else if v.toNat % 4 = 2 then 4 else 1

/-- The factor `k` keeps `k` × line rate at 192 kHz or below. -/
def sndFits (len k : Nat) : Bool := decide (k * 594000000 * 16777216 ≤ 192000 * len)

/-- KEFF of selected factor `k` and a cell line of `len` beam clocks (24 fraction bits). -/
def keffOf (k len : Nat) : Nat :=
  if 4 ≤ k && sndFits len 4 then 4 else if 2 ≤ k && sndFits len 2 then 2 else 1

/-- m of R319. -/
def sndDiv (len : Nat) : Nat := (594000000 * 16777216 + 192000 * len - 1) / (192000 * max 1 len)

/-- Sample rate in mHz. -/
def sndRate (keff div len : Nat) : Nat := keff * 594000000 * 16777216 * 1000 / (max 1 len * max 1 div)

/-- A change of rate of more than 2,000 ppm (R338). -/
def rateJump (old new : Nat) : Bool :=
  decide (1000000 * new > 1002000 * old) || decide (1000000 * new < 998000 * old)

/-- KEFF, m and the bridge's input rate at a cell frame start (R319, R338). -/
def Cell.sndFrame (x : Cell) (clks : Nat) : Cell :=
  let len := lineLen x.beam.geom clks
  let k := sndK (x.live8 0x0C18)
  let keff := keffOf k len
  let div := max 1 (sndDiv len)
  let rate := sndRate keff div len
  let s := x.snd
  let jump := s.bridge != 0 && rateJump s.rate rate
  { x with snd := { s with
    keff := keff, div := div, rate := rate
    stat := s.stat ||| flagIf (decide (keff < k) || decide (1 < div)) 8
    bridge := if s.bridge = 0 || jump then 1 else s.bridge
    relocks := if jump then satInc s.relocks else s.relocks } }

/-! ## The write log (R321, R322) -/

/-- Multi-byte registers of the sound block: first address and length, by an address in them. -/
def sndWide (a : Nat) : Option (Nat × Nat) :=
  if a = 0x0C1A || a = 0x0C1B then some (0x0C1A, 2)
  else if a = 0x0C1C || a = 0x0C1D then some (0x0C1C, 2)
  else
    let o := a % 32
    let v := (a - 0x0C00) / 32
    if o = 4 || o = 5 then some (a - (o - 4), 2)
    else if o = 6 || o = 7 then some (a - (o - 6), 2)
    else if v < 8 && 8 ≤ o && o < 0x0C then some (a - (o - 8), 4)
    else if v < 8 && 0x0C ≤ o && o < 0x12 then some (a - (o - 0x0C) % 2, 2)
    else none

/-- Staged byte at `a`. -/
def Cell.sndStaged (x : Cell) (a : Nat) : Byte := Table.read (resetByte x.prof) x.snd.stage a

/-- Enter a write in the log with its stamp (R321). -/
def Cell.sndLog (x : Cell) (pix a : Nat) (bytes : List Byte) : Cell :=
  let b := x.beam
  let s := x.snd
  let exceeded := decide (32 ≤ s.logCount)
  let next := if b.pline + 1 < b.pgeom.vtotal then b.pline + 1 else 0
  let e : SndEnt := if exceeded then ⟨next, 0, a, bytes⟩ else ⟨b.pline, pix, a, bytes⟩
  { x with snd := { s with log := s.log ++ [e], logCount := s.logCount + 1, stat := s.stat ||| flagIf exceeded 2 } }

/-- What a read of the bytes written will return: read-write bits only. -/
def Cell.putRegs (x : Cell) (a : Nat) : List Byte → Cell
  | [] => x
  | v :: r => (x.writePlain a v).putRegs (a + 1) r

/-- The stream FIFO of voice `v` is pushed (R327). -/
def Cell.fifoPush (x : Cell) (v : Fin 16) (b : Byte) : Cell :=
  x.modVoice v fun k =>
    if k.fifo.length < 64 then { k with fifo := k.fifo ++ [b] } else { k with stat := k.stat ||| 0x80 }

/-- FLUSH empties the FIFO. -/
def Cell.fifoFlush (x : Cell) (v : Fin 16) : Cell := x.modVoice v fun k => { k with fifo := [] }

/-- Voice of an I/O address in 0C00h to 0DFFh. -/
def voiceOf (a : Nat) : Fin 16 := ⟨(a - 0x0C00) / 32 % 16, by omega⟩

/-- An address of VC_FIFO. -/
def isFifo (a : Nat) : Bool := decide (14 ≤ (voiceOf a).val) && decide (8 ≤ a % 32) && decide (a % 32 < 12)

/-- A write of a voice or mix register at pixel-clock position `pix` (R321, R322). -/
def Cell.writeSnd (x : Cell) (pix a : Nat) (v : Byte) : Cell :=
  if isFifo a then x.fifoPush (voiceOf a) v
  else
    match sndWide a with
    | some (b, n) =>
      if a + 1 < b + n then { x with snd := { x.snd with stage := Table.write (resetByte x.prof) x.snd.stage a v } }
      else
        let bytes := ((List.range (n - 1)).map fun i => x.sndStaged (b + i)) ++ [v]
        (x.sndLog pix b bytes).putRegs b bytes
    | none =>
      let x := if a % 32 = 0 && 14 ≤ (voiceOf a).val && v.getLsbD 6 then x.fifoFlush (voiceOf a) else x
      (x.sndLog pix a [v]).putRegs a [v]

/-! ## Envelope and key (R328) -/

/-- A voice ends: END and its bit in SND_ENDS. -/
def Cell.voiceEnd (x : Cell) (v : Fin 16) : Cell :=
  let y := x.modVoice v fun k => { k with active := false, env := 0, envPh := 0, envCnt := 0, stat := k.stat ||| 1 }
  { y with snd := { y.snd with ends := y.snd.ends ||| BitVec.ofNat 16 (2 ^ v.val) } }

/-- Rate codes and sustain level in force. -/
def Cell.vcRate (x : Cell) (v : Fin 16) (ph : Nat) : Nat :=
  let e := x.live16 (vcBase v + 4)
  if ph = 1 then e % 16 else if ph = 2 then e / 16 % 16 else e / 4096 % 16
def Cell.vcSustain (x : Cell) (v : Fin 16) : Nat := 17 * (x.live16 (vcBase v + 4) / 256 % 16)

/-- One step of the envelope in its phase; `all` moves it the whole way, as a rate code of 0 does. -/
def Cell.envStep (x : Cell) (v : Fin 16) (all : Bool) : Cell :=
  let k := x.snd.voices.get v
  if k.envPh = 1 then
    let e := if all then 255 else min 255 (k.env + 1)
    x.modVoice v fun k => { k with env := e, envPh := if e = 255 then 2 else 1, envCnt := 0 }
  else if k.envPh = 2 then
    let t := x.vcSustain v
    x.modVoice v fun k => { k with env := if all then min k.env t else if t < k.env then k.env - 1 else k.env, envCnt := 0 }
  else if k.envPh = 3 then
    let e := if all then 0 else k.env - 1
    if e = 0 then x.voiceEnd v else x.modVoice v fun k => { k with env := e, envCnt := 0 }
  else x

/-- Phases with rate code 0 move at once: at most attack and then decay follow each other. -/
def Cell.envSettle (x : Cell) (v : Fin 16) : Cell :=
  let go (y : Cell) : Cell :=
    let ph := (y.snd.voices.get v).envPh
    if ph ≠ 0 ∧ y.vcRate v ph = 0 then y.envStep v true else y
  go (go x)

/-- A sample point passes for the envelope: a step every 2^(c−1) sample points. -/
def Cell.envTick (x : Cell) (v : Fin 16) : Cell :=
  let k := x.snd.voices.get v
  if !k.active then x
  else
    let c := x.vcRate v k.envPh
    if c = 0 then x.envSettle v
    else if 2 ^ (c - 1) ≤ k.envCnt + 1 then (x.envStep v false).envSettle v
    else x.modVoice v fun k => { k with envCnt := k.envCnt + 1 }

/-- The stream voice pops one sample (R327). -/
def Cell.streamPop (x : Cell) (v : Fin 16) : Cell :=
  let fmt := (x.live8 (vcBase v)).getLsbD 2 && x.prof != 1
  x.modVoice v fun k =>
    match fmt, k.fifo with
    | false, a :: r => { k with fifo := r, cur := a.toInt * 256 }
    | true, a :: b :: r => { k with fifo := r, cur := (b ++ a).toInt }
    | _, _ => { k with cur := 0, stat := k.stat ||| 0x40 }

/-- Key-on: the envelope restarts in attack and the phase of its kind afresh. -/
def Cell.keyOn (x : Cell) (v : Fin 16) : Cell :=
  let y := x.modVoice v fun k => { k with
    phase := 0, lfsr := 0x7FFF, env := 0, active := true, envPh := 1, envCnt := 0, pre := none }
  (if 14 ≤ v.val then y.streamPop v else y).envSettle v

/-- Key-off: release. -/
def Cell.keyOff (x : Cell) (v : Fin 16) : Cell :=
  let k := x.snd.voices.get v
  if !k.active then x
  else if k.env = 0 then x.voiceEnd v
  else (x.modVoice v fun k => { k with envPh := 3, envCnt := 0 }).envSettle v

/-- A logged byte takes effect at its sample point. -/
def Cell.sndApply (x : Cell) (a : Nat) (b : Byte) : Cell :=
  let v := voiceOf a
  if a = 0x0C19 then { x with snd := { x.snd with stat := x.snd.stat &&& ~~~b } }
  else if a = 0x0C1C then { x with snd := { x.snd with ends := x.snd.ends &&& ~~~(b.zeroExtend 16) } }
  else if a = 0x0C1D then { x with snd := { x.snd with ends := x.snd.ends &&& ~~~(b.zeroExtend 16 <<< 8) } }
  else if a % 32 = 3 then x.modVoice v fun k => { k with stat := k.stat &&& ~~~b }
  else
    let old := (x.live8 (vcBase v)).getLsbD 0
    let y := x.putLive a ((resetByte x.prof a &&& ~~~(rwMask x.prof a)) ||| (b &&& rwMask x.prof a))
    if a % 32 = 0 then
      (if b.getLsbD 0 && !old then y.keyOn v else if old && !b.getLsbD 0 then y.keyOff v else y)
    else y

/-- The bytes of one logged write. -/
def Cell.sndApplyAll (x : Cell) (a : Nat) : List Byte → Cell
  | [] => x
  | b :: r => (x.sndApply a b).sndApplyAll (a + 1) r

/-- A logged write does not wait beyond the sample point at (`line`, `pix`). -/
def sndDue (vt line pix : Nat) (e : SndEnt) : Bool :=
  !(e.line == (line + 1) % vt || e.line == (line + 2) % vt || (e.line == line && decide (pix < e.pixel)))

/-- The writes due at the sample point take effect in log order. -/
def Cell.sndTake (x : Cell) (pix : Nat) : Cell :=
  let due := sndDue (max 1 x.beam.geom.vtotal) x.beam.line pix
  let y := { x with snd := { x.snd with log := x.snd.log.filter fun e => !due e } }
  (x.snd.log.filter due).foldl (fun z e => z.sndApplyAll e.addr e.bytes) y

/-! ## Output of a voice (R323 to R327, R330) -/

/-- FMT and INTERP as the profile allows (R331). -/
def Cell.vcFmt (x : Cell) (v : Fin 16) : Bool := (x.live8 (vcBase v)).getLsbD 2 && x.prof != 1
def Cell.vcInterp (x : Cell) (v : Fin 16) : Bool := (x.live8 (vcBase v)).getLsbD 3 && x.prof != 1
def Cell.vcLoop (x : Cell) (v : Fin 16) : Bool := (x.live8 (vcBase v)).getLsbD 1
def Cell.vcFreq (x : Cell) (v : Fin 16) : Nat := x.live16 (vcBase v + 6)
def Cell.vcLen (x : Cell) (v : Fin 16) : Nat := let n := x.live16 (vcBase v + 0x0C); if n = 0 then 65536 else n
def Cell.vcLstart (x : Cell) (v : Fin 16) : Nat := let n := x.live16 (vcBase v + 0x0E); if x.vcLen v ≤ n then 0 else n

/-- Wave sample `i` of voice `v`; `none` where the read is refused. -/
def Cell.waveSample (x : Cell) (v : Fin 16) (i : Nat) : Option Int :=
  let a := x.live32 (vcBase v + 8) % 2 ^ 25
  if x.vcFmt v then
    (x.span (a + 2 * i) 2).map fun bs => (BitVec.ofNat 16 (ofBytes bs)).toInt
  else (x.span (a + i) 1).map fun bs => (BitVec.ofNat 8 (ofBytes bs)).toInt * 256

/-- The sample at the integer phase `i` and the one after it (R324). -/
def Cell.wavePair (x : Cell) (v : Fin 16) (i : Nat) : Option (Int × Int) :=
  match x.waveSample v i with
  | none => none
  | some a =>
    if !x.vcInterp v then some (a, a)
    else if i + 1 < x.vcLen v then (x.waveSample v (i + 1)).map fun b => (a, b)
    else if x.vcLoop v then (x.waveSample v (x.vcLstart v)).map fun b => (a, b)
    else some (a, 0)

/-- Linear interpolation of R324. -/
def lerp (a b : Int) (frac : Nat) : Int := a + (b - a) * frac / 4096

/-- The raw sample of an active voice and the VC_STAT bits that finding it sets. -/
def Cell.vcRaw (x : Cell) (v : Fin 16) : Int × Byte :=
  let k := x.snd.voices.get v
  let frac := k.phase % 4096
  if !k.active then (0, 0)
  else if v.val < 8 then
    let i := k.phase / 4096
    let got := match k.pre with
      | some (j, p) => if j = i then p else x.wavePair v i
      | none => x.wavePair v i
    match got with
    | none => (0, 0x10)
    | some (a, b) => (if x.vcInterp v then lerp a b frac else a, 0)
  else if v.val < 12 then
    (if k.phase / 256 % 256 < (x.live8 (vcBase v + 8)).toNat then 32767 else -32768, 0)
  else if v.val < 14 then (if k.lfsr.getLsbD 0 then -32768 else 32767, 0)
  else
    let next : Option Int := match x.vcFmt v, k.fifo with
      | false, a :: _ => some (a.toInt * 256)
      | true, a :: b :: _ => some ((b ++ a).toInt)
      | _, _ => none
    (match x.vcInterp v, next with
      | true, some b => lerp k.cur b frac
      | _, _ => k.cur, 0)

/-- One shift of the LFSR (R326). -/
def lfsrShift (short : Bool) (l : BitVec 15) : BitVec 15 :=
  let f := l.getLsbD 0 ^^ l.getLsbD 1
  let n := putBit (l >>> 1) 14 f
  if short then putBit n 6 f else n

/-- `n` stream pops. -/
def Cell.streamPops (v : Fin 16) : Nat → Cell → Cell
  | 0, x => x
  | n + 1, x => Cell.streamPops v n (x.streamPop v)

/-- The phase of an active voice moves on after its output (R324, R325, R327). -/
def Cell.vcAdvance (x : Cell) (v : Fin 16) : Cell :=
  let k := x.snd.voices.get v
  let f := x.vcFreq v
  if !k.active then x
  else if v.val < 8 then
    let p := k.phase + f
    let len := x.vcLen v
    if p / 4096 < len then x.modVoice v fun k => { k with phase := p, pre := none }
    else if x.vcLoop v then
      let st := x.vcLstart v
      let span := (len - st) * 4096
      x.modVoice v fun k => { k with phase := st * 4096 + (p - st * 4096) % span, pre := none }
    else x.voiceEnd v
  else if v.val < 14 then
    let p := k.phase + f
    let short := (x.live8 (vcBase v + 8)).getLsbD 0
    x.modVoice v fun k => { k with
      phase := p % 65536
      lfsr := if 12 ≤ v.val && 65536 ≤ p then lfsrShift short k.lfsr else k.lfsr }
  else
    let p := k.phase + f
    Cell.streamPops v (p / 4096) (x.modVoice v fun k => { k with phase := p % 4096 })

/-! ## The mix of a sample point (R329, R332) -/

/-- Voices are being silenced (R332). -/
def Cell.sndQuiet (x : Cell) : Bool :=
  match x.actual with
  | .paused => true
  | .faulted => true
  | .halted => x.regBit 0x0C18 7 || x.ctl.prior == .paused
  | .migrating => false
  | .empty => false | .loaded => false | .running => false | .sleep => false

/-- The contribution of a voice on one side. -/
def contribution (r : Int) (env vol pan : Nat) : Int := r * 256 * env * vol * pan / 975375

/-- A change of sign between two contributions. -/
def signChange (a b : Int) : Bool := (decide (a < 0) && decide (0 < b)) || (decide (0 < a) && decide (b < 0))

/-- One voice at a sample point: its contribution, and its advance unless it has fallen silent. -/
def Cell.voicePoint (x : Cell) (late : BitVec 16) (v : Fin 16) : Cell :=
  let k := x.snd.voices.get v
  if k.silent then x.modVoice v fun k => { k with cl := 0, cr := 0 }
  else
    let miss := late.getLsbD v.val && decide (v.val < 8) && k.active && k.pre.isNone
    let (r, st) := if miss then (k.raw, 0) else x.vcRaw v
    let vol := (x.live8 (vcBase v + 1)).toNat
    let pan := (x.live8 (vcBase v + 2)).toNat
    let cl := contribution r k.env vol (pan % 16)
    let cr := contribution r k.env vol (pan / 16)
    let stop := x.sndQuiet && ((cl == 0 && cr == 0) || signChange k.cl cl || signChange k.cr cr)
    let y := x.modVoice v fun k => { k with
      raw := r, stat := k.stat ||| st, silent := stop, pos := k.phase / 4096
      cl := if stop then 0 else cl, cr := if stop then 0 else cr }
    let y := if miss then { y with snd := { y.snd with stat := y.snd.stat ||| 4 } } else y
    if stop then y else y.vcAdvance v

/-- Saturate to 24 bits (R329). -/
def sat24 (v : Int) : Int := clampInt (-8388608) 8388607 v

/-- NEED of the stream voices after pops, against the level before (R327), and the level shown. -/
def Cell.streamNeed (x : Cell) (before : Nat) (v : Fin 16) : Cell :=
  let thr := (x.live8 (vcBase v + 0x0D)).toNat
  x.modVoice v fun k => { k with
    level := k.fifo.length
    stat := if thr < before && decide (k.fifo.length ≤ thr) then k.stat ||| 0x20 else k.stat }

/-- END and NEED of the voices; with `masked`, only those whose enable is 1 (R333). -/
def Cell.sndEdges (x : Cell) (masked : Bool) : BitVec 32 :=
  allVoices.foldl
    (fun m v =>
      let c := x.live8 (vcBase v)
      let s := (x.snd.voices.get v).stat
      putBit (putBit m (2 * v.val) (s.getLsbD 0 && (!masked || c.getLsbD 4))) (2 * v.val + 1)
        (s.getLsbD 5 && (!masked || c.getLsbD 5))) 0

/-- FMT 1 in G1 at a sample point sets CFG (R331). -/
def Cell.fmtLimited (x : Cell) : Bool := x.prof == 1 && allVoices.any fun v => (x.live8 (vcBase v)).getLsbD 2

/-- One sample point at pixel `pix` of the present cell beam line (R319 to R333). -/
def Cell.soundPoint (x : Cell) (pix : Nat) (late : BitVec 16) : Cell :=
  let seen := x.sndEdges false
  let on0 := (x.live8 0x0C18).getLsbD 2
  let quiet := x.sndQuiet
  let x := if quiet then x else allVoices.foldl (fun y v => y.modVoice v fun k => { k with silent := false }) x
  let x := if on0 then allVoices.foldl (fun y v => if (y.snd.voices.get v).silent then y else y.envTick v) x else x
  let lev (v : Fin 16) := (x.snd.voices.get v).fifo.length
  let (l14, l15) := (lev 14, lev 15)
  let x := x.sndTake pix
  let on := (x.live8 0x0C18).getLsbD 2
  let x := if on then allVoices.foldl (fun y v => y.voicePoint late v) x else x
  let x := (x.streamNeed l14 14).streamNeed l15 15
  let sum (f : Voice → Int) : Int := if on then (allVoices.map fun v => f (x.snd.voices.get v)).sum else 0
  let l := sum (·.cl) * (x.live8 0x0C1A).toNat / 255
  let r := sum (·.cr) * (x.live8 0x0C1B).toNat / 255
  let clip := sat24 l != l || sat24 r != r
  let y := { x with snd := { x.snd with
    mixL := sat24 l, mixR := sat24 r
    stat := x.snd.stat ||| flagIf clip 1 ||| flagIf x.fmtLimited 8 } }
  if y.sndEdges true &&& ~~~seen != 0 then y.edge 18 else y

/-! ## Reads (R322, R334) -/

def Cell.viewSnd (x : Cell) (a : Nat) : Byte :=
  let v := voiceOf a
  let k := x.snd.voices.get v
  let o := a % 32
  if a = 0x0C19 then x.snd.stat ||| BitVec.ofNat 8 (16 * (if x.snd.keff = 4 then 2 else x.snd.keff - 1))
  else if a = 0x0C1C || a = 0x0C1D then byteOf x.snd.ends.toNat (a - 0x0C1C)
  else if o = 3 then k.stat ||| flagIf k.active 2 ||| BitVec.ofNat 8 (4 * k.envPh)
  else if v.val < 8 && (o = 0x10 || o = 0x11) then byteOf k.pos (o - 0x10)
  else if isFifo a then 0
  else if 14 ≤ v.val && o = 0x0C then BitVec.ofNat 8 k.level
  else x.reg8 a

end Sys2Proof.Machine
end

