-- ==== Sys2Proof/Machine/AudioOps.lean ====
section
/-! DEFINITION. Device audio: gain stages, bridges, headset ports, jacks and buttons, audio packets (R335 to R350, R413). -/

namespace Sys2Proof.Machine

def State.modPort (s : State) (n : Fin 4) (f : HsPort → HsPort) : State := { s with ports := s.ports.set n (f (s.ports.get n)) }

/-- Object `sub` of port `n` (R349). -/
def State.hs (s : State) (n : Fin 4) (sub d : Nat) : Nat := s.objOr (0x6100 + n.val) sub d

/-- Sample rate of a port in Hz, and its family: `true` for 44.1 kHz. -/
def hsRateHz (code : Nat) : Nat := if code = 1 then 44100 else if code = 2 then 48000 else if code = 3 then 88200 else 96000
def hsFamily (code : Nat) : Bool := code % 2 == 1

/-! ## Gain stages (R340, R341) -/

/-- A quotient rounded to the nearest value, halves away from zero. -/
def roundDiv (a : Int) (b : Nat) : Int := if 0 ≤ a then (2 * a + b) / (2 * b) else -((2 * (-a) + b) / (2 * b))

/-- A sample through a gain code; code 0 is an exact mute. -/
def gained (g : Byte) (v : Int) : Int := if g = 0 then 0 else roundDiv (v * Config.gainMul g) 16777216

/-- A gain is written. -/
def GainCh.write (g : GainCh) (v : Byte) : GainCh :=
  if g.pend then { g with target := v } else if v = g.cur then g else { g with target := v, pend := true, wait := 0 }

/-- The pending gain is applied. -/
def GainCh.apply (g : GainCh) : GainCh := { g with cur := g.target, pend := false, wait := 0 }

/-- Samples in 32 ms. -/
def gainLimit (rate : Nat) : Nat := (32 * rate + 999) / 1000

/-- One sample at the stage's input. -/
def GainCh.sample (g : GainCh) (v : Int) (limit : Nat) : GainCh :=
  let n :=
    if !g.pend then g
    else if v = 0 || signChange g.prev v || decide (limit ≤ g.wait + 1) then g.apply
    else { g with wait := g.wait + 1 }
  { n with prev := v }

/-- A stage starts from 0 towards `v`. -/
def GainCh.fromZero (v : Byte) : GainCh := { cur := 0, target := v, pend := v != 0 }

/-! ## Headset ports (R337 to R343) -/

/-- The microphone path carries samples: READY with an accessory that has a microphone (R345, R346). -/
def HsPort.micOn (p : HsPort) : Bool := p.jack == 2 && (p.kind == 2 || p.kind == 3 || p.kind == 4)

/-- Step 2 of R339: the multiplexer selects the source, and the bridge acquires it. -/
def HsPort.select (p : HsPort) (src : Word) : HsPort :=
  { p with src := src, stage := 2, bridge := if src.getLsbD 0 then 1 else 0 }

/-- Step 1 of R339 is complete when both earpiece gains are 0. -/
def HsPort.muted (p : HsPort) : Bool := p.earL.cur == 0 && p.earR.cur == 0 && !p.earL.pend && !p.earR.pend

/-- A write of HS_SRC (R339). -/
def HsPort.writeSrc (p : HsPort) (old new : Word) : HsPort :=
  if old = new then p
  else if p.stage = 2 then p.select new
  else
    let q := { p with stage := 1, earL := p.earL.write 0, earR := p.earR.write 0 }
    if q.muted then q.select new else q

/-- A write of HS_EAR_GAIN: during a change of source it is taken at its end (R339). -/
def HsPort.writeEar (p : HsPort) (v : Half) : HsPort :=
  if p.stage = 0 then { p with earL := p.earL.write (v.setWidth 8), earR := p.earR.write ((v >>> 8).setWidth 8) } else p

/-- The port's bridge becomes LOCKED (R338, R339). -/
def HsPort.lock (p : HsPort) (ear : Half) : HsPort :=
  if p.stage = 2 then ({ p with bridge := 2, stage := 0 } : HsPort).writeEar ear else { p with bridge := 2 }

/-- The last entry of a 24-bit sample into a slot: 16-bit slots carry the rounded high bits (R343). -/
def slotSample (wide : Bool) (v : Int) : BitVec 24 :=
  BitVec.ofInt 24 (if wide then v else 256 * clampInt (-32768) 32767 (roundDiv v 256))

/-- The cell that an HS_SRC value names, if it is one whose beam runs: here as an own cell or as a guest (R338). -/
def State.srcRuns (s : State) (src : Word) : Bool :=
  let c : CellNo := ⟨src.toNat / 16 % 128, Nat.mod_lt _ (by decide)⟩
  let x := s.cell c
  src.getLsbD 0 && x.beam.on &&
  (if BitVec.ofNat 3 (src.toNat / 2) = s.devId then x.kp.guest.isNone else x.kp.guest == some (BitVec.ofNat 3 (src.toNat / 2)))

/-- One sample of port `n` with the microphone sample `mic`. -/
def State.portSample (s : State) (n : Fin 4) (mic : BitVec 24) : State :=
  let p := s.ports.get n
  let p := { p with bridge := if !s.srcRuns p.src then 0 else if p.bridge = 0 then 1 else p.bridge }
  let limit := gainLimit (hsRateHz (s.hs n 2 0))
  let locked := p.bridge == 2
  let l : Int := if locked then (Config.freeSample s.freeCtr).toInt else 0
  let r : Int := if locked then (Config.freeSample (s.freeCtr + 1)).toInt else 0
  let m : Int := if p.micOn then mic.toInt else 0
  let earL := p.earL.sample l limit
  let earR := p.earR.sample r limit
  let side := p.side.sample m limit
  let sl := gained earL.cur l + gained side.cur m
  let sr := gained earR.cur r + gained side.cur m
  let clips := b2n (sat24 sl != sl) + b2n (sat24 sr != sr)
  let on := p.jack == 2
  let wide := s.hs n 1 0 / 4 % 2 == 1
  let q := { p with
    earL := earL, earR := earR, side := side, mic := p.mic.sample m limit, micDst := BitVec.ofNat 32 (s.hs n 4 0)
    clip := if on then satAdd p.clip clips else p.clip
    outL := if on then slotSample wide (sat24 sl) else 0
    outR := if on then slotSample wide (sat24 sr) else 0 }
  let q := if q.stage = 1 && q.muted then q.select (BitVec.ofNat 32 (s.hs n 3 0)) else q
  { (s.modPort n fun _ => q) with freeCtr := s.freeCtr + (if locked then 2 else 0) }

/-- One 48 kHz sample of the host path of cell `c`, whose gains are stepping. -/
def State.hostSample (s : State) (c : CellNo) : State :=
  let n := (s.cell c).snd
  if !n.gainL.pend && !n.gainR.pend then s
  else
    let l : Int := if n.bridge == 2 then (Config.freeSample s.freeCtr).toInt else 0
    let r : Int := if n.bridge == 2 then (Config.freeSample (s.freeCtr + 1)).toInt else 0
    { (s.modCell c fun x => { x with snd := { x.snd with
        gainL := x.snd.gainL.sample l 1536, gainR := x.snd.gainR.sample r 1536 } }) with freeCtr := s.freeCtr + 2 }

/-- One sample of a family (R335, R341). -/
def State.familySample (s : State) (fam : Bool) (mics : List (BitVec 24)) : State :=
  let s := (List.finRange 4).foldl
    (fun s n => if s.hs n 2 0 != 0 && hsFamily (s.hs n 2 0) == fam then s.portSample n (mics.getD n.val 0) else s) s
  if fam then s else allCells.foldl State.hostSample s

/-! ## Jacks and buttons (R345 to R347) -/

/-- TYPE of an idle code (R346). -/
def micType (code : Nat) : Byte :=
  if code ≤ 204 then 1 else if code ≤ 1365 then 2 else if code ≤ 2730 then 3 else if code ≤ 3890 then 4 else 5

/-- The port enters READY: the earpiece and side-tone gains step up from 0. -/
def State.jackReady (s : State) (n : Fin 4) (kind : Byte) (code : Half) : State :=
  let ear := BitVec.ofNat 16 (s.hs n 5 0)
  (s.modPort n fun p => { p with
    jack := 2, kind := kind, micCode := code
    earL := if p.stage = 0 then .fromZero (ear.setWidth 8) else p.earL
    earR := if p.stage = 0 then .fromZero ((ear >>> 8).setWidth 8) else p.earR
    side := .fromZero (BitVec.ofNat 8 (s.hs n 6 0)) }).fireShared ⟨0x88 + n.val, by omega⟩

/-- Eight conversions of a typing. -/
def State.jackTyped (s : State) (n : Fin 4) (codes : List Nat) : State :=
  let p := s.ports.get n
  let hi := codes.foldl max 0
  let lo := codes.foldl min 4095
  if hi ≤ lo + 64 then
    let mean := codes.sum / max 1 codes.length
    s.jackReady n (micType mean) (BitVec.ofNat 16 mean)
  else if 4 ≤ p.typings + 1 then s.jackReady n 5 p.micCode
  else s.modPort n fun p => { p with typings := p.typings + 1 }

/-- The button of a reading, for an idle code: 0 none, 1 to 4 B0 to B3 (R347). -/
def buttonOf (idle code : Nat) : Byte :=
  if code ≤ 150 then 1
  else if idle < 2048 then 0
  else if code ≤ 490 then 2 else if code ≤ 820 then 3 else if code ≤ 1300 then 4 else 0

/-- A reading of the microphone line: a button state that 4 readings agree on is accepted. -/
def State.buttonRead (s : State) (n : Fin 4) (code : Nat) : State :=
  let p := s.ports.get n
  let b := buttonOf p.micCode.toNat code
  let run := if b = p.btnNext then p.btnRun + 1 else 1
  let s := s.modPort n fun p => { p with btnNext := b, btnRun := min 4 run }
  if decide (4 ≤ run) && b != p.btn then (s.modPort n fun p => { p with btn := b }).fireShared ⟨0x8C + n.val, by omega⟩ else s

/-! ## Audio packets (R348, R413) -/

/-- Words of 24-bit samples at 32 or 16 bits each. -/
def sampleWords (bits24 : Bool) (l : List Int) : List Long :=
  packWords ((l.map fun v =>
    if bits24 then toBytes (BitVec.ofInt 32 v).toNat 4
    else toBytes (BitVec.ofInt 16 (clampInt (-32768) 32767 (roundDiv v 256))).toNat 2).flatten)

/-- Header word of an audio packet. -/
def audioHeader (stream port : Nat) (bits24 gap : Bool) (index : Word) : Long :=
  BitVec.ofNat 64 (stream + 4 * port + 256 * 48 + 65536 * b2n bits24 + 131072 * b2n gap + index.toNat * 2 ^ 32)

/-- Two packets are of one stream: STREAM and PORT agree. -/
def sameStream (a b : Packet) : Bool :=
  match a.words, b.words with
  | u :: _, v :: _ => u.toNat % 32 == v.toNat % 32
  | _, _ => false

/-- GAP is set in a packet's header. -/
def Packet.withGap (p : Packet) : Packet :=
  match p.words with
  | u :: r => { p with words := putBit u 17 true :: r }
  | [] => p

/-- Mark the first packet of a stream; `true` when there is one. -/
def markGap (q : Packet) : List Packet → List Packet × Bool
  | [] => ([], false)
  | p :: r => if sameStream p q then (p.withGap :: r, true) else
      let m := markGap q r
      (p :: m.1, m.2)

/-- Stream 1 of the port that a header names. -/
def gapPort (p : Packet) : Option Nat :=
  match p.words with
  | u :: _ => if u.toNat % 4 = 1 then some (u.toNat / 4 % 8) else none
  | [] => none

/-- With 16 packets waiting the oldest is dropped: AUD_DROP, and GAP on the next packet of its stream. -/
def CellHost.audioRoom (h : CellHost) : CellHost :=
  match h.audio.waiting with
  | [] => h
  | p :: _ =>
    if h.audio.waiting.length < 16 then h
    else
      let q := h.audio.dropOldest
      let m := markGap p q.waiting
      let h := { h with audio := { q with waiting := m.1 }, audDrop := satInc h.audDrop }
      if m.2 then h
      else match gapPort p with
        | none => { h with gap0 := true }
        | some n => { h with gap1 := putBit h.gap1 n true }

/-- A packet of a stream enters the audio queue of cell `c`. -/
def State.audioEnqueue (s : State) (c : CellNo) (stream port : Nat) (bits24 : Bool) (index : Word) (l : List Int) : State :=
  if !s.queueOn (.audio c) then s
  else s.modHost c fun h =>
    let h := h.audioRoom
    let gap := if stream = 0 then h.gap0 else h.gap1.getLsbD port
    let h := if stream = 0 then { h with gap0 := false } else { h with gap1 := putBit h.gap1 port false }
    { h with audio := h.audio.enqueue (audioHeader stream port bits24 gap index :: sampleWords bits24 l) }

/-- `n` free samples from the counter, or zeros. -/
def freeSamples (ctr n : Nat) (on : Bool) : List Int :=
  (List.range n).map fun i => if on then (Config.freeSample (ctr + i)).toInt else 0

/-- AUD_HOST_EN and AUD_HOST_BITS of cell `c` (R350). -/
def State.audHostEn (s : State) (c : CellNo) : Bool := s.objOr (0x4004 + 16 * c.val) 1 1 != 0
def State.audBits24 (s : State) (c : CellNo) : Bool := s.objOr (0x4004 + 16 * c.val) 2 24 == 24

/-- 48 sample frames of stream 0: the bridge's output is the device's own (R338, assumption 6), and 0 where the bridge is
not LOCKED or the gains are 0. -/
def State.audioStream0 (s : State) (c : CellNo) : State :=
  if !s.audHostEn c || (s.cell c).kp.guest.isSome then s
  else
    let n := (s.cell c).snd
    let on := n.bridge == 2 && !(n.gainL.cur == 0 && n.gainR.cur == 0 && !n.gainL.pend && !n.gainR.pend)
    let s := s.audioEnqueue c 0 0 (s.audBits24 c) n.frames0 (freeSamples s.freeCtr 96 on)
    { (s.modCell c fun x => { x with snd := { x.snd with frames0 := x.snd.frames0 + 48 } }) with
      freeCtr := s.freeCtr + (if on then 96 else 0) }

/-- 48 sample frames of stream 1 of port `n`, whose HS_MICDST names the cell. -/
def State.audioStream1 (s : State) (c : CellNo) (n : Fin 4) : State :=
  let p := s.ports.get n
  if !p.micDst.getLsbD 0 || p.micDst.toNat / 16 % 128 != c.val || BitVec.ofNat 3 (p.micDst.toNat / 2) != s.devId then s
  else
    let on := p.micOn && !(p.mic.cur == 0 && !p.mic.pend)
    let s := s.audioEnqueue c 1 n.val (s.audBits24 c) ((s.cell c).snd.frames1.get n) (freeSamples s.freeCtr 48 on)
    { (s.modCell c fun x => { x with snd := { x.snd with frames1 := x.snd.frames1.set n (x.snd.frames1.get n + 48) } }) with
      freeCtr := s.freeCtr + (if on then 48 else 0) }

/-- PD61 comes on: ports at their reset values, jacks detected anew (R493). -/
def HsPort.reset (p : HsPort) : HsPort := { relocks := p.relocks, clip := p.clip, micDst := p.micDst }

end Sys2Proof.Machine
end

