-- ==== Sys2Proof/Machine/MemOps.lean ====
section
/-! DEFINITION. States of power domains, training of the RLD channels, memory errors and the patrol scrub (R489, R503, R514 to
R521). -/

namespace Sys2Proof.Machine

/-! ## Power domains -/

/-- State of domain `d`, and an update of it. -/
def State.dom (s : State) (d : Nat) : Dom := s.pwr.doms[d]?.getD {}
def State.modDom (s : State) (d : Nat) (f : Dom → Dom) : State :=
  s.modPwr fun p => { p with doms := p.doms.setIfInBounds d (f (s.dom d)) }

/-- Domain `d` changes state: notice PD_STATE (R489). -/
def State.setDom (s : State) (d : Nat) (st : Byte) : State :=
  if (s.dom d).st = st then s else (s.modDom d fun k => { k with st := st }).raise 0x71 d false st.toNat

/-- PD_EN of domain `d` (R511). -/
def State.pdEn (s : State) (d : Nat) : Bool := s.objOr (0x8100 + d) 1 1 != 0

/-- The part has domain `d`: combs 18 to 23 are absent on an AK-6424 (R511). -/
def State.domPresent (s : State) (d : Nat) : Bool :=
  !(decide (17 + Config.combCount s.part ≤ d) && decide (d < 41)) && decide (d < 63)

/-! ## Channels (R514, R515, R517) -/

def State.modChan (s : State) (c : Fin 8) (f : Rl → Rl) : State :=
  { s with memu := { s.memu with chans := s.memu.chans.set c (f (s.memu.chans.get c)) } }

/-- Frames of a trained channel. -/
def chanFrames (density : Byte) : Nat := if density = 2 then 16384 else 8192

/-- A channel trains. -/
def State.chanOk (s : State) (c : Fin 8) (us : Nat) : State :=
  s.modChan c fun r => { r with st := 2, trainUs := BitVec.ofNat 32 us }

/-- A channel fails: notice RLD_TRAIN_FAIL; it is switched off, with the event of R503. -/
def State.chanFail (s : State) (c : Fin 8) (code us : Nat) : State :=
  let s := s.modChan c fun r => { r with st := 4, trainUs := BitVec.ofNat 32 us, counted := false }
  let s := s.raise 0x82 c.val false code
  (((s.objPut (0x8100 + 41 + c.val) 1 1 0).setDom (41 + c.val) 0)).event 0x71 (41 + c.val) 0 0

/-- The training of one channel ends; `density` is the device density, 0 while none has trained. -/
def State.chanTrained (s : State) (c : Fin 8) (t : ChanTrain) : State :=
  match t with
  | .ok d us =>
    if d.val = 0 then s.chanFail c 3 us
    else if s.memu.density = 0 then ({ s with memu := { s.memu with density := BitVec.ofNat 8 d.val } } : State).chanOk c us
    else if s.memu.density.toNat = d.val then s.chanOk c us
    else s.chanFail c 1 us
  | .fail code us => s.chanFail c code.val us
  | .unpowered => s.modChan c fun r => { r with st := 0, counted := false }

/-- Channels that are trained. -/
def State.trainedChans (s : State) : List (Fin 8) := (List.finRange 8).filter fun c => (s.memu.chans.get c).st == 2

/-- TRAIN ends for the channels: the density is that of the first to train, their frames come into use. -/
def State.trainAll (s : State) (l : List ChanTrain) : State :=
  let s := { s with memu := { s.memu with density := 0 } }
  let s := (List.finRange 8).foldl (fun s c => s.chanTrained c (l.getD c.val .unpowered)) s
  let n := s.trainedChans.length
  { s with memu := { s.memu with
      frames := n * chanFrames s.memu.density
      chans := s.memu.chans.map fun r => { r with counted := r.st == 2 } } }

/-- The suspension area: the entries below F, one for the state of each cell (R486). -/
def State.formArea (s : State) (area : List (BitVec 17)) : State :=
  (List.range 128).foldl
    (fun s n => s.setPte (s.areaBase + n) (mkPte 1 (.rld (area.getD n 0)) (area.getD n 0) 0 1 n false)) s

/-- The frames offered for the suspension area are 128 different frames in use (R486). -/
def State.areaOk (s : State) (area : List (BitVec 17)) : Bool :=
  area.length == 128 && (area.map (·.toNat)).Nodup &&
  area.all fun f => (s.memu.chans[f.toNat % 8]?.getD {}).counted && (s.memu.density == 2 || decide (f.toNat / 512 < 128))

/-! ## Errors (R519, R520) -/

/-- The unit of memory that holds a page's data: 0 to 7 channels, 8 wax store, 9 + k cluster SRAM. -/
def State.memUnitOf (s : State) (page : Nat) : Nat :=
  let e := s.pte page
  if pteLoc e = 1 then 8 else if pteLoc e = 2 then 9 + pteOslot e / 32 % 16 else pteChan e

/-- Unit field of the notices (R530). -/
def memUnitField (u : Nat) : Nat := if u < 9 then u else 16 + (u - 9)

/-- Counts of a correctable error. -/
def State.countCe (s : State) (u : Nat) : State :=
  if u < 8 then s.modChan (Fin.ofNat 8 u) fun r => { r with ce := r.ce + 1 }
  else if u = 8 then { s with memu := { s.memu with waxCe := s.memu.waxCe + 1 } }
  else { s with memu := { s.memu with sramCe := s.memu.sramCe + 1 } }

/-- One more correctable error in the unit's second; the notice is due at most once in it. -/
def CeRate.add (r : CeRate) (now lim : Nat) : CeRate × Bool :=
  let r := if r.start + 1000000000 ≤ now then { start := now, n := 0, noted := false } else r
  let n := r.n + 1
  ({ r with n := n, noted := r.noted || decide (lim ≤ n) }, !r.noted && decide (lim ≤ n))

/-- A read corrects a word of unit `u`. -/
def State.correctable (s : State) (u : Nat) : State :=
  let s := s.countCe u
  let r := (s.memu.rates[u]?.getD {}).add s.devTime.toNat (s.objOr 0xC000 6 1000)
  let s := { s with memu := { s.memu with rates := s.memu.rates.setIfInBounds u r.1 } }
  if r.2 then s.raise 0x81 (memUnitField u) false r.1.n else s

/-- The bytes of word `word` of page `page` become FFh for every cell that has the page. -/
def State.poison (s : State) (page word : Nat) : State :=
  (s.sharers page).foldl
    (fun s c => s.modCell c fun x =>
      x.writeMemList (32768 * (x.kp.pmap.findIdx fun i => i == page) + 8 * word) (List.replicate 8 0xFF)) s

/-- An uncorrectable error of unit `u`, in a word of `page` if it belongs to one. -/
def State.uncorrectable (s : State) (u : Nat) (page : Option Nat) (word : Nat) : State :=
  let s :=
    if u < 8 then s.modChan (Fin.ofNat 8 u) fun r =>
      { r with ue := satInc r.ue, ueLast := BitVec.ofNat 64 (page.getD 0 % 131072 + 131072 * word) }
    else if u = 8 then { s with memu := { s.memu with waxUe := satInc s.memu.waxUe } }
    else { s with memu := { s.memu with sramUe := satInc s.memu.sramUe } }
  let s := match page with
    | some p => s.poison p word
    | none => s
  s.raiseEvent 0x80 (memUnitField u) false (page.getD 0xFFFFFFFF)

/-- A read of cell space byte `a` by cell `c`, whose word's check bits show `ecc`. -/
def State.eccRead (s : State) (c : CellNo) (a : Nat) (ecc : EccState) : State × Byte :=
  match (s.cell c).kp.pmap[a / 32768]? with
  | none => (s, (s.cell c).readMem a)
  | some p =>
    match ecc with
    | .clean => (s, (s.cell c).readMem a)
    | .correctable => (s.correctable (s.memUnitOf p), (s.cell c).readMem a)
    | .uncorrectable => (s.uncorrectable (s.memUnitOf p) (some p) (a % 32768 / 8), 0xFF)

/-- The unit of a patrol scrub. -/
def scrubUnit : ScrubUnit → Nat
  | .channel c => c.val
  | .wax => 8
  | .sram k => 9 + k.val

/-- The scrub works on the unit (R521): its storage is powered and not in self-refresh. -/
def State.scrubOn (s : State) (u : ScrubUnit) : Bool :=
  s.objOr 0xC000 5 24 != 0 && s.dictServed &&
  (match u with
    | .channel c => (s.memu.chans.get c).st == 2
    | .wax => true
    | .sram k => s.domOn (1 + k.val))

/-- A patrol read (R519 to R521). -/
def State.scrub (s : State) (u : ScrubUnit) (page : Option Nat) (word : Nat) (ecc : EccState) : State :=
  match ecc with
  | .clean => s
  | .correctable => s.correctable (scrubUnit u)
  | .uncorrectable => s.uncorrectable (scrubUnit u) page word

end Sys2Proof.Machine
end

