-- ==== Sys2Proof/Machine/PinOps.lean ====
section
/-! DEFINITION. General-purpose pins: levels, pad outputs, latches, the cells' view, player buttons (R534 to R544). -/

namespace Sys2Proof.Machine

def State.modPin (s : State) (p : Fin 128) (f : Pin → Pin) : State := { s with pins := s.pins.set p (f (s.pins.get p)) }

/-- Object `sub` of pin `p` (R544); GP_PAD has default 21h. -/
def State.gp (s : State) (p : Nat) (sub : Nat) : Nat := s.objOr (0x2700 + p) sub (if sub = 2 then 0x21 else 0)

/-- GB_VOLT of the bank of pin `p`. -/
def State.bankOf (s : State) (p : Nat) : Byte := s.banks[p / 16]?.getD 0

/-- The pin's level under R538: an unpowered bank reads 0 before inversion. -/
def State.pinLevel (s : State) (p : Fin 128) : Bool :=
  ((s.pins.get p).level && s.bankOf p.val != 0) != (s.gp p.val 3 / 16 % 2 == 1)

/-! ## Owners (R539, R541) -/

/-- GP_OWNER names the slot `k` of cell `c` of device `d`. -/
def ownsSlot (o : Nat) (d : BitVec 3) (c k : Nat) : Bool :=
  o % 2 == 1 && o / 2 % 8 == d.toNat && o / 16 % 128 == c && o / 2048 % 16 == k

/-- Home device of the cell that holds context `c` here. -/
def State.homeOf (s : State) (c : CellNo) : BitVec 3 := (s.cell c).kp.guest.getD s.devId

/-- The pin in slot `k` of cell `c`. -/
def State.slotPin (s : State) (c : CellNo) (k : Nat) : Option (Fin 128) :=
  (List.finRange 128).find? fun p => ownsSlot (s.gp p.val 4) (s.homeOf c) c.val k

/-- GV_IN. -/
def State.gvIn (s : State) (c : CellNo) : Nat :=
  (List.range 16).foldl
    (fun n k => match s.slotPin c k with | some p => n + b2n (s.pinLevel p) * 2 ^ k | none => n) 0

/-- The cell view's registers (R541). -/
def State.viewPins (s : State) (c : CellNo) (a : Nat) : Byte :=
  if a < 0x0E90 then (match s.slotPin c (a % 16) with | some p => BitVec.ofNat 8 p.val | none => 0x80)
  else if a < 0x0E94 then (s.cell c).reg8 a
  else if 0x0E98 ≤ a then byteOf (s.gvIn c) (a - 0x0E98)
  else 0

/-- Writes of GV_OUT, GV_OE, GV_SET and GV_CLR. -/
def Cell.writePins (x : Cell) (a : Nat) (v : Byte) : Cell :=
  if 0x0E90 ≤ a && a < 0x0E94 then x.putReg a v
  else if 0x0E94 ≤ a && a < 0x0E96 then x.putReg (a - 4) (x.reg8 (a - 4) ||| v)
  else if 0x0E96 ≤ a && a < 0x0E98 then x.putReg (a - 6) (x.reg8 (a - 6) &&& ~~~v)
  else x

/-! ## Pads (R535, R536, R542) -/

/-- Output level and enable of F0: GP_OUT, or the owner cell's view where that cell runs here. -/
def State.f0 (s : State) (p : Fin 128) : Bool × Bool :=
  let o := s.gp p.val 4
  if o % 2 = 0 then (s.gp p.val 5 % 2 == 1, s.gp p.val 5 / 2 % 2 == 1)
  else
    let c : CellNo := ⟨o / 16 % 128, Nat.mod_lt _ (by decide)⟩
    if s.homeOf c = BitVec.ofNat 3 (o / 2) then
      (((s.cell c).reg16 0x0E90).testBit (o / 2048 % 16), ((s.cell c).reg16 0x0E92).testBit (o / 2048 % 16))
    else (false, false)

/-- What function `f` of a pin receives: 0 unless its bit of GP_FUNC is 1 and the bank is powered (R534, R535). -/
def State.fnOpen (s : State) (p f : Nat) : Bool := (s.gp p 1).testBit f && s.bankOf p != 0

/-- Pins whose signal of F2, F3 or F4 is an output (R535): the CAN transmit signals; TX_EN, TXD0 to TXD3, TX_ER, MDC and
MDIO; and MCLK, BCLK, FS and DOUT of each headset port. -/
def serialOut (p : Nat) : Bool :=
  p == 0 || p == 2 || (decide (17 ≤ p) && decide (p ≤ 22)) || p == 32 || p == 33 ||
  (decide (64 ≤ p) && decide (p < 88) && decide ((p - 64) % 6 < 4))

/-- Output level and enable of F2, F3 and F4: the serial signal's level at an instant is a free value, and so is the
enable of MDIO, which is driven in part of a transfer (assumption 33). -/
def State.serial (s : State) (p : Fin 128) : Bool × Bool :=
  let v := Config.freeByte (s.freeCtr + p.val)
  let on := Nat.land (s.gp p.val 1) 0x1C != 0 && serialOut p.val
  (v.getLsbD 0, on && (p.val != 33 || v.getLsbD 1))

/-- F5: HB_FRAME_O, high for 1 µs of a house frame, whose level is a free value (assumption 33), and Hh_VB_O, high during
the vertical blanking of head h. -/
def State.f5 (s : State) (p : Fin 128) : Bool :=
  if p.val = 96 then (Config.freeByte (s.freeCtr + p.val)).getLsbD 0
  else if 97 ≤ p.val ∧ p.val ≤ 100 then
    let k := s.heads[p.val - 97]?.getD {}
    k.on && !k.waiting && decide (s.objOr (0xB000 + (p.val - 97)) 6 1080 ≤ k.line)
  else false

/-- Level and enable that the pad logic drives (R536). -/
def State.padDrive (s : State) (p : Fin 128) : Bool × Bool :=
  let fn := s.gp p.val 1
  let on := s.bankOf p.val != 0
  let f0 := if fn.testBit 0 then s.f0 p else (false, false)
  let f24 := s.serial p
  let f5 := if fn.testBit 5 then (s.f5 p, true) else (false, false)
  ((f0.1 && f0.2) || (f24.1 && f24.2) || (f5.1 && f5.2), on && (f0.2 || f24.2 || f5.2))

/-- Every pad latches its level, enable and pull (R542). -/
def State.holdPads (s : State) : State :=
  { s with
    freeCtr := s.freeCtr + 128
    pwr := { s.pwr with padHeld := true }
    pins := Vector.ofFn fun p =>
      { s.pins.get p with latch := some ((s.padDrive p).1, (s.padDrive p).2, s.gp p.val 2 / 16 % 4) } }

/-- The latches are released in one pad-clock edge. -/
def State.releasePads (s : State) : State :=
  { s with pwr := { s.pwr with padHeld := false }, pins := s.pins.map fun p => { p with latch := none } }

/-- GP_LEVEL (R544). -/
def State.gpLevel (s : State) (p : Fin 128) : Nat := b2n (s.pinLevel p) + 2 * b2n (s.pins.get p).latch.isSome

/-! ## Player buttons (R540) -/

/-- GP_PLAYER feeds `button` of `port` of cell `c` of device `d`. -/
def feeds (o : Nat) (d : BitVec 3) (c port : Nat) : Bool :=
  o % 2 == 1 && o / 2 % 8 == d.toNat && o / 16 % 128 == c && o / 2048 % 8 == port

/-- The value of a port fed from pins. -/
def State.pinPort (s : State) (c : CellNo) (port : Nat) : Long :=
  let bits := (List.finRange 128).foldl
    (fun (b : Word) p =>
      if (s.gp p.val 1).testBit 1 && feeds (s.gp p.val 6) (s.homeOf c) c.val port && s.pinLevel p then
        putBit b (s.gp p.val 6 / 16384 % 32) true
      else b) 0
  bits ++ (0 : Word)

/-! ## Events -/

/-- The filtered level of a pin settles: selected edges fire shared source p (R538). -/
def State.pinSettle (s : State) (p : Fin 128) (level : Bool) : State :=
  let was := s.pinLevel p
  let s := s.modPin p fun k => { k with level := level }
  let now := s.pinLevel p
  let e := s.gp p.val 3 % 4
  if was = now then s
  else if (now && e.testBit 0) || (!now && e.testBit 1) then s.fireShared ⟨p.val, by omega⟩
  else s

/-- An edge of a pin in the pad-wake set (R543). -/
def State.padWakes (s : State) (p : Fin 128) (rising : Bool) : Bool :=
  let c := s.gp p.val 3
  let up := rising != (c / 16 % 2 == 1)
  c / 32 % 2 == 1 && s.bankOf p.val != 0 && ((up && c.testBit 0) || (!up && (c % 4).testBit 1))

end Sys2Proof.Machine
end

