-- ==== Sys2Proof/Machine/AudioCmd.lean ====
section
/-! DEFINITION. The commands of device audio, dictionary writes aside (R335 to R350, R413). -/

namespace Sys2Proof.Machine

/-- Device audio works while PD61 is on (R490). -/
def State.audioOn (s : State) : Bool := s.domOn 61

/-- AUD_CLK_STAT takes a new value: notice AUD_CLK (R336). -/
def State.setAudClk (s : State) (v : Byte) : State :=
  if v = s.audClk then s else { s with audClk := v }.raise 0x0E 0 false v.toNat

/-- MASTER_CLOCK_LOSS (R336): the family is synthesised. -/
def execMasterClockLoss (fam : Bool) (s : State) : Res :=
  let i := b2n fam
  .next (if s.audioOn then s.setAudClk (putBit (putBit s.audClk i false) (2 + i) true) else s)

/-- MASTER_CLOCK_RETURN (R336). -/
def execMasterClockReturn (fam : Bool) (s : State) : Res :=
  let i := b2n fam
  .next (if s.audioOn then s.setAudClk (putBit (putBit s.audClk i true) (2 + i) false) else s)

/-- BRIDGE_LOCK (R338, R339): a bridge that is ACQUIRING with a running source becomes LOCKED. -/
def execBridgeLock (b : BridgeId) (s : State) : Res :=
  match b with
  | .cell c => onCell c s <| .next <|
      if (s.cell c).snd.bridge = 1 then s.modCell c fun x => { x with snd := { x.snd with bridge := 2 } } else s
  | .port n => .next <|
      if s.audioOn && (s.ports.get n).bridge == 1 && s.srcRuns (s.ports.get n).src then
        s.modPort n fun p => p.lock (BitVec.ofNat 16 (s.hs n 5 0))
      else s

/-- GAIN_STEP_TIMEOUT (R341): 32 ms have passed without a zero crossing. -/
def execGainStepTimeout (g : GainId) (s : State) : Res :=
  let f (g : GainCh) : GainCh := if g.pend then g.apply else g
  match g with
  | .host c => onCell c s <| .next <|
      s.modCell c fun x => { x with snd := { x.snd with gainL := f x.snd.gainL, gainR := f x.snd.gainR } }
  | .ear n => .next <| s.modPort n fun p =>
      let q := { p with earL := f p.earL, earR := f p.earR }
      if q.stage = 1 && q.muted then q.select (BitVec.ofNat 32 (s.hs n 3 0)) else q
  | .side n => .next <| s.modPort n fun p => { p with side := f p.side }
  | .mic n => .next <| s.modPort n fun p => { p with mic := f p.mic }

/-- DET of port `n` can show insertion (`ins`) or removal: without F4 on its pin it reads 0, which HS_DET_POL takes as one
of the two (R345, R535). -/
def State.detShows (s : State) (n : Fin 4) (ins : Bool) : Bool := s.fnOpen (69 + 6 * n.val) 4 || (s.hs n 0x0C 0 != 0) == ins

/-- JACK_INSERT (R345). -/
def execJackInsert (n : Fin 4) (s : State) : Res :=
  .next (if s.audioOn && s.detShows n true && (s.ports.get n).jack == 0 then s.modPort n fun p => { p with jack := 1, typings := 0 } else s)

/-- JACK_TYPED (R345, R346). -/
def execJackTyped (n : Fin 4) (codes : List Nat) (s : State) : Res :=
  .next (if s.audioOn && (s.ports.get n).jack == 1 then s.jackTyped n codes else s)

/-- JACK_REMOVE (R345, R347). -/
def execJackRemove (n : Fin 4) (s : State) : Res :=
  let p := s.ports.get n
  if s.audioOn && s.detShows n false && p.jack != 0 then
    let s := s.modPort n fun p => { p with jack := 0, kind := 0, typings := 0, btn := 0, btnNext := 0, btnRun := 0, outL := 0, outR := 0 }
    .next (if p.jack = 2 then s.fireShared ⟨0x88 + n.val, by omega⟩ else s)
  else .next s

/-- BUTTON_SAMPLE (R347). -/
def execButtonSample (n : Fin 4) (code : Nat) (s : State) : Res :=
  .next (if s.audioOn && (s.ports.get n).micOn && s.hs n 0x0B 1 != 0 then s.buttonRead n code else s)

/-- AUDIO_PACKET (R348, R413). -/
def execAudioPacket (c : CellNo) (port : Option (Fin 4)) (s : State) : Res :=
  onCell c s <| .next <|
    match port with
    | none => s.audioStream0 c
    | some n => if s.audioOn then s.audioStream1 c n else s

/-- AUDIO_FAMILY_SAMPLE (R335, R341). -/
def execAudioFamilySample (fam : Bool) (mics : List (BitVec 24)) (s : State) : Res :=
  .next (if s.audioOn then s.familySample fam mics else s)

end Sys2Proof.Machine
end

