-- ==== Sys2Proof/Machine/HouseOps.lean ====
section
/-! DEFINITION. The house beam: its pulses, lock states and house frame starts, with the swap of the slot table and the
keeper's frame work (R33 to R40, R264, R265, R351, R384, R386). -/

namespace Sys2Proof.Machine

def State.modHouse (s : State) (f : HouseBeam → HouseBeam) : State := { s with house := f s.house }

/-- HB_FRAME_CLKS of a rate in mHz (R33). -/
def clksOf (rate : Nat) : Nat := (2 * 594000000000 + rate) / (2 * max 1 rate)

/-- The house beam follows the BEAM frames of the master: source SWARM, or a candidate that is not the master (R383). -/
def State.followsSwarm (s : State) : Bool :=
  s.house.src == 2 || (s.swarm.master != 0xFF && s.swarm.master != s.devId.setWidth 8)

/-- The external sync input is the reference (R34). -/
def State.followsPulses (s : State) : Bool := !s.followsSwarm && (s.house.src == 1 || s.house.src == 3)

/-- A phase jump is allowed (R39). -/
def State.jumpAllowed (s : State) : Bool :=
  s.objOr 0x2100 6 0 != 0 ||
  !(allCells.any fun c => let st := (s.cell c).ctl.st; st.started && st != .faulted)

/-- The lock state changes: run lengths start again, shared source BEAM, notices and journal (R38, R157). -/
def State.setLock (s : State) (l : LockState) : State :=
  if s.house.lock = l then s
  else
    let s := s.modHouse fun h => { h with
      lock := l, goodRun := 0, rateRun := 0, phaseRun := 0, missRun := 0, validRun := 0, holdFrames := 0
      wasLocked := h.wasLocked || l == .locked
      freqOfs := if l == .free then 0 else h.freqOfs
      jumpDue := h.jumpDue && l == .acquiring }
    let s := s.fireShared 0x98
    match l with
    | .locked => s.raiseEvent 1 0 false 0
    | .holdover => s.raiseEvent 2 0 false s.house.phaseErr.toNat
    | .free => s
    | .acquiring => s

/-- A pulse at `ofs` ns from the expected instant lies within ±2 % of the `n`th part of a house frame (R40). -/
def inWindow (clks n : Nat) (ofs : Int) : Bool := decide (ofs.natAbs * 594 * 50 * n ≤ clks * 1000)

/-- A pulse that is ignored and counted (R40). -/
def State.glitch (s : State) : State := s.modHouse fun h => { h with glitch := h.glitch + 1 }

/-- A valid frame pulse or BEAM frame (R38, R39, R384). -/
def State.validPulse (s : State) (m : PulseMeas) : State :=
  let ofs : BitVec 32 := BitVec.ofInt 32 (clampInt (-2000000) 2000000 m.disc)
  let s := s.modHouse fun h => { h with
    pulseSeen := true, validRun := h.validRun + 1, missRun := 0, phaseErr := BitVec.ofInt 32 m.err }
  match s.house.lock with
  | .free =>
    if 4 ≤ s.house.validRun then
      (s.setLock .acquiring).modHouse fun h => { h with jumpDue := s.jumpAllowed }
    else s
  | .holdover =>
    if 4 ≤ s.house.validRun then
      (s.setLock .acquiring).modHouse fun h => { h with jumpDue := s.jumpAllowed }
    else s
  | .acquiring =>
    let good := decide (m.err.natAbs ≤ 100)
    let s := s.modHouse fun h => { h with
      goodRun := if good then h.goodRun + 1 else 0, freqOfs := ofs, jumpDue := !good && s.jumpAllowed }
    if 8 ≤ s.house.goodRun then s.setLock .locked else s
  | .locked =>
    let s := s.modHouse fun h => { h with
      rateRun := if 2000 < m.rate.natAbs then h.rateRun + 1 else 0
      phaseRun := if 10000 < m.err.natAbs then h.phaseRun + 1 else 0
      freqOfs := ofs }
    if 4 ≤ s.house.rateRun || 4 ≤ s.house.phaseRun then s.setLock .holdover else s

/-- A frame pulse is checked against its window (R40). -/
def State.beamPulse (s : State) (m : PulseMeas) : State :=
  if !inWindow s.house.frameClks 1 m.ofs || s.house.pulseSeen then s.glitch else s.validPulse m

/-- A line pulse is checked against its window and refines the phase measurement (R40). -/
def State.linePulse (s : State) (win : Nat) (ofs err : Int) : State :=
  if !inWindow s.house.frameClks (s.objOr 0x2100 4 1125) ofs || s.house.lineWin == some win then s.glitch
  else s.modHouse fun h => { h with lineWin := some win, phaseErr := BitVec.ofInt 32 err }

/-- The window of a frame pulse ends: without a valid pulse it counts as missing (R38, R40). -/
def State.windowEnd (s : State) : State :=
  if s.house.pulseSeen then s.modHouse fun h => { h with pulseSeen := false }
  else
    let s := s.modHouse fun h => { h with
      validRun := 0, goodRun := 0, rateRun := 0, phaseRun := 0, missRun := h.missRun + 1 }
    if s.house.missRun < 2 then s
    else
      match s.house.lock with
      | .locked => s.setLock .holdover
      | .acquiring => s.setLock (if s.house.wasLocked then .holdover else .free)
      | .free => s
      | .holdover => s

/-! ## House frame start -/

/-- A written HB_SOURCE takes effect (R38). -/
def State.takeSource (s : State) : State :=
  if !s.house.srcDue then s
  else
    let v : Byte := BitVec.ofNat 8 (s.objOr 0x2100 1 0)
    let s := s.modHouse fun h => { h with src := v, srcDue := false, wasLocked := false, validRun := 0, missRun := 0 }
    if v = 0 then s.setLock .free else if s.house.lock = .free then s else s.setLock .holdover

/-- HB_RATE takes effect: HB_FRAME_CLKS and every D (R33, R36, R41). -/
def State.takeRate (s : State) : State :=
  let rate := s.objOr 0x2100 2 60000
  if rate = s.house.rate.toNat then s
  else
    let clks := clksOf rate
    { s with
      house := { s.house with rate := BitVec.ofNat 32 rate, frameClks := clks }
      cells := s.cells.map fun x => { x with beam := { x.beam with d := dOf x.beam.geom clks } } }

/-- Length of the house frame that starts: a due phase jump shortens or lengthens it (R39). -/
def HouseBeam.startFrame (h : HouseBeam) : HouseBeam :=
  { h with
    frameLen := if h.jumpDue then ((h.frameClks : Int) - h.phaseErr.toInt * 594 / 1000).toNat else h.frameClks
    jumpDue := false
    holdFrames := if h.lock == .holdover then h.holdFrames + 1 else 0 }

/-- A change of HB_FRAME to `n` would move lock points of a cell that runs (R386). -/
def State.frameMoves (s : State) (n : Nat) : Bool :=
  s.cells.toList.any fun x => x.beam.on && decide (1 < x.beam.geom.den) && decide (n % x.beam.geom.den ≠ (s.house.frame.toNat + 1) % x.beam.geom.den)

/-- HB_FRAME counts; a LOCKED follower adopts the master's count (R36, R386). -/
def State.countFrame (s : State) : State :=
  let next := s.house.frame + 1
  let lockd := s.followsSwarm && s.house.lock == .locked
  let new := match s.swarm.masterFrame with
    | some f => if lockd && !s.frameMoves (f + 1).toNat then f + 1 else next
    | none => next
  let isMaster := s.swarm.master == s.devId.setWidth 8
  let coh := isMaster || (lockd && (match s.swarm.masterFrame with | some f => new == f + 1 | none => s.swarm.coherent))
  let s := s.modHouse fun h => { h with frame := new }
  s.modSwarm fun w => { w with
    coherent := coh, masterFrame := none, beamAge := if isMaster || w.master == 0xFF then 0 else w.beamAge + 1 }

/-- The master sends BEAM on every UP link (R384). -/
def State.sendBeam (s : State) : State :=
  if s.swarm.master = s.devId.setWidth 8 then
    allLinks.foldl
      (fun s l =>
        if (s.swarmLink l).state = lkUp then
          s.modLinkL l fun k => k.send
            { kind := 3, last := true, src := s.devId, dst := k.peer.setWidth 3, seq := 0, ack := none
              tag := s.house.frame.setWidth 32, payload := toBytes s.house.frame.toNat 8 ++ toBytes s.devTime.toNat 8 }
        else s) s
  else s

/-- The slot table swap (R264): released slots that have not started move to the new comb, and a prefill whose cell
changes comb is abandoned (R258). -/
def State.swapTable (s : State) : State :=
  if !s.slots.marked then s
  else
    let t := s.slots
    let changed := t.live != t.shadow
    let s := { s with slots := { t with
      live := t.shadow, marked := false
      swaps := if changed then satInc t.swaps else t.swaps
      swapFrame := if changed then s.house.frame else t.swapFrame } }
    allCells.foldl
      (fun s c =>
        let k := entryComb (s.slotEntry c)
        let v := (s.cell c).vid
        let s := match v.slot with
          | some sl => if sl.started then s else s.modVid c fun v => { v with slot := some { sl with comb := k.getD sl.comb } }
          | none => s
        match v.prefill with
        | some p =>
          if k = some p then s
          else (s.modVid c fun v => { v with prefill := none }).modComb p fun b => { b with prefill := if b.prefill = some c then none else b.prefill }
        | none => s) s

/-- The comb share of tenant `t` in the shadow stays within its caps (R367). -/
def State.combCapOk (s : State) (t : Nat) : Bool :=
  let share := ((allCells.filter fun c => s.tenantOf c == t && (entryComb (s.slots.shadow.get c)).isSome).map
    fun c => s.slotShare s.slots.shadow c).sum
  (s.capRecords t).all fun r => decide (share ≤ s.objOr (0x3400 + r) 5 100 * 10000 * Config.combCount s.part)

/-- The keeper writes one shadow entry: COMB and RANK are its choice, PLAN follows R265; a comb that is not ON gets no
slot (R266). -/
def State.assignSlot (s : State) (a : SlotAssign) : State :=
  let ok := match entryComb a.entry with
    | some k => s.unitState kComb k.val == 0
    | none => a.entry.toNat % 32 == 31
  if !ok || !s.present a.cell then s
  else
    let e := a.entry.toNat % 32 + 256 * entryRank a.entry + 65536 * s.planOf a.cell
    let t := { s with slots := { s.slots with shadow := s.slots.shadow.set a.cell (BitVec.ofNat 32 e), marked := true } }
    if t.combCapOk (s.tenantOf a.cell) then t else s

/-- A comb breaks the condition of R265, or a cell's PLAN exceeds its own window. -/
def State.overloaded (s : State) : Bool :=
  ((List.finRange 24).any fun k => !s.combFits s.slots.shadow k) ||
  (allCells.any fun c =>
    (entryComb (s.slots.shadow.get c)).isSome && decide (s.slotWindow c < 16 * entryPlan (s.slots.shadow.get c)))

/-- The planning of a house frame (R265). -/
def State.planSlots (s : State) (l : List SlotAssign) : State :=
  let s := l.foldl State.assignSlot s
  if s.overloaded then
    let s := { s with slots := { s.slots with overload := satInc s.slots.overload } }
    s.raise 0x0D 0 false s.slots.overload.toNat
  else s

/-- COMB_BUSY of the house frame that ends. -/
def State.combBusy (s : State) : State :=
  let clks := max 1 (s.house.frameLen * 800 / 594)
  { s with combs := s.combs.map fun b => { b with busyPct := BitVec.ofNat 8 (min 100 (b.busy * 100 / clks)), busy := 0 } }

/-- Once per house frame: notices may be raised again, and a held geometry ages (R53, R104, R237, R261). -/
def Cell.houseFrame (x : Cell) : Cell :=
  { x with
    pace := { x.pace with noticed := false }
    vid := { x.vid with missNoticed := false, lbufNoticed := false }
    beam := { x.beam with heldAge := if x.beam.held.isSome then x.beam.heldAge + 1 else 0 } }

/-- A house frame starts (R33). -/
def State.houseFrame (s : State) (slots : List SlotAssign) (scouts : List ScoutRead) : State :=
  let s := (s.combBusy.takeSource).takeRate
  let s := s.countFrame.modHouse HouseBeam.startFrame
  let s := s.sendBeam
  let s := { s with cells := s.cells.map Cell.houseFrame }
  let s := s.swapTable
  let s := s.keeperFrame
  let s := (scouts.foldl State.scoutRead s).combScouts
  let s := s.planSlots slots
  s.soloCheck.fenceCheck

end Sys2Proof.Machine
end

