-- ==== Sys2Proof/Machine/BlitOps.lean ====
section
/-! DEFINITION. The blitter (R269 to R282): snapshots, checks, bursts, flags. -/

namespace Sys2Proof.Machine

/-! ## Operations (R269 to R272) -/

/-- OP, KEYEN, MIRX, MIRY. -/
def BlitOp.code (o : BlitOp) : Nat := o.op.toNat % 4
def BlitOp.bpp (o : BlitOp) : Nat := if o.fmt = 0 then 4 else 8 * o.fmt
def BlitOp.keyed (o : BlitOp) : Bool := o.op.getLsbD 2 && o.code % 2 == 0
def BlitOp.reads (o : BlitOp) : Bool := o.code % 2 == 0

/-- The snapshot of IO 0300h to 0325h (R276). -/
def Cell.blitSnapshot (x : Cell) : BlitOp :=
  { op := x.reg8 0x0300, fmt := (x.reg8 0x0301).toNat % 4, fn := (x.reg8 0x0302).toNat % 16
    sbase := x.reg32 0x0304, dbase := x.reg32 0x0308, spitch := x.reg16 0x030C, dpitch := x.reg16 0x030E
    sx := x.reg16 0x0310, sy := x.reg16 0x0312, dx := x.reg16 0x0314, dy := x.reg16 0x0316
    w := x.reg16 0x0318, h := x.reg16 0x031A, color := x.reg32 0x031C, key := x.reg32 0x0320, wmark := x.reg16 0x0324 }

/-- First byte, and the byte after the last, of a rectangle's row of `w` pixels from column `cx` (R269). -/
def rowLo (bpp row cx : Nat) : Nat := row + cx * bpp / 8
def rowHi (bpp row cx w : Nat) : Nat := row + ((cx + w) * bpp + 7) / 8

def BlitOp.srcLo (o : BlitOp) (j : Nat) : Nat := rowLo o.bpp (o.sbase + (o.sy + j) * o.spitch) o.sx
def BlitOp.srcHi (o : BlitOp) (j : Nat) : Nat := rowHi o.bpp (o.sbase + (o.sy + j) * o.spitch) o.sx o.w
def BlitOp.dstLo (o : BlitOp) (j : Nat) : Nat := rowLo o.bpp (o.dbase + (o.dy + j) * o.dpitch) o.dx
def BlitOp.dstHi (o : BlitOp) (j : Nat) : Nat := rowHi o.bpp (o.dbase + (o.dy + j) * o.dpitch) o.dx o.w

/-- The error code of R270: 0 none, 1 CFG, 2 RANGE. -/
def Cell.blitCheck (x : Cell) (o : BlitOp) : Byte :=
  if o.w = 0 || o.h = 0 || 4096 < o.w || 4096 < o.h || o.dpitch < o.dstHi 0 - o.dstLo 0 ||
      (o.reads && decide (o.spitch < o.srcHi 0 - o.srcLo 0)) then 1
  else if (o.reads && decide (32768 * x.map.pages < o.srcHi (o.h - 1))) ||
      decide (o.dstLo 0 < 32768 * x.map.ropages) || decide (32768 * x.map.pages < o.dstHi (o.h - 1)) then 2
  else 0

/-- The byte ranges of source and destination intersect (R275). -/
def BlitOp.rangesMeet (o : BlitOp) : Bool :=
  o.reads && decide (o.srcLo 0 < o.dstHi (o.h - 1)) && decide (o.dstLo 0 < o.srcHi (o.h - 1))

/-- A byte holds both a source pixel and a destination pixel (R274). -/
def BlitOp.overlapsItself (o : BlitOp) : Bool :=
  o.reads && (List.range o.h).any fun j => (List.range o.h).any fun i =>
    decide (o.srcLo i < o.dstHi j) && decide (o.dstLo j < o.srcHi i)

/-- The source pixel of destination pixel (`i`, `j`), under MIRX and MIRY. -/
def Cell.blitSource (x : Cell) (o : BlitOp) (i j : Nat) : Nat :=
  let sx := o.sx + (if o.op.getLsbD 3 then o.w - 1 - i else i)
  let sy := o.sy + (if o.op.getLsbD 4 then o.h - 1 - j else j)
  let a := o.sbase + sy * o.spitch + sx * o.bpp / 8
  if o.bpp = 4 then (if sx % 2 = 0 then (x.readMem a).toNat % 16 else (x.readMem a).toNat / 16)
  else ofBytes ((List.range (o.bpp / 8)).map fun k => x.readMem (a + k))

/-- FN bit by bit over bytes (R271): bit 2s + d of FN. -/
def ropByte (fn : Nat) (s d : Byte) : Byte :=
  (if fn / 8 % 2 = 1 then s &&& d else 0) ||| (if fn / 4 % 2 = 1 then s &&& ~~~d else 0) |||
  (if fn / 2 % 2 = 1 then ~~~s &&& d else 0) ||| (if fn % 2 = 1 then ~~~s &&& ~~~d else 0)

/-- The destination value of one byte lane: source byte `s`, old byte `d`. -/
def BlitOp.combine (o : BlitOp) (s d : Byte) : Byte :=
  if o.code = 0 || o.code = 1 then s else ropByte o.fn s d

/-- The value that enters the operation for pixel (`i`, `j`): `none` where the key holds it back (R272). -/
def Cell.blitInput (x : Cell) (o : BlitOp) (i j : Nat) : Option Nat :=
  if o.reads then
    let v := x.blitSource o i j
    if o.keyed && v == o.key % 2 ^ o.bpp then none else some v
  else some (o.color % 2 ^ o.bpp)

/-- Column `col` lies in the destination rectangle. -/
def BlitOp.hasCol (o : BlitOp) (col : Nat) : Bool := decide (o.dx ≤ col) && decide (col < o.dx + o.w)

/-- One nibble of a 4 bpp destination byte. -/
def Cell.blitNibble (x : Cell) (o : BlitOp) (j col : Nat) (old : Byte) : Byte :=
  if !o.hasCol col then old
  else
    match x.blitInput o (col - o.dx) j with
    | none => old
    | some v => o.combine (BitVec.ofNat 8 (v + 16 * v)) old

/-- The new value of destination byte `a` of row `j`. -/
def Cell.blitByte (x : Cell) (o : BlitOp) (j a : Nat) : Byte :=
  let old := x.readMem a
  let ofs := a - (o.dbase + (o.dy + j) * o.dpitch)
  if o.bpp = 4 then
    (x.blitNibble o j (2 * ofs) old &&& 0x0F) ||| (x.blitNibble o j (2 * ofs + 1) old &&& 0xF0)
  else
    let n := o.bpp / 8
    let col := ofs / n
    if !o.hasCol col then old
    else
      match x.blitInput o (col - o.dx) j with
      | none => old
      | some v => o.combine (byteOf v (ofs % n)) old

/-- A free value in the part of destination byte `a` that the rectangle holds (R274). -/
def BlitOp.freeByte (o : BlitOp) (j a : Nat) (old free : Byte) : Byte :=
  let ofs := a - (o.dbase + (o.dy + j) * o.dpitch)
  if o.bpp = 4 then
    (if o.hasCol (2 * ofs) then free &&& 0x0F else old &&& 0x0F) |||
    (if o.hasCol (2 * ofs + 1) then free &&& 0xF0 else old &&& 0xF0)
  else free

/-! ## The context (R276 to R278) -/

/-- BL_STAT. -/
def Cell.blStat (x : Cell) : Byte := x.blit.stat ||| flagIf x.blit.run.isSome 0x10 ||| flagIf x.blit.queue.isSome 0x20

/-- Flags DONE (1), WM (2) and ERR (4) are set together: one edge if an enabled one was 0 (R278). -/
def Cell.blitFlags (x : Cell) (bits : Byte) : Cell :=
  let y := { x with blit := { x.blit with stat := x.blit.stat ||| bits } }
  if bits &&& ~~~x.blit.stat &&& x.reg8 0x0303 &&& 7 != 0 then y.edge 16 else y

/-- The running operation ends; the queued one follows (R276). -/
def Cell.blitEnd (x : Cell) : Cell :=
  { x with blit := { x.blit with run := x.blit.queue, queue := none, begun := false, selfOver := false, next := 0 } }

/-- CANCEL (R277). -/
def Cell.blitCancel (x : Cell) : Cell :=
  let y := { x with blit := { x.blit with queue := none } }
  if x.blit.run.isSome then ({ y.blitEnd with blit := { y.blitEnd.blit with err := 3 } }).blitFlags 4 else y

/-- START (R276). -/
def Cell.blitStart (x : Cell) : Cell :=
  if x.blit.run.isNone then { x with blit := { x.blit with run := some x.blitSnapshot, begun := false, next := 0 } }
  else if x.blit.queue.isNone then { x with blit := { x.blit with queue := some x.blitSnapshot } }
  else { x with blit := { x.blit with stat := x.blit.stat ||| 0x40 } }

/-- A write of BL_GO: CANCEL acts first. -/
def Cell.blitGo (x : Cell) (v : Byte) : Cell :=
  let x := if v.getLsbD 1 then x.blitCancel else x
  if v.getLsbD 0 then x.blitStart else x

/-- An operation begins in the engine (R270, R275). -/
def Cell.blitBegin (x : Cell) (o : BlitOp) : Cell :=
  let code := x.blitCheck o
  let exceeded := o.rangesMeet
  if code ≠ 0 then ({ x.blitEnd with blit := { x.blitEnd.blit with err := code, rows := 0 } }).blitFlags 4
  else { x with blit := { x.blit with
    begun := true, selfOver := o.overlapsItself, next := o.dstLo 0, rows := 0
    stat := if exceeded then x.blit.stat ||| 8 else x.blit.stat } }

/-- A row is complete: BL_ROWS, WM and DONE (R278). -/
def Cell.blitRow (x : Cell) (o : BlitOp) : Cell :=
  let rows := x.blit.rows + 1
  let last := decide (o.h ≤ rows)
  let bits := flagIf last 1 ||| flagIf (o.wmark != 0 && rows == o.wmark) 2
  let y := { x with blit := { x.blit with rows := rows, next := o.dstLo rows } }
  (if last then y.blitEnd else y).blitFlags bits

/-- One burst: the part of the present row in one 64-byte block (R279), row by row in ascending addresses (R273). -/
def Cell.blitBurst (x : Cell) (o : BlitOp) (ctr : Nat) : Cell :=
  let j := x.blit.rows
  let a := x.blit.next
  let hi := min (o.dstHi j) ((a / 64 + 1) * 64)
  let y := (List.range (hi - a)).foldl
    (fun y i =>
      let v := if x.blit.selfOver then o.freeByte j (a + i) (y.readMem (a + i)) (Config.freeByte (ctr + i))
        else y.blitByte o j (a + i)
      y.writeMem (a + i) v) x
  let y := { y with blit := { y.blit with next := hi } }
  if hi = o.dstHi j then y.blitRow o else y

/-- The engine may work on the context (R281): not while the cell moves, nor halted with FRZ at 1. -/
def Cell.blitRuns (x : Cell) : Bool :=
  x.blit.begun && !x.inTransit && !(x.ctl.st == .halted && x.regBit 0x0303 7)

/-- Reads of the blitter registers. -/
def Cell.viewBlit (x : Cell) (a : Nat) : Byte :=
  if a = 0x0326 then 0
  else if a = 0x0328 then x.blStat
  else if a = 0x0329 then x.blit.err
  else if a = 0x032A || a = 0x032B then byteOf x.blit.rows (a - 0x032A)
  else x.reg8 a

/-- Writes of the blitter registers. -/
def Cell.writeBlit (x : Cell) (a : Nat) (v : Byte) : Cell :=
  if a = 0x0326 then x.blitGo v
  else if a = 0x0328 then { x with blit := { x.blit with stat := x.blit.stat &&& ~~~v } }
  else if 0x0329 ≤ a then x
  else x.writePlain a v

end Sys2Proof.Machine
end

