-- ==== Sys2Proof/Machine/FgOps.lean ====
section
/-! DEFINITION. Foragers (R283 to R293): descriptors, flags, endings, registers. The beats themselves, which reach I/O
space, stand in EngineCmd.lean. -/

namespace Sys2Proof.Machine

/-- Update channel `k`. -/
def Cell.modFg (x : Cell) (k : Fin 4) (f : Fg → Fg) : Cell := { x with fg := x.fg.set k (f (x.fg.get k)) }

/-- First register address of channel `k`. -/
def fgBase (k : Fin 4) : Nat := 0x0200 + 0x40 * k.val

/-! ## Descriptors (R284) -/

/-- One side of a descriptor. -/
structure FgSide where
  addr : Nat
  io : Bool
  width : Nat
  step : Nat
  span : Nat
  deriving DecidableEq, Repr

/-- Word 0 or 1 of a descriptor. -/
def fgSide (w : Nat) : FgSide :=
  { addr := w % 2 ^ 25, io := decide (w / 2 ^ 25 % 2 = 1), width := 2 ^ (w / 2 ^ 26 % 4), step := w / 2 ^ 28 % 4
    span := w / 2 ^ 30 + 1 }

/-- U of R285. -/
def fgUnit (w0 w1 : Nat) : Nat := max (fgSide w0).width (fgSide w1).width

/-- A side with reserved values or must-be-zero bits. -/
def FgSide.bad (s : FgSide) : Bool := decide (s.width = 8) || decide (s.step = 3) || (s.io && decide (65536 ≤ s.addr))

/-- A side with a misaligned cell space address (R286). -/
def FgSide.misaligned (s : FgSide) : Bool := !s.io && decide (s.addr % s.width ≠ 0)

/-- The reserved values, must-be-zero bits and breaches of R285 that end a fetch with CFG. -/
def fgDescBad (w0 w1 w2 w3 : Nat) : Bool :=
  let u := fgUnit w0 w1
  let count := w2 % 2 ^ 24
  let swap := w2 / 2 ^ 24 % 4
  (fgSide w0).bad || (fgSide w1).bad || count == 0 || count % u != 0 || (swap == 1 && decide (u < 2)) ||
  (decide (2 ≤ swap) && u != 4) || decide (2 ^ 28 ≤ w2) || decide (2 ≤ w3 % 4) || w3 / 4 % 4 != 0 || decide (2 ^ 25 ≤ w3)

/-- Address of beat `n` of a side (R284). -/
def FgSide.beat (s : FgSide) (n : Nat) : Nat :=
  if s.step = 0 then s.addr else if s.step = 1 then s.addr + n * s.width else s.addr + n % s.span * s.width

/-- SWAP on the U bytes of the holding register (R285). -/
def fgSwap (swap : Nat) (l : List Byte) : List Byte :=
  if swap = 1 then
    match l with
    | [a, b] => [b, a]
    | [a, b, c, d] => [b, a, d, c]
    | _ => l
  else if swap = 2 then
    match l with
    | [a, b, c, d] => [c, d, a, b]
    | _ => l
  else if swap = 3 then l.reverse
  else l

/-- An I/O address that no forager reaches (R286). -/
def fgRefused (a : Nat) : Bool := decide (a < 0x0180) || (decide (0x0200 ≤ a) && decide (a < 0x0300)) || decide (0x1000 ≤ a)

/-! ## Endings and flags (R287, R288) -/

/-- Flags `bits` are set, of which `edges` may give the source an edge: one edge where any of those was 0. -/
def Cell.fgFlags (x : Cell) (k : Fin 4) (bits edges : Byte) : Cell :=
  let st := (x.fg.get k).stat
  let lap := flagIf (bits &&& st &&& 3 != 0) 0x40
  let y := x.modFg k fun f => { f with stat := f.stat ||| bits ||| lap }
  if bits &&& edges &&& ~~~st != 0 then y.edge (12 + k.val) else y

/-- END's enable, FGk_CFG.ENDIE. -/
def Cell.fgEndIe (x : Cell) (k : Fin 4) : Byte := flagIf (x.regBit (fgBase k + 1) 0) 4

/-- The channel ends with `code` (R288). -/
def Cell.fgEnd (x : Cell) (k : Fin 4) (code : Byte) : Cell :=
  (x.modFg k fun f => { f with busy := false, code := code, desc := none, hold := [], out := [] }).fgFlags k 4 (x.fgEndIe k)

/-- The channel ends with `code`, an address to blame and whether it is an I/O address. -/
def Cell.fgFail (x : Cell) (k : Fin 4) (code : Byte) (a : Nat) (io : Bool) : Cell :=
  (x.modFg k fun f => { f with faddr := BitVec.ofNat 32 (a % 2 ^ 25 + b2n io * 2 ^ 25) }).fgEnd k code

/-- START (R283): the first descriptor is FGk_DESC's. -/
def Cell.fgStart (x : Cell) (k : Fin 4) : Cell :=
  if (x.fg.get k).busy then x.modFg k fun f => { f with stat := f.stat ||| 0x10 }
  else x.modFg k fun f => { f with
    busy := true, desc := none, cur := x.reg32 (fgBase k + 4) % 2 ^ 25, srcBeats := 0, dstBeats := 0, hold := [], out := []
    done := 0, dcount := 0 }

/-- CANCEL (R290). -/
def Cell.fgCancel (x : Cell) (k : Fin 4) : Cell := if (x.fg.get k).busy then x.fgEnd k 5 else x

/-- A write of FGk_GO: START and CANCEL in one write act as CANCEL and then START. -/
def Cell.fgGo (x : Cell) (k : Fin 4) (v : Byte) : Cell :=
  let x := if v.getLsbD 1 then x.fgCancel k else x
  if v.getLsbD 0 then x.fgStart k else x

/-- The channel is held (R291): by PAUSE, by a halt with FRZ at 1, or by a move. -/
def Cell.fgHeld (x : Cell) (k : Fin 4) : Bool :=
  x.actual == .paused || x.inTransit ||
  (x.ctl.st == .halted && (x.regBit (fgBase k + 1) 7 || x.ctl.prior == .paused))

/-- Every byte of the unit has been delivered and counted (R287): HALF, FULL and what follows FULL. -/
def Cell.fgDelivered (x : Cell) (k : Fin 4) (n : Nat) (w2 w3 : Nat) : Cell :=
  let f := x.fg.get k
  let count := w2 % 2 ^ 24
  let half := max 1 (count / 2)
  let now := f.done + n
  let hitHalf := decide (f.done < half) && decide (half ≤ now)
  let full := decide (count ≤ now)
  let ie := flagIf (w2 / 2 ^ 26 % 2 == 1) 1 ||| flagIf (w2 / 2 ^ 27 % 2 == 1) 2
  let bits := flagIf hitHalf 1 ||| flagIf full 2
  let y := x.modFg k fun f => { f with done := now, dcount := if full then f.dcount + 1 else f.dcount }
  if !full then y.fgFlags k bits ie
  else if w3 % 4 = 0 then
    (y.modFg k fun f => { f with busy := false, code := 1, desc := none, hold := [], out := [] }).fgFlags k
      (bits ||| 4) (ie ||| y.fgEndIe k)
  else
    (y.modFg k fun f => { f with
      desc := none, cur := w3 / 16 % 2 ^ 21 * 16, srcBeats := 0, dstBeats := 0, hold := [], out := [] }).fgFlags k bits ie

/-- A descriptor fetch completes (R283, R284). -/
def Cell.fgFetch (x : Cell) (k : Fin 4) : Cell :=
  let f := x.fg.get k
  if !f.busy || f.desc.isSome || x.fgHeld k then x
  else
    match x.span f.cur 16 with
    | none => x.fgFail k 3 f.cur false
    | some bs =>
      let w (i : Nat) := ofBytes ((bs.drop (4 * i)).take 4)
      if fgDescBad (w 0) (w 1) (w 2) (w 3) then x.fgFail k 2 f.cur false
      else if (fgSide (w 0)).misaligned then x.fgFail k 2 (fgSide (w 0)).addr false
      else if (fgSide (w 1)).misaligned then x.fgFail k 2 (fgSide (w 1)).addr false
      else x.modFg k fun f => { f with desc := some (w 0, w 1, w 2, w 3), srcBeats := 0, dstBeats := 0, done := 0 }

/-! ## Registers (R293) -/

/-- Channel of an I/O address in 0200h to 02FFh. -/
def fgOf (a : Nat) : Fin 4 := ⟨(a - 0x0200) / 0x40 % 4, by omega⟩

def Cell.viewFg (x : Cell) (a : Nat) : Byte :=
  let k := fgOf a
  let f := x.fg.get k
  let o := a % 0x40
  if o = 0 then 0
  else if o = 2 then f.stat ||| flagIf f.busy 8 ||| flagIf (f.busy && x.fgHeld k) 0x20
  else if o = 3 then f.code
  else if 8 ≤ o && o < 0x0C then byteOf f.cur (o - 8)
  else if 0x0C ≤ o && o < 0x10 then byteOf f.done (o - 0x0C)
  else if 0x10 ≤ o && o < 0x14 then byteOf f.faddr.toNat (o - 0x10)
  else if o = 0x14 || o = 0x15 then byteOf f.dcount.toNat (o - 0x14)
  else x.reg8 a

def Cell.writeFg (x : Cell) (a : Nat) (v : Byte) : Cell :=
  let k := fgOf a
  let o := a % 0x40
  if o = 0 then x.fgGo k v
  else if o = 2 then x.modFg k fun f => { f with stat := f.stat &&& ~~~v }
  else if o = 3 || 8 ≤ o then x
  else x.writePlain a v

end Sys2Proof.Machine
end

