-- ==== Sys2Proof/Machine/Lifecycle.lean ====
section
/-! DEFINITION. The life of a cell: cell reset, the commands of R97, halt and resume, wake, suspension (R44, R96 to R100,
R113 to R118, R170, R464 to R468, R486). -/

namespace Sys2Proof.Machine

/-! ## Cell reset (R116, R117) -/

/-- The mapper after cell reset (R117, R170). -/
def Mapper.reset (m : Mapper) : Mapper :=
  { m with win := m.table, stage := m.table.map loByte, lockI := false, lockD := false, hard := false, stat := 0 }

/-- The core after cell reset (R62); the reset vector is read through the mapping that the reset establishes. -/
def Cell.resetCore (x : Cell) : Core :=
  { pc := x.opByte 0xFFFF ++ x.opByte 0xFFFE }

/-- A forager after cell reset: a busy channel has ended with ABORT_RST (R117, R288). -/
def Fg.reset (f : Fg) : Fg := if f.busy then { stat := 4, code := 6 } else {}

/-- Video after cell reset: registers, palette, sprite slots and the engine (R117, R201, R229, R233). Lines already
composed and the counts of the objects stay. -/
def CellVid.reset (v : CellVid) : CellVid :=
  { v with
    pal := [], palCore := [], sprites := [], snap := none, sprStat := 0, sprOvf := 0, sprCol := 0, eng := {}, wgStat := 0
    wgIrqLine := 0, wgFlt := 0, carry := [], missed := [], rx := 0, ry := 0, compStat := 0, lsStat := 0, missCnt := 0
    missLine := 0, wbOn := false, wbBad := false, wbStat := 0, shown := {}
    slot := v.slot.map fun sl => { comb := sl.comb, line := sl.line, deadline := sl.deadline, started := sl.started, waits := sl.waits } }

/-- Sound after cell reset (R332): the rate, the bridge and the gains belong to the device. -/
def CellSnd.reset (n : CellSnd) : CellSnd :=
  { n with
    voices := Vector.replicate 16 {}, log := [], logCount := 0, stage := [], stat := 0, ends := 0, mixL := 0, mixR := 0 }

/-- The beam after an in-place reset: the live geometry stays, a held change is withdrawn (R117). -/
def CellBeam.resetInPlace (b : CellBeam) : CellBeam :=
  { b with
    held := none, heldAge := 0, switchNext := false, geomErr := false, llwOvf := false, commitDone := false, commit := false
    log := [], logCount := 0 }

/-- Everything that a cell reset does inside the cell, the beam's run and CELL_STATE aside (R117). -/
def Cell.reset (x : Cell) (cause : BitVec 4) : Cell :=
  let x := { x with map := x.map.reset }
  let k := x.ctl
  { x with
    core := x.resetCore
    pace := { x.pace with avail := 0, ovr := false, shared := false, ovrCnt := 0, pend := false, last := 0 }
    ctl := { k with
      ioUnmapped := false, resetCause := (if cause = 1 then 0 else k.resetCause) ||| cause, trapCause := 0, trapData := 0
      trapAddr := 0, trapOp := 0, slpLast := 0, slpCnt := 0, alarms := 0, heldLines := [], locked := none, rd := 0 }
    ic := {}
    regs := [], live := [], capt := [], xs := []
    host := { x.host with
      inP := Vector.replicate 8 0, inChg := 0, mbData := 0, mbFull := false, evStage := Vector.replicate 8 0
      evEndNext := false, evOvf := false }
    dbg := { x.dbg with vtTx := [], vtRx := [], vtTxOvf := false }
    wd := {}, tm := Vector.replicate 4 {}, blit := {}, ck := {}, fg := x.fg.map Fg.reset
    vid := x.vid.reset, snd := x.snd.reset, beam := x.beam.resetInPlace }

/-- An in-place cell reset (R116): CELL_RESETS counts it; a HALTED cell stays HALTED before its first fetch. -/
def State.resetInPlace (s : State) (c : CellNo) (cause : BitVec 4) : State :=
  s.modCell c fun x =>
    let y := x.reset cause
    { y with
      ctl := { y.ctl with
        cellResets := satInc y.ctl.cellResets
        st := if x.ctl.st == .halted then .halted else if x.ctl.st == .migrating then .migrating else .running
        prior := if x.ctl.st == .migrating then .running else x.ctl.prior }
      dbg := if x.ctl.st == .halted then { y.dbg with haltCause := 3 } else y.dbg }

/-! ## Commands (R97) -/

/-- A command found a state that does not allow it: event CMD_LAPSED (R97, R455). -/
def State.lapse (s : State) (c : CellNo) (code : Nat) : State :=
  s.event 0x8006 c.val (BitVec.ofNat 64 (s.cell c).ctl.st.code.toNat) (BitVec.ofNat 64 code)

/-- Code of a command: CELL_CMD, or 10h + DBG_CMD (R101, R455). -/
def CellCmd.code : CellCmd → Nat
  | .start => 1 | .pause => 2 | .resume => 3 | .stop => 4 | .reset => 5 | .unload => 6
  | .halt => 0x11 | .step => 0x12 | .dbgResume => 0x13

/-- The first accepted command of cell `c` takes effect, if it is `k`; otherwise nothing happens (assumption 3). -/
def State.takeCmd (s : State) (c : CellNo) (k : CellCmd) (f : State → Option State) : Res :=
  match (s.cell c).ctl.cmds with
  | [] => .next s
  | q :: r =>
    if q = k then
      let s := s.modCtl c fun m => { m with cmds := r }
      match f s with
      | some t => .next t
      | none => .next (s.lapse c k.code)
    else .next s

/-- The beam begins its wait for the first program frame start (R44, R486). -/
def CellBeam.start (b : CellBeam) : CellBeam :=
  { b with on := true, waiting := true, started := false, line := 0, pline := 0, pIv := 0, hpix := 0, log := [], logCount := 0 }

/-- START (R44, R97, R116): cell reset, RUNNING, the beam starts with stagger `sg` on core `k`. -/
def State.startCell (s : State) (c : CellNo) (k : Fin 128) (sg : Nat) : State :=
  let x := s.cell c
  let y := x.reset 1
  let g := resetGeom x.prof
  let y := { y with
    ctl := { y.ctl with
      st := .running, prior := .empty, pausePrior := .empty, faultCause := 0, paceOvrTotal := 0, cellResets := 0 }
    beam := ({ stagger := sg, geom := g, pgeom := g, d := dOf g s.house.frameClks } : CellBeam).start
    pace := {}
    map := { y.map with faults := 0 }
    vid := { y.vid with
      lbufLines := 0, lbufNoticed := false, missLines := 0, missNoticed := false, wbFrames := 0, coll := {}, prev := none
      peaks := [], last := none, slot := none, prefill := none, ring := [] }
    snd := { y.snd with relocks := 0, bridge := 0, idx := 0, frames0 := 0, frames1 := Vector.replicate 4 0 }
    host := { y.host with sliceDrop := 0 }
    kp := { y.kp with coreMoves := 0, pageMoves := 0, migCount := 0 } }
  (s.setCell c y).giveCore c k

/-- The cell stops on a command or a fault of the device: the beam, its slots and its core are given up. -/
def Cell.stopped (x : Cell) : Cell :=
  { x with
    beam := { x.beam with on := false, waiting := false, started := false, line := 0, pline := 0, log := [], logCount := 0 }
    kp := { x.kp with core := none, onCore := false, nextCore := none, moving := false, stopped := false }
    vid := { x.vid with slot := none, prefill := none, last := none, ring := [], snap := none }
    snd := { x.snd with bridge := 0, rate := 0, idx := 0 } }

/-- Combs that work on cell `c` leave its slot. -/
def State.dropSlots (s : State) (c : CellNo) : State :=
  { s with combs := s.combs.map fun b => { b with
      work := if b.work = some c then none else b.work, prefill := if b.prefill = some c then none else b.prefill } }

/-- The migration of cell `c` is abandoned (R394): it returns to CELL_PRIOR here. -/
def State.abandonMigration (s : State) (c : CellNo) : State :=
  if (s.cell c).kp.migState = 0 then s
  else
    (s.modCtl c fun k =>
      if k.st == .migrating then
        { k with st := k.prior, prior := if k.prior == .paused then k.pausePrior else k.prior }
      else k).migLost c

/-- STOP (R97, R98, R116): cell reset, LOADED, the beam stops. -/
def State.stopCell (s : State) (c : CellNo) : State :=
  let s := s.abandonMigration c
  let s := s.modCell c fun x =>
    let y := (x.reset 0).stopped
    { y with ctl := { y.ctl with st := .loaded, prior := .empty, pausePrior := .empty }
             dbg := { y.dbg with haltReq := false, haltAge := 0, skipBreak := false } }
  (s.dropSlots c).fenceCheck

/-- PAUSE (R97, R99): products land, the state left is kept. -/
def Cell.pause (x : Cell) : Cell :=
  { x with core := x.core.land, ctl := { x.ctl with st := .paused, prior := x.ctl.st }, pace := { x.pace with avail := 0 } }

/-- RESUME (R97, R99, R105, R316). -/
def Cell.resume (x : Cell) (pix : Nat) : Cell :=
  let y := { x with ctl := { x.ctl with st := x.ctl.prior } }.wdTopUp
  if y.ctl.st == .running then y.resumeAt pix else y

/-- Every session's level for cell `c` falls to NONE, and what only FULL kept is undone (R459, R467). -/
def State.dropLevels (s : State) (c : CellNo) : State :=
  let s := s.modMc fun m => { m with sessions := m.sessions.map fun q => { q with levels := Table.write (fun _ => 0) q.levels c.val 0 } }
  s.modDbg c fun d => { d with patches := Vector.replicate 8 0, ctl := 0, full := false, emu := false, haltReq := false }

/-- The cell enters EMPTY: its pages are released, and writable pages are zeroed (R97, R176, R459). -/
def State.unloadCell (s : State) (c : CellNo) : State :=
  let s := (s.releasePages c).dropLevels c
  let s := s.modCell c fun x => { x with
    ctl := { x.ctl with st := .empty, prior := .empty, pausePrior := .empty }
    mem := [], map := {}, img := {}, core := {}, regs := [], live := [] }
  s.fenceCheck

/-! ## Halt, resume and wake -/

/-- The credit position of a cell that becomes runnable, and its state's own effects (R105, R114, R467). -/
def Cell.dbgResume (x : Cell) (pix : Nat) : Cell :=
  let prior := x.ctl.prior
  let y := { x with
    ctl := { x.ctl with st := prior, prior := if prior == .paused then x.ctl.pausePrior else .empty }
    dbg := { x.dbg with skipBreak := decide (0x10 ≤ x.dbg.haltCause.toNat), haltCause := 0, emu := prior == .sleep && x.dbg.full } }
  let y := if x.regBit 0x01D0 3 && prior != .paused then y.wdTopUp else y
  if prior == .running then y.resumeAt pix else y

/-- No session holds FULL for the cell any longer: its patch units and DBG_CTL go, a HALTED cell resumes, and
DBG_RELEASE is journalled (R467, R475). -/
def State.releaseDebug (s : State) (c : CellNo) : State :=
  let held := s.mc.sessions.any fun q => Table.read (fun _ => (0 : Byte)) q.levels c.val == 2
  if held || !(s.cell c).dbg.full then s
  else
    let s := s.modDbg c fun d => { d with patches := Vector.replicate 8 0, ctl := 0, full := false, emu := false, haltReq := false }
    let x := s.cell c
    if x.ctl.st == .halted then
      (s.setCell c (x.dbgResume x.beam.hpix)).event 0x8083 c.val (BitVec.ofNat 64 x.ctl.prior.code.toNat) 0
    else s

/-- WAKE (R114, R115, R310): RUNNING, the latches transfer, SLP_LAST holds the length, the timers make up, and the
credit starts from 0 at pixel clock `pix`. -/
def Cell.wakeUp (x : Cell) (pix ticks : Nat) : Cell :=
  let alarms := x.ctl.alarms
  let y : Cell := { x with
    ctl := { x.ctl with
      st := if x.ctl.st == CState.migrating then CState.migrating else if x.ctl.st == CState.halted then CState.halted else CState.running
      prior := if x.ctl.st == CState.migrating || x.ctl.st == CState.halted then CState.running else x.ctl.prior
      slpLast := if 4294967295 < ticks then 0xFFFFFFFF else BitVec.ofNat 32 ticks }
    ic := x.ic.transfer
    dbg := { x.dbg with emu := false } }
  (y.tmMakeUp false alarms (ticks * mkSlow)).resumeAt pix

/-! ## The core stops for a move or a switch (R312, R360, R392) -/

/-- The old core stops the cell: products land; the counting of the timers is suspended from `now`, unless SLEEP has
suspended it already. -/
def Cell.suspendCount (x : Cell) (now : Long) : Cell :=
  { x with
    core := x.core.land
    kp := { x.kp with onCore := false, heldAt := now }
    ctl := if x.clocksStopped then x.ctl else { x.ctl with heldFrom := x.pace.t, heldLines := [] }
    pace := { x.pace with waited := true } }

/-- The cell goes on: timers that count now are advanced by the elapsed device time, whatever MKUP is. A nanosecond is
64/5 units of the make-up. -/
def Cell.resumeCount (x : Cell) (now : Long) : Cell :=
  if x.tmHeld then x else x.tmMakeUp true 0 ((now - x.kp.heldAt).toNat * 64 / 5)

/-! ## Suspension (R486, R487) -/

/-- A cell is suspended: its beam and blocks stop; its core is given up. -/
def Cell.suspend (x : Cell) : Cell :=
  if x.ctl.st.started then
    { x with
      beam := { x.beam with on := false, waiting := false }
      kp := { x.kp with core := none, onCore := false, nextCore := none, moving := false, stopped := false }
      vid := { x.vid with slot := none, prefill := none } }
  else x

/-- The beam of a suspended cell restarts, at the first lock point at least one house frame later (R486); a cell that runs
away from home has none here. -/
def Cell.restart (x : Cell) : Cell :=
  if x.ctl.st.started && !x.beam.on && x.kp.away.isNone then { x with beam := x.beam.start } else x

/-- A cell that the drain paused is resumed (R487). -/
def Cell.undrain (x : Cell) (paused : Bool) : Cell :=
  if paused && x.ctl.st == .paused then { x with ctl := { x.ctl with st := x.ctl.prior } }.wdTopUp else x

/-- Pause of a running or sleeping cell by the drain (R487). -/
def Cell.drainPause (x : Cell) : Cell := if x.ctl.st == .running || x.ctl.st == .sleep then x.pause else x

/-- On every entry to SERVE suspended beams restart, and the cells in DRAIN_PAUSED are resumed (R486, R487). -/
def State.enterServe (s : State) : State :=
  let p := s.pwr.drainPaused
  let s := { s with cells := Vector.ofFn fun c => (((s.cells.get c).undrain (p.getLsbD c.val)).restart) }
  s.modPwr fun w => { w with drainPaused := 0 }

end Sys2Proof.Machine
end

