-- ==== Sys2Proof/Machine/VtOps.lean ====
section
/-! DEFINITION. The virtual terminal and debugger presence (R476 to R478). -/

namespace Sys2Proof.Machine

/-- DBG_CTL.VT: the terminal is routed to the debugger. -/
def CellDbg.vt (d : CellDbg) : Bool := d.ctl.getLsbD 2

/-- The transmit FIFO takes a byte; VF vector 5 on the first (R476). -/
def State.vtTxIn (s : State) (c : CellNo) (v : Byte) : State :=
  let d := (s.cell c).dbg
  if 64 ≤ d.vtTx.length then s.modDbg c fun d => { d with vtTxOvf := true }
  else
    let s := s.modDbg c fun d => { d with vtTx := d.vtTx ++ [v] }
    if d.vtTx.isEmpty then s.msiVf c 5 else s

/-- A write of VT_TX by the cell; a guest's bytes go to its home device (R477). -/
def State.vtTxWrite (s : State) (c : CellNo) (v : Byte) : State :=
  match (s.cell c).kp.guest with
  | some d => s.sendTo d 7 true (jtag c.val d 3) [v]
  | none => s.vtTxIn c v

/-- The receive FIFO takes bytes; those that do not fit are dropped. The VT source has its edge when it leaves empty. -/
def State.vtRxIn (s : State) (c : CellNo) (l : List Byte) : State :=
  let x := s.cell c
  let n := (x.dbg.vtRx ++ l).take 64
  let s := s.modDbg c fun d => { d with vtRx := n }
  if x.dbg.vtRx.isEmpty && !n.isEmpty && x.regBit 0x03C4 0 then s.edge c 20 else s

/-- Bytes for the receive FIFO of an away cell go to its run device. -/
def State.vtRxWrite (s : State) (c : CellNo) (l : List Byte) : State :=
  match (s.cell c).kp.away with
  | some d => s.sendTo d 7 true (jtag c.val s.devId 4) l
  | none => s.vtRxIn c l

/-- `n` bytes leave the transmit FIFO; the VT source has its edge when a full FIFO gains room (R477). -/
def State.vtTxTake (s : State) (c : CellNo) (n : Nat) : State :=
  let x := s.cell c
  let s := s.modDbg c fun d => { d with vtTx := d.vtTx.drop n }
  if x.dbg.vtTx.length = 64 ∧ 0 < n ∧ x.regBit 0x03C4 1 then s.edge c 20 else s

/-- A host read of VT_HOST_RX. -/
def State.vtHostRead (s : State) (c : CellNo) : State :=
  let d := (s.cell c).dbg
  match d.vtTx with
  | b :: _ =>
    if d.vt then s.modDbg c fun d => { d with vtHostRd := 0 }
    else (s.vtTxTake c 1).modDbg c fun d => { d with vtHostRd := BitVec.ofNat 32 (256 + b.toNat) }
  | [] => s.modDbg c fun d => { d with vtHostRd := 0 }

/-- A host write of VT_HOST_TX, or of VT_HOST_STAT. -/
def State.vtHostWrite (s : State) (c : CellNo) (stat : Bool) (v : Word) : State :=
  let d := (s.cell c).dbg
  if stat then s.modDbg c fun d => { d with vtHostOvf := d.vtHostOvf && !v.getLsbD 16 }
  else if d.vt || decide (64 ≤ d.vtRx.length) then s.modDbg c fun d => { d with vtHostOvf := true }
  else s.vtRxWrite c [v.setWidth 8]

/-- VT_RX is read: the oldest byte leaves, 00h when there is none. -/
def Cell.vtPop (x : Cell) : Cell := { x with dbg := { x.dbg with vtRx := x.dbg.vtRx.drop 1 } }

/-- Highest level that any session holds for cell `c`. -/
def State.topLevel (s : State) (c : CellNo) : Byte :=
  s.mc.sessions.foldl (fun m q => let l := Table.read (fun _ => (0 : Byte)) q.levels c.val; if m < l then l else m) 0

/-- Registers of the terminal. -/
def State.viewVt (s : State) (c : CellNo) (a : Nat) : Byte :=
  let x := s.cell c
  if a = 0x03C1 then x.dbg.vtRx.headD 0
  else if a = 0x03C2 then BitVec.ofNat 8 (64 - x.dbg.vtTx.length)
  else if a = 0x03C3 then BitVec.ofNat 8 x.dbg.vtRx.length
  else if a = 0x03C4 then x.reg8 a ||| BitVec.ofNat 8 (128 * b2n x.dbg.vtTxOvf)
  else if a = 0x03C8 then s.topLevel c ||| BitVec.ofNat 8 (4 * b2n x.dbg.vt)
  else 0

/-- Writes of the terminal's registers by the cell. -/
def State.writeVt (s : State) (c : CellNo) (a : Nat) (v : Byte) : State :=
  if a = 0x03C0 then s.vtTxWrite c v
  else if a = 0x03C4 then
    s.modCell c fun x =>
      let y := x.putReg a (v &&& 3)
      { y with dbg := { y.dbg with vtTxOvf := y.dbg.vtTxOvf && !v.getLsbD 7 } }
  else s

end Sys2Proof.Machine
end

