-- ==== Sys2Proof/Machine/Io.lean ====
section
/-! DEFINITION. The I/O space of a cell (R6 to R11, R57, R119): what a read of each register answers, the captures and other
side effects of reads, and writes by the core, a forager or a debugger. -/

namespace Sys2Proof.Machine

/-- The address is that of a register of the cell (R57). -/
def Cell.ioUnmapped (x : Cell) (a : Nat) : Bool := !ioMapped x.prof a

/-! ## Reads -/

/-- The route of shared source `n` names input `k` of cell `c` of device `d` (R158). -/
def routesTo (r : Nat) (d : BitVec 3) (c k : Nat) : Bool :=
  r % 4 == 1 && r / 4 % 8 == d.toNat && r / 32 % 128 == c && r / 4096 % 4 == k

/-- IC_SHIDk: the source of this device routed to input `k`. -/
def State.shId (s : State) (c : CellNo) (k : Nat) : Nat :=
  match (List.range 153).find? fun n => routesTo (s.objOr (0x2200 + n) 1 0) (s.homeOf c) c.val k with
  | some n => n + 256 * s.devId.toNat
  | none => 32768

/-- Status and peak registers of the video blocks (R196, R213, R230, R250, R267). -/
def Cell.viewVid (x : Cell) (plan : Nat) (a : Nat) : Byte :=
  let v := x.vid
  if a = 0x0422 || a = 0x0423 then byteOf v.shown.tp.toNat (a - 0x0422)
  else if a = 0x0510 then v.sprStat
  else if a = 0x0511 then BitVec.ofNat 8 (spriteLmax x.prof)
  else if a = 0x0512 || a = 0x0513 then byteOf v.shown.spr (a - 0x0512)
  else if 0x0514 ≤ a && a < 0x0518 then byteOf v.sprOvf.toNat (a - 0x0514)
  else if 0x0518 ≤ a && a < 0x051C then byteOf v.sprCol.toNat (a - 0x0518)
  else if a = 0x0588 then v.wgStat
  else if a = 0x0589 then BitVec.ofNat 8 (wgLmax x.prof)
  else if a = 0x058A || a = 0x058B then byteOf v.wgIrqLine (a - 0x058A)
  else if 0x058C ≤ a && a < 0x0590 then byteOf v.wgFlt.toNat (a - 0x058C)
  else if a = 0x0590 || a = 0x0591 then byteOf v.shown.wg (a - 0x0590)
  else if a = 0x0614 then v.compStat
  else if a = 0x0641 then (v.wbStat &&& 0x0F) ||| BitVec.ofNat 8 (16 * b2n v.wbOn)
  else if a = 0x0680 then v.lsStat
  else if a = 0x0682 || a = 0x0683 then byteOf v.missCnt.toNat (a - 0x0682)
  else if a = 0x0684 || a = 0x0685 then byteOf v.missLine (a - 0x0684)
  else if a = 0x0686 || a = 0x0687 then byteOf (min 0xFFFF v.shown.ls) (a - 0x0686)
  else if a = 0x0688 || a = 0x0689 then byteOf (min 0xFFFF plan) (a - 0x0688)
  else if 0x0804 ≤ a && a < 0x0807 then
    byteOf (Table.read (fun _ => (0 : BitVec 24)) v.palCore (x.reg16 0x0800 % palSize x.prof)).toNat (a - 0x0804)
  else x.reg8 a

/-- What a read of a mapped address answers, without any effect. -/
def State.viewIo (s : State) (c : CellNo) (a : Nat) : Byte :=
  let x := s.cell c
  if 0x0140 ≤ a && a < 0x0148 then byteOf (s.shId c ((a - 0x0140) / 2)) (a % 2)
  else if a < 0x0180 then x.viewCore c a
  else if a < 0x01C0 then x.viewTm a
  else if a = 0x01C0 then x.viewTg
  else if a = 0x01C1 then x.reg8 a
  else if a < 0x0200 then x.viewWd a
  else if a < 0x0300 then x.viewFg a
  else if a < 0x0380 then x.viewBlit a
  else if a < 0x03C0 then x.viewCk a
  else if a < 0x0400 then s.viewVt c a
  else if a < 0x0420 then x.viewBeam s.house a
  else if a < 0x0C00 then x.viewVid (entryPlan (s.slotEntry c)) a
  else if a < 0x0E00 then x.viewSnd a
  else if 0x0E80 ≤ a && a < 0x0F00 then s.viewPins c a
  else x.host.view a

/-- Multi-byte registers whose lowest byte captures the whole on a read: base and bytes. -/
def captureList : List (Nat × Nat) :=
  [(0x0024, 2), (0x0026, 2), (0x0048, 2), (0x004A, 4), (0x0054, 2), (0x0056, 2), (0x0058, 2), (0x0060, 4), (0x0064, 2),
   (0x0100, 4), (0x0104, 4), (0x0108, 4), (0x0304, 4), (0x0308, 4), (0x030C, 2), (0x030E, 2), (0x0310, 2), (0x0312, 2),
   (0x0314, 2), (0x0316, 2), (0x0318, 2), (0x031A, 2), (0x031C, 4), (0x0320, 4), (0x0324, 2), (0x032A, 2)] ++
  [(0x0384, 4), (0x0388, 4), (0x038C, 4), (0x0394, 4), (0x0398, 4), (0x040C, 6), (0x0422, 2), (0x0502, 2), (0x0504, 2),
   (0x0508, 4), (0x050C, 4), (0x0512, 2), (0x0514, 4), (0x0518, 4), (0x0584, 4), (0x058A, 2), (0x058C, 4), (0x0590, 2),
   (0x0602, 2), (0x0604, 2), (0x0606, 2), (0x0608, 2), (0x060A, 2), (0x060C, 2), (0x060E, 2), (0x0624, 2), (0x0628, 4),
   (0x062C, 4), (0x0642, 2), (0x0644, 4)] ++
  [(0x0682, 2), (0x0684, 2), (0x0686, 2), (0x0688, 2), (0x0800, 2), (0x0804, 3), (0x0C1A, 2), (0x0C1C, 2), (0x0F00, 8),
   (0x0E90, 2), (0x0E92, 2), (0x0E98, 2)]

/-- The capture group of an address, if it has one. -/
def captureGroup (a : Nat) : Option (Nat × Nat) :=
  match captureList.find? fun g => decide (g.1 ≤ a) && decide (a < g.1 + g.2) with
  | some g => some g
  | none =>
    if 0x0200 ≤ a && a < 0x0300 then
      let o := a % 64
      if 4 ≤ o && o < 20 then some (a - o % 4, 4) else if o = 20 || o = 21 then some (a - (o - 20), 2) else none
    else if 0x0440 ≤ a && a < 0x0500 then
      let o := a % 32
      if o = 4 || o = 5 then some (a - (o - 4), 2) else if 8 ≤ o && o < 16 then some (a - o % 4, 4)
      else if 16 ≤ o && o < 28 then some (a - o % 2, 2) else none
    else if 0x0C00 ≤ a && a < 0x0E00 then
      let o := a % 32
      let v := (a - 0x0C00) / 32
      if 4 ≤ o && o < 8 then some (a - o % 2, 2)
      else if v < 8 && 8 ≤ o && o < 12 then some (a - o % 4, 4)
      else if v < 8 && 12 ≤ o && o < 18 then some (a - o % 2, 2) else none
    else if 0x0E00 ≤ a && a < 0x0E40 then some (a - a % 8, 8)
    else if 0x0140 ≤ a && a < 0x0148 then some (a - a % 2, 2)
    else none

/-- A captured byte. -/
def Cell.captured (x : Cell) (a : Nat) : Byte := Table.read (resetByte x.prof) x.capt a

/-- Capture `n` bytes from `a` as they read now. -/
def State.capture (s : State) (c : CellNo) (a n : Nat) : State :=
  let bytes := (List.range n).map fun i => s.viewIo c (a + i)
  s.modCell c fun x => { x with capt := Table.writeList (resetByte x.prof) x.capt a bytes }

/-- What a read clears, pops or moves on: RCL and POP registers (R10, R11), RD_RUN, PAL_IDX (R234). -/
def Cell.readEffect (x : Cell) (a : Nat) : Cell :=
  if a = 0x0043 then { x with ctl := { x.ctl with resetCause := 0 } }
  else if a = 0x0058 then { x with pace := { x.pace with ovrCnt := 0 } }
  else if 0x0180 ≤ a && a < 0x01C0 then x.readTm a
  else if a = 0x03C1 then x.vtPop
  else if a = 0x0510 then { x with vid := { x.vid with sprStat := 0 } }
  else if a = 0x0588 then { x with vid := { x.vid with wgStat := 0 } }
  else if a = 0x0641 then { x with vid := { x.vid with wbStat := 0 } }
  else if a = 0x0682 then { x with vid := { x.vid with missCnt := 0 } }
  else if a = 0x0806 && x.regBit 0x0802 0 then
    let i := (x.reg16 0x0800 + 1) % 4096
    (x.putReg 0x0800 (byteOf i 0)).putReg 0x0801 (byteOf i 1)
  else x

/-- An access of the core or a forager reaches no register: IO_UNMAPPED (R57, R490). -/
def State.ioMiss (s : State) (c : CellNo) (ag : Agent) : State :=
  if ag = .debugger then s else s.modCtl c fun k => { k with ioUnmapped := true }

/-- The address is in the GPIO view while PD61 is not on (R490). -/
def State.ioDark (s : State) (a : Nat) : Bool := decide (0x0E80 ≤ a) && decide (a < 0x0F00) && !s.domOn 61

/-- A read by the core or a forager: the byte, and the state after its effects. -/
def State.ioRead (s : State) (c : CellNo) (ag : Agent) (a : Nat) : State × Byte :=
  if (s.cell c).ioUnmapped a || s.ioDark a then (s.ioMiss c ag, 0xFF)
  else
    match captureGroup a with
    | some (b, n) =>
      if a = b then ((s.capture c b n).modCell c (·.readEffect a), s.viewIo c a)
      else (s.modCell c (·.readEffect a), (s.cell c).captured a)
    | none => (s.modCell c (·.readEffect a), s.viewIo c a)

/-! ## Writes -/

/-- The pixel-clock position of a write: the pace pixel for the core, the cell beam's for others (R49, R105). -/
def Cell.writePixel (x : Cell) (ag : Agent) : Nat := if ag = .core then x.pacePixel else x.beam.hpix

/-- The palette port (R234). -/
def Cell.writePal (x : Cell) (pix a : Nat) (v : Byte) : Cell :=
  if a = 0x0804 || a = 0x0805 then x.putReg a v
  else if a = 0x0806 then
    let y := x.putReg a v
    let rgb : BitVec 24 := v ++ y.reg8 0x0805 ++ y.reg8 0x0804
    let i := y.reg16 0x0800
    let e := i % palSize x.prof
    let y := { y with vid := { y.vid with palCore := Table.write (fun _ => 0) y.vid.palCore e rgb } }
    let y := y.logWrite pix (.pal e rgb)
    if y.regBit 0x0802 0 then (y.putReg 0x0800 (byteOf ((i + 1) % 4096) 0)).putReg 0x0801 (byteOf ((i + 1) % 4096) 1) else y
  else x.writePlain a v

/-- Registers of the video blocks from 0420h to 0BFFh. -/
def Cell.writeVid (x : Cell) (pix a : Nat) (v : Byte) : Cell :=
  if a = 0x0614 then { x with vid := { x.vid with compStat := x.vid.compStat &&& ~~~v } }
  else if a = 0x0680 then { x with vid := { x.vid with lsStat := x.vid.lsStat &&& ~~~v } }
  else if 0x0800 ≤ a && a < 0x0807 then x.writePal pix a v
  else if lineLive8 x.prof a then
    let w := (resetByte x.prof a &&& ~~~(rwMask x.prof a)) ||| (v &&& rwMask x.prof a)
    (x.putReg a w).logWrite pix (.reg a w)
  else x.writePlain a v

/-- The registers of the cell's own blocks. -/
def Cell.writeReg (x : Cell) (pix a : Nat) (v : Byte) : Cell :=
  if a < 0x0180 then x.writeCore a v
  else if a < 0x01C0 then x.writeTm a v
  else if a = 0x01C0 then x.writeTg v
  else if a = 0x01C1 then x.writePlain a v
  else if a < 0x0200 then x.writeWd a v
  else if a < 0x0300 then x.writeFg a v
  else if a < 0x0380 then x.writeBlit a v
  else if a < 0x03C0 then x.writeCk a v
  else if 0x0400 ≤ a && a < 0x0420 then x.writeBeam a v
  else if 0x0420 ≤ a && a < 0x0C00 then x.writeVid pix a v
  else if 0x0C00 ≤ a && a < 0x0E00 then x.writeSnd pix a v
  else if 0x0E80 ≤ a && a < 0x0F00 then x.writePins a v
  else x

/-- A write that reaches a register. -/
def State.regWrite (s : State) (c : CellNo) (pix a : Nat) (v : Byte) : State :=
  if 0x03C0 ≤ a && a < 0x0400 then s.writeVt c a v
  else if (0x0E00 ≤ a && a < 0x0E80) || 0x0F00 ≤ a then s.writeHost c a v
  else s.modCell c fun x => x.writeReg pix a v

/-- A locked sequence completes (R118, R169, R314, R315). -/
def State.unlocked (s : State) (c : CellNo) (r : LockedReg) : State :=
  match r with
  | .sysReset => s.resetInPlace c 8
  | .mapKey => s.modMap c Mapper.unlock
  | .wdKick => s.modCell c Cell.kicked
  | .wdKey => s.modCell c Cell.keyed

/-- A write by the core, a forager or a debugger; `out` marks an OUT of the core, whose completion no sequence counts. -/
def State.ioWriteAs (s : State) (c : CellNo) (ag : Agent) (out : Bool) (a : Nat) (v : Byte) : State :=
  let p := if ag = .core then (s.cell c).lockedWrite a v out else (s.cell c, none)
  let s := s.setCell c p.1
  match p.2 with
  | some r => s.unlocked c r
  | none =>
    if (lockedAt a).isSome then s
    else if (s.cell c).ioUnmapped a || s.ioDark a then s.ioMiss c ag
    else s.regWrite c ((s.cell c).writePixel ag) a v

/-- A write made by an OUT, a forager or a debugger. -/
def State.ioWrite (s : State) (c : CellNo) (ag : Agent) (a : Nat) (v : Byte) : State := s.ioWriteAs c ag true a v

/-- An OUT of `v` to `a` completes the sequence of SYS_RESET (R118). -/
def State.outResets (s : State) (c : CellNo) (a : Nat) (v : Byte) : Bool := ((s.cell c).lockedWrite a v true).2 == some .sysReset

end Sys2Proof.Machine
end

