-- ==== Sys2Proof/Machine/BeamCmd.lean ====
section
/-! DEFINITION. The commands of the beams: house frames, sync pulses, program and cell lines and frames, the shadow transfer,
and reads and writes of cell registers (R33 to R54, R102 to R106, R119). -/

namespace Sys2Proof.Machine

/-! ## The house beam -/

/-- House frames run from the end of TRAIN (R36). -/
def Mode.beamRuns : Mode → Bool
  | .ready => true | .serve => true | .limited => true | .drain => true | .diag => true
  | .off => false | .hold => false | .sense => false | .load => false | .train => false | .retain => false
  | .faultHold => false

/-- HOUSE_FRAME_START (R33). -/
def execHouseFrameStart (slots : List SlotAssign) (scouts : List ScoutRead) (s : State) : Res :=
  .next (if s.pwr.mode.beamRuns then s.houseFrame slots scouts else s)

/-- FRAME_PULSE (R40). -/
def execFramePulse (ofs err rate disc : Int) (s : State) : Res :=
  .next (if s.pwr.mode.beamRuns && s.followsPulses then s.beamPulse { ofs := ofs, err := err, rate := rate, disc := disc } else s)

/-- LINE_PULSE (R40): only while XS_LINE_EN is 1 (R37). -/
def execLinePulse (win : Nat) (ofs err : Int) (s : State) : Res :=
  .next (if s.pwr.mode.beamRuns && s.followsPulses && s.objOr 0x2101 3 0 != 0 then s.linePulse win ofs err else s)

/-- SYNC_WINDOW_EXPIRE (R38, R40). -/
def execSyncWindowExpire (s : State) : Res :=
  .next (if s.pwr.mode.beamRuns && (s.followsPulses || s.followsSwarm) then s.windowEnd else s)

/-- HOLDOVER_EXPIRE (R34, R38). -/
def execHoldoverExpire (s : State) : Res :=
  .next (if s.house.src == 3 && s.house.lock == .holdover && decide (64 ≤ s.house.holdFrames) then s.setLock .free else s)

/-! ## Shadow transfer (R51 to R53) -/

/-- The shadowed registers, the geometry group aside. -/
def shadowRanges : List (Nat × Nat) :=
  [(0x0440, 0x04FF), (0x0501, 0x050F), (0x0580, 0x0580), (0x0584, 0x0587), (0x0620, 0x062F), (0x0640, 0x0640), (0x0642, 0x0647)]

/-- The address is that of a shadowed register of the profile, the geometry group aside (R51). -/
def shadowedReg (prof : Byte) (a : Nat) : Bool :=
  ioMapped prof a && !lineLive8 prof a && shadowRanges.any fun r => decide (r.1 ≤ a) && decide (a ≤ r.2)

/-- The address is that of the geometry group (R53). -/
def geomReg (a : Nat) : Bool := decide (a = 0x0400) || (decide (0x0402 ≤ a) && decide (a ≤ 0x0409))

/-- The shadows become live. -/
def Cell.transferShadows (x : Cell) : Cell :=
  shadowRanges.foldl
    (fun x r => (List.range (r.2 + 1 - r.1)).foldl
      (fun x i => if shadowedReg x.prof (r.1 + i) then x.putLive (r.1 + i) (x.reg8 (r.1 + i)) else x) x) x

/-- The transfer at the start of cell beam line VB_VACTIVE (R52, R53, R199). -/
def State.transfer (s : State) (c : CellNo) : State :=
  let x := s.cell c
  if !x.beam.commit then s
  else
    let g := x.shadowGeom
    let r := x.beam.transferGeom (geomOk x.prof s.house.frameClks s.house.rate.toNat g) g
    let y := { x with beam := { r.1 with commit := false, commitDone := true } }
    let y := (y.transferShadows.snapBegin).edge 3
    let y := if r.2 && !x.beam.geomErr then y.edge 4 else y
    let s := s.setCell c y
    if r.2 then s.raise 3 c.val true 0 else s

/-! ## Cell beam lines and frames -/

/-- A cell frame starts: its number, the copies of R560, and the sample rate of R319. -/
def Cell.frameStart (x : Cell) (clks : Nat) : Cell :=
  let b := x.beam
  let v := x.vid
  let shown := v.prev.getD v.coll
  let y := { x with
    beam := { b with started := true, frame := if b.started then b.frame + 1 else b.pframe }
    vid := { v with
      shown := shown, coll := if v.prev.isSome then v.coll else {}, prev := none
      peaks := if b.started then (shown.ls :: v.peaks).take 8 else v.peaks } }
  y.sndFrame clks

/-- A relock of the cell's bridge makes every port bridge that it feeds acquire again (R338). -/
def State.relockPorts (s : State) (c : CellNo) : State :=
  let dev := s.homeOf c
  (List.finRange 4).foldl
    (fun s n =>
      let p := s.ports.get n
      if p.bridge != 0 && p.src.getLsbD 0 && p.src.toNat / 16 % 128 == c.val && p.src.toNat / 2 % 8 == dev.toNat then
        s.modPort n fun p => { p with bridge := 1, relocks := satInc p.relocks }
      else s) s

/-- Cell beam line `n` starts. -/
def State.cellLine (s : State) (c : CellNo) (n : Nat) : State :=
  let s := s.modCell c fun x => { x with beam := { x.beam with line := n }, snd := { x.snd with idx := 0 } }
  let x := s.cell c
  if n = 0 then
    let y := x.frameStart s.house.frameClks
    let s := s.setCell c y
    if y.snd.relocks = x.snd.relocks then s else s.relockPorts c
  else if n = x.beam.geom.vactive then s.transfer c
  else s

/-- CELL_LINE_START (R44, R48): the first one is line 0, at the start of program line 2. -/
def execCellLineStart (c : CellNo) (s : State) : Res :=
  onLive c s <|
    let b := (s.cell c).beam
    if !b.on || b.waiting then .next s
    else if !b.started then .next (if 2 ≤ b.pline then s.cellLine c 0 else s)
    else .next (s.cellLine c (if b.line + 1 < b.geom.vtotal then b.line + 1 else 0))

/-- GEOM_SWITCH (R46, R53): at the lock point the held geometry becomes live and S follows by continuity. -/
def execGeomSwitch (c : CellNo) (s : State) : Res :=
  onLive c s <|
    let x := s.cell c
    match x.beam.held with
    | none => .next s
    | some h =>
      if !x.beam.on || x.beam.heldAge < 2 || x.beam.pgeom ≠ h then .next s
      else
        let L := s.house.frameClks
        let b := { x.beam with
          geom := h, held := none, heldAge := 0, d := dOf h L, line := h.vtotal - 1
          stagger := s.house.frame.toNat % h.den * L + x.beam.stagger % L }
        .next (s.setCell c { x with beam := b })

/-- SPRITE_SNAPSHOT_DONE (R200). -/
def execSpriteSnapshotDone (c : CellNo) (s : State) : Res :=
  onLive c s <|
    match (s.cell c).vid.snap with
    | none => .next s
    | some (b, n) => .next (s.modCell c fun x => x.snapshot b n)

/-! ## Program beam and pace -/

/-- The present program line ends: credit that has not accrued does so, and an overrun line is reported (R102, R104,
R106). -/
def State.endLine (s : State) (c : CellNo) : State :=
  let x := s.cell c
  let p := x.pace.accrueRest x.runnable (x.pace.q - x.pace.acc)
  if !p.shortfall then s.setCell c { x with pace := { p with last := BitVec.ofNat 16 p.k } }
  else
    let first := !p.noticed
    let q := { p with
      last := BitVec.ofNat 16 p.k, ovr := true, shared := p.shared || p.waited, ovrCnt := satInc16 p.ovrCnt
      pend := p.pend || x.regBit 0x0050 0, noticed := true }
    let total := satInc x.ctl.paceOvrTotal
    let s := s.setCell c { x with pace := q, ctl := { x.ctl with paceOvrTotal := total } }
    if first then s.raise 5 c.val true total.toNat else s

/-- The rate of the line that starts (R102); a guest's was set at home. -/
def State.lineRate (s : State) (c : CellNo) : Nat :=
  let x := s.cell c
  if x.kp.guest.isSome then x.pace.m else nextRate x.prof (s.objOr (0x4000 + 16 * c.val) 4 100)

/-- A core with two resident cells serves the one whose program line starts; the other one waits (R18, R104). -/
def State.shareCore (s : State) (c : CellNo) : State :=
  match (s.cell c).kp.core with
  | none => s
  | some k =>
    let l := s.onCoreCells k
    if l.length < 2 then s
    else l.foldl
      (fun s d => s.modCell d fun x => { x with
        kp := { x.kp with onCore := decide (d = c) }
        pace := { x.pace with waited := x.pace.waited || decide (d ≠ c) } }) s

/-- What every program line start does once the line is set up: edges, timers, inputs (R147, R300, R308, R417). -/
def State.lineEvents (s : State) (c : CellNo) : State :=
  let s := s.modCell c fun x =>
    let b := x.beam
    let x := if b.linecmp = b.pline then x.edge 2 else x
    let x := if b.pline = b.pgeom.vactive then x.edge 1 else x
    let x := { x with snd := { x.snd with logCount := 0 } }
    x.tmLineStart.tmCaptureOn 2 0
  let s := s.applyInput c (BitVec.ofNat 8 (s.objOr (0x4007 + 16 * c.val) 5 0)) (s.pinPort c)
  s.shareCore c

/-- PROGRAM_LINE_START (R47); `sw` marks the last line before a geometry switch (R53). -/
def execProgramLineStart (c : CellNo) (sw : Bool) (s : State) : Res :=
  onLive c s <|
    let b := (s.cell c).beam
    if !b.on || b.waiting || b.pgeom.vtotal ≤ b.pline + 1 then .next s
    else
      let s := s.endLine c
      let m := s.lineRate c
      let s := s.modCell c fun x =>
        let b := x.beam
        let last := decide (b.pline + 2 = b.pgeom.vtotal) && decide (b.pIv + 1 = b.pgeom.num)
        let x := { x with beam := { b with pline := b.pline + 1, switchNext := sw && last && b.held.isSome, hpix := 0 } }
        x.startLine s.house.frameClks m x.pace.tEnd
      .next (s.lineEvents c)

/-- The first program frame starts: pace counts from here (R44, R102). -/
def Cell.firstFrame (x : Cell) (clks m : Nat) : Cell :=
  let x := { x with
    beam := { x.beam with waiting := false, started := false, pline := 0, pframe := 0, pIv := 0, hpix := 0, pgeom := x.beam.geom }
    pace := { x.pace with tIv := 0, line01 := none } }
  x.startLine clks m 0

/-- The next program frame starts, with the held geometry where the switch is due (R43, R53). -/
def Cell.nextFrame (x : Cell) (clks m : Nat) : Cell :=
  let b := x.beam
  let p := x.pace
  let g := b.pgeom
  let wrap := decide (g.num ≤ b.pIv + 1)
  let ivEnd := p.tIv + g.den * clks * 16777216
  let tIv := match b.switchNext, b.held with
    | true, some h => ivEnd + 2 * lineLen g clks - 2 * lineLen h clks
    | _, _ => if wrap then ivEnd else p.tIv
  let pg := match b.switchNext, b.held with
    | true, some h => h
    | _, _ => g
  let short := b.switchNext && decide (lineLen g clks < lineLen pg clks)
  let x := { x with
    beam := { b with
      pline := 0, pframe := b.pframe + 1, pIv := if wrap then 0 else b.pIv + 1, hpix := 0, pgeom := pg, switchNext := false }
    pace := { p with tIv := tIv, line01 := if short then some (lineLen g clks) else none } }
  x.startLine clks m p.tEnd

/-- The core move decided for this program frame start begins: the old core stops the cell, products land (R360). -/
def Cell.moveBegins (x : Cell) (now : Long) : Cell :=
  if x.kp.nextCore.isSome && x.ctl.st != .migrating then { x.suspendCount now with kp := { (x.suspendCount now).kp with moving := true } }
  else x

/-- PROGRAM_FRAME_START (R44, R47, R360). -/
def execProgramFrameStart (c : CellNo) (s : State) : Res :=
  onLive c s <|
    let b := (s.cell c).beam
    if !b.on then .next s
    else if b.waiting then
      let m := s.lineRate c
      let s := s.modCell c fun x => ((x.firstFrame s.house.frameClks m).edge 0).tmCaptureOn 3 0
      .next ((s.lineEvents c).modCell c fun x => x.moveBegins s.devTime)
    else if b.pline + 1 < b.pgeom.vtotal then .next s
    else
      let s := s.endLine c
      let m := s.lineRate c
      let s := s.modCell c fun x => ((x.nextFrame s.house.frameClks m).edge 0).tmCaptureOn 3 0
      .next ((s.lineEvents c).modCell c fun x => x.moveBegins s.devTime)

/-- PACE_CREDIT (R102, R104). -/
def execPaceCredit (c : CellNo) (s : State) : Res :=
  onLive c s <|
    let x := s.cell c
    .next (if x.beam.on && !x.beam.waiting && decide (x.pace.acc < x.pace.q) then
      s.setCell c { x with pace := x.pace.accrue x.runnable } else s)

/-! ## Register accesses -/

/-- A command for a cell whose core and beam state is live (R96). -/
def onStarted (c : CellNo) (s : State) (k : Res) : Res :=
  onLive c s (if (s.cell c).ctl.st.started then k else .next s)

/-- A read by the core outside an IN of the queue: the byte it answers stands in the cell's control block. -/
def State.coreRead (s : State) (c : CellNo) (a : Nat) : State :=
  let r := s.ioRead c .core a
  r.1.modCtl c fun k => { k with rd := r.2 }

/-- The pixel-clock position at which an access is made. -/
def State.atPixel (s : State) (c : CellNo) (pix : Nat) : State :=
  s.modBeam c fun b => { b with hpix := min pix (b.pgeom.htotal - 1) }

/-- VID_COMMIT (R52): COMMIT is written. -/
def execVidCommit (c : CellNo) (s : State) : Res := onStarted c s (.next (s.ioWriteAs c .core false 0x0414 1))

/-- VB_CAPTURE_READ (R54). -/
def execVbCaptureRead (c : CellNo) (pix : Nat) (s : State) : Res :=
  onStarted c s (.next ((s.atPixel c pix).coreRead c 0x040C))

/-- REG_CAPTURE_READ (R119): a read of any register of the cell. -/
def execRegCaptureRead (c : CellNo) (addr : Half) (s : State) : Res := onStarted c s (.next (s.coreRead c addr.toNat))

/-- REG_WRITE (R9). -/
def execRegWrite (c : CellNo) (by_ : Agent) (addr : Half) (v : Byte) (s : State) : Res :=
  onStarted c s (.next (s.ioWriteAs c by_ false addr.toNat v))

/-- LINE_LIVE_WRITE (R49): a write of a line-live register with the beam at pixel clock `pix`. -/
def execLineLiveWrite (c : CellNo) (by_ : Agent) (addr : Half) (v : Byte) (pix : Nat) (s : State) : Res :=
  onStarted c s (.next (if lineLive8 (s.cell c).prof addr.toNat then (s.atPixel c pix).ioWriteAs c by_ false addr.toNat v else s))

end Sys2Proof.Machine
end

