-- ==== Sys2Proof/Machine/CellCmd.lean ====
section
/-! DEFINITION. The commands of cell lifecycles, control-store repair, interrupts, the mapper and cell images (R96 to R118,
R138, R147 to R160, R163 to R178). -/

namespace Sys2Proof.Machine

/-- CS_REPAIR_DONE (R138, R139): the first waiting repair ends. -/
def execCsRepairDone (ok : Bool) (s : State) : Res :=
  match s.stores.repairs with
  | [] => .next s
  | (u, _) :: r =>
    let t := { s.stores with repairs := r }
    if ok then .next { s with stores := { t with softErr := t.softErr + 1 } }
    else .next (({ s with stores := { t with hardErr := t.hardErr + 1, closed := t.closed ++ [u] } }).raise 7 0 false s.stores.lastErr.toNat)

/-! ## Cell commands (R97) -/

/-- CELL_START (R44, R97, R351, R362): the keeper's core and stagger must be ones that it may choose. -/
def execCellStart (c : CellNo) (core : Fin 128) (stagger : Nat) (s : State) : Res :=
  onLive c s <|
    let g := resetGeom (s.cell c).prof
    let line := lineLen g s.house.frameClks / 16777216
    if s.coreOk c core && decide (stagger < s.house.frameClks) && stagger % max 1 line == 0 then
      s.takeCmd c .start fun s => if (s.cell c).ctl.st = .loaded then some (s.startCell c core stagger) else none
    else .next s

/-- CELL_PAUSE. -/
def execCellPause (c : CellNo) (s : State) : Res :=
  onLive c s <| s.takeCmd c .pause fun s =>
    match (s.cell c).ctl.st with
    | .running => some (s.modCell c Cell.pause)
    | .sleep => some (s.modCell c Cell.pause)
    | .empty => none | .loaded => none | .paused => none | .halted => none | .migrating => none | .faulted => none

/-- CELL_RESUME, with the program beam at pixel clock `pix`. -/
def execCellResume (c : CellNo) (pix : Nat) (s : State) : Res :=
  onLive c s <| s.takeCmd c .resume fun s =>
    if (s.cell c).ctl.st = .paused then some (s.modCell c fun x => x.resume pix) else none

/-- CELL_STOP. -/
def execCellStop (c : CellNo) (s : State) : Res :=
  onCell c s <| s.takeCmd c .stop fun s => if (s.cell c).ctl.st.started then some (s.stopCell c) else none

/-- CELL_RESET_CMD (R97, R116). -/
def execCellResetCmd (c : CellNo) (s : State) : Res :=
  onLive c s <| s.takeCmd c .reset fun s =>
    match (s.cell c).ctl.st with
    | .running => some (s.resetInPlace c 2)
    | .paused => some (s.resetInPlace c 2)
    | .sleep => some (s.resetInPlace c 2)
    | .halted => some (s.resetInPlace c 2)
    | .empty => none | .loaded => none | .migrating => none | .faulted => none

/-- CELL_UNLOAD (R97, R176). -/
def execCellUnload (c : CellNo) (s : State) : Res :=
  onCell c s <| s.takeCmd c .unload fun s => if (s.cell c).ctl.st = .loaded then some (s.unloadCell c) else none

/-- WAKE (R113, R114): pixel clock of the beam, and the slow-clock cycles that the sleep lasted. -/
def execWake (c : CellNo) (pix ticks : Nat) (s : State) : Res :=
  onLive c s <|
    let x := s.cell c
    .next (if x.actual == .sleep && x.wakeStands then s.setCell c (x.wakeUp pix ticks) else s)

/-- SLEEP_ALARM (R311): the alarm of timer `n` sets the latch of its source. -/
def execSleepAlarm (c : CellNo) (n : Fin 4) (s : State) : Res :=
  onLive c s <|
    let x := s.cell c
    .next (if x.actual == .sleep && x.alarmFor s.house.frameClks n then
      s.setCell c { x with
        ic := x.ic.edgeAsleep (8 + n.val), ctl := { x.ctl with alarms := putBit x.ctl.alarms n.val true } }
    else s)

/-! ## Core and system registers -/

/-- A write by the core of the register at `a`. -/
def coreWrite (c : CellNo) (a : Nat) (v : Byte) (s : State) : Res := onStarted c s (.next (s.ioWriteAs c .core false a v))

/-- A read by the core of the register at `a`. -/
def coreReadAt (c : CellNo) (a : Nat) (s : State) : Res := onStarted c s (.next (s.coreRead c a))

/-- SYS_RESET_WRITE (R118). -/
def execSysResetWrite (c : CellNo) (v : Byte) (s : State) : Res := coreWrite c 0x0044 v s

/-- LOCKED_SEQ_EXPIRE (R557): a sequence with 17 counted instructions is abandoned. -/
def execLockedSeqExpire (c : CellNo) (s : State) : Res := onStarted c s (.next (s.modCell c Cell.expireLocked))

/-- RESET_CAUSE_READ (R116). -/
def execResetCauseRead (c : CellNo) (s : State) : Res := coreReadAt c 0x0043 s

/-- PACE_OVR_CNT_READ (R104). -/
def execPaceOvrCntRead (c : CellNo) (s : State) : Res := coreReadAt c 0x0058 s

/-! ## Interrupts (R147 to R160) -/

/-- IC_PENDSET_WRITE (R148). -/
def execIcPendsetWrite (c : CellNo) (byte : Fin 4) (v : Byte) (s : State) : Res := coreWrite c (0x0104 + byte.val) v s

/-- IC_EOI_WRITE (R151). -/
def execIcEoiWrite (c : CellNo) (v : Byte) (s : State) : Res := coreWrite c 0x010E v s

/-- INT_SOURCE_EDGE (R148, R149). -/
def execIntSourceEdge (c : CellNo) (n : Fin 32) (s : State) : Res := onStarted c s (.next (s.edge c n.val))

/-- SHARED_SOURCE_EVENT (R157 to R160). -/
def execSharedSourceEvent (n : Fin 153) (s : State) : Res := .next (if s.dictServed then s.fireShared n else s)

/-! ## Mapper (R168, R169) -/

/-- MAP_WINDOW_WRITE (R168): windows I0 to I7, then D0 to D7. -/
def execMapWindowWrite (c : CellNo) (n : Fin 16) (high : Bool) (v : Byte) (s : State) : Res :=
  coreWrite c (2 * n.val + b2n high) v s

/-- MAP_KEY_WRITE (R169). -/
def execMapKeyWrite (c : CellNo) (v : Byte) (s : State) : Res := coreWrite c 0x0021 v s

/-! ## Cell images (R177, R178) -/

/-- The header fields of an image. -/
structure ImgHead where
  profile : Byte
  pages : Nat
  roPages : Nat
  initPages : Nat
  table : List Half
  title : Long
  crc : Word
  deriving DecidableEq, Repr

/-- The map table of a header. -/
def imgTable : List Byte → List Half
  | a :: b :: r => (b ++ a) :: imgTable r
  | _ => []

/-- The header of an image, if its CRC, magic, version and page counts pass (check 1 of R178). -/
def imgHead (l : List Byte) : Option ImgHead :=
  let h := l.take 64
  let n (i k : Nat) : Nat := ofBytes ((h.drop i).take k)
  let g : ImgHead :=
    { profile := BitVec.ofNat 8 (n 4 1), pages := n 6 2, roPages := n 8 2, initPages := n 10 2
      table := imgTable ((h.drop 12).take 32), title := BitVec.ofNat 64 (n 44 8), crc := BitVec.ofNat 32 (n 52 4) }
  if h.length == 64 && (crc32c (h.take 56)).toNat == n 56 4 && n 0 4 == 0x314D4943 && n 5 1 == 1 &&
      decide (1 ≤ g.pages) && decide (g.pages ≤ 1024) && decide (g.roPages ≤ g.pages) && decide (g.initPages ≤ g.pages - g.roPages)
  then some g else none

/-- Check 3 of R178: the map table. -/
def imgTableOk (g : ImgHead) : Bool :=
  let i := g.table.take 8
  let d := g.table.drop 8
  let i7 := i.getLastD 0
  i.all (fun w => w &&& 0xE000 == 0) && d.all (fun w => w &&& 0xC000 == 0) && winEn i7 && decide (winUnit i7 < 4 * g.pages)

/-- The first check of R178 that an image fails, as an IMG_STAT code. -/
def State.imgCheck (s : State) (c : CellNo) (l : List Byte) : Byte ⊕ ImgHead :=
  match imgHead l with
  | none => .inl 3
  | some g =>
    let body := l.drop 64
    if g.profile != (s.cell c).prof || !imgTableOk g || l.length != 64 + 32768 * (g.roPages + g.initPages) ||
        s.objOr (0x4001 + 16 * c.val) 3 0 != l.length then .inl 3
    else if s.dataPages < s.keptPages.length + g.pages then .inl 4
    else if crc32c body != g.crc then .inl 5
    else .inr g

/-- Cell space after a load: unlisted bytes are zeros. -/
def imgMem (l : List Byte) : List Host.Cell := (l.zipIdx).filterMap fun (b, i) => if b = 0 then none else some (i, b)

/-- The cell enters LOADED (R97, R178). -/
def State.loadCell (s : State) (c : CellNo) (g : ImgHead) (body : List Byte) (pages : List PageAlloc) : State :=
  let s := s.allocPages c g.roPages pages
  s.modCell c fun x =>
    let win := (List.range 16).foldl (fun (v : Vector Half 16) i => v.setIfInBounds i (g.table.getD i 0)) (Vector.replicate 16 0)
    { x with
      ctl := { x.ctl with st := .loaded, prior := .empty }
      mem := imgMem body, regs := [], live := []
      map := ({ x.map with table := win, pages := g.pages, ropages := g.roPages } : Mapper).reset
      img := { stat := 2, profile := g.profile, title := g.title } }

/-- IMG_LOAD_DONE (R178, R351, R355, R387). -/
def execImgLoadDone (c : CellNo) (img : Option (List Byte)) (pages : List PageAlloc) (s : State) : Res :=
  onCell c s <|
    let x := s.cell c
    let stat (v : Byte) : Res := .next (s.modCell c fun x => { x with img := { x.img with stat := v } })
    if x.img.stat ≠ 1 || x.kp.guest.isSome then .next s
    else
      match img with
      | none => stat 6
      | some l =>
        match s.imgCheck c l with
        | .inl v => stat v
        | .inr g => if s.allocOk (s.tenantOf c) g.pages pages then .next (s.loadCell c g (l.drop 64) pages) else .next s

/-! ## Page moves and sharing (R173 to R175, R359) -/

/-- The keeper works in the modes that serve cells or may load them. -/
def State.keeperOn (s : State) : Bool := s.pwr.mode.beamRuns

/-- PAGE_MOVE_START (R173, R358). -/
def execPageMoveStart (page : PageNo) (dest : Place) (forced : Bool) (s : State) : Res :=
  .next (if s.keeperOn && s.moveOk page.val dest forced then s.startMove page.val dest forced else s)

/-- PAGE_REDIRECT (R173): redirect and release. -/
def execPageRedirect (page : PageNo) (s : State) : Res :=
  match s.keeper.moves.find? fun m => m.page == page.val with
  | none => .next s
  | some m => .next (s.endMove m)

/-- The listed bytes of entry `i`, with their offsets in the page. -/
def State.pageBytes (s : State) (i : Nat) : Option (List Host.Cell) :=
  match s.sharers i with
  | [] => none
  | c :: _ =>
    let x := s.cell c
    match x.kp.pmap.findIdx? (· == i) with
    | none => none
    | some k => some ((x.mem.filter fun e => e.1 / 32768 == k).map fun e => (e.1 % 32768, e.2))

/-- The scopes of two cells allow them to share (R175). -/
def State.mayShare (s : State) (c d : CellNo) : Bool :=
  let m (c : CellNo) : Nat := 0x4001 + 16 * c.val
  let scope (c : CellNo) : Nat := s.objOr (m c) 0x0A 1
  let same := s.objOr (m c) 9 0 == s.objOr (m d) 9 0
  (scope c == 2 || (scope c == 1 && same)) && (scope d == 2 || (scope d == 1 && same))

/-- Entry `b` is given up for the equal entry `a` (R174, R357). -/
def State.sharePages (s : State) (a b : Nat) : State :=
  let cells := s.sharers a ++ s.sharers b
  let ea := s.pte a
  let heat := min 4095 (pteHeat ea + pteHeat (s.pte b))
  let low := cells.foldl (fun m c => min m c.val) 127
  let s := (s.sharers b).foldl (fun s c => s.modKp c fun k => { k with pmap := k.pmap.map fun i => if i = b then a else i }) s
  let place : Place := match pteLoc ea with
    | 1 => .wax (Fin.ofNat 1536 (pteOslot ea))
    | 2 => .sram (Fin.ofNat 16 (pteOslot ea / 32)) (Fin.ofNat 32 (pteOslot ea))
    | _ => .rld (pteFrame ea)
  (s.setPte a (mkPte 1 place (pteFrame ea) heat cells.length low true)).setPte b 0

/-- PAGE_SHARE_COMPARE (R174, R175, R359). -/
def execPageShareCompare (a b : PageNo) (s : State) : Res :=
  let ea := s.pte a.val
  let eb := s.pte b.val
  let ok := s.keeperOn && s.objOr 0x3000 5 1 != 0 && a != b && pteState ea == 1 && pteState eb == 1 && pteCat ea && pteCat eb &&
    (s.sharers a.val).all (fun c => (s.sharers b.val).all fun d => s.mayShare c d)
  .next (if ok && (s.pageBytes a.val).isSome && s.pageBytes a.val == s.pageBytes b.val then s.sharePages a.val b.val else s)

end Sys2Proof.Machine
end

