-- ==== Sys2Proof/Machine/Micro.lean ====
section
/-! DEFINITION. Extension microcode (R122 to R144): the words that a core executes from the extension region, their
checks, and the routine from its entry to DISP. -/

namespace Sys2Proof.Machine

/-! ## The word (R122, R123) -/

/-- Bits [lo + n − 1 : lo] of a microword. -/
def uf (w : BitVec 144) (lo n : Nat) : Nat := w.toNat / 2 ^ lo % 2 ^ n

/-- The number of 1 bits among the low `n` bits. -/
def ones (v : Nat) : Nat → Nat
  | 0 => 0
  | n + 1 => v % 2 + ones (v / 2) n

/-- The quarters of a word with even parity (R122). -/
def evenQuarters (w : BitVec 144) : Nat :=
  ((List.range 4).map fun k => if ones (uf w (36 * k) 36) 36 % 2 = 0 then 2 ^ k else 0).sum

/-- SEQ operations whose next word can be Next (R142). -/
def seqCanNext (q : Nat) : Bool := [0, 2, 3, 4, 9].contains q

/-- SEQ operations that use NEXT (R142). -/
def seqUsesNext (q : Nat) : Bool := [1, 2, 3, 4, 7, 8, 9].contains q

/-- The extension rules of R142: SEQ is not MRET, NEXT, the word at 1FFFh, the fields that stay 0, TRAP. -/
def extKeeps (addr : Nat) (w : BitVec 144) : Bool :=
  let q := uf w 0 4
  q != 11 && uf w 29 2 == 0 && uf w 104 1 == 0 && uf w 110 3 == 0 && uf w 113 2 == 0 && uf w 115 2 == 0 && uf w 117 1 == 0 &&
  uf w 118 25 == 0 &&
  (if seqUsesNext q then decide (0x1800 ≤ uf w 10 13) else uf w 10 13 == 0) &&
  !(addr == 0x1FFF && seqCanNext q) &&
  (uf w 103 1 == 0 || uf w 98 5 == 28)

/-- No reserved code and no reserved bit (R136). -/
def noReserved (w : BitVec 144) : Bool :=
  decide (uf w 0 4 < 12) && decide (uf w 4 5 < 0x14) && uf w 24 1 == 0 && uf w 27 2 != 3 && uf w 31 4 == 0 &&
  uf w 51 2 != 3 && decide (uf w 59 5 < 0x14) && uf w 72 3 != 7 && uf w 78 2 != 3 && uf w 82 2 != 3 && uf w 86 2 == 0 &&
  uf w 105 2 == 0

/-- The rules of R136 and R142 that a word of the extension region keeps, apart from parity. -/
def wordLawful (addr : Nat) (w : BitVec 144) : Bool := noReserved w && extKeeps addr w

/-! ## Routine state -/

/-- The sequencer of a core within a routine (R125, R131). -/
structure Uctx where
  s : State
  addr : Nat
  t : Vector Byte 4
  uctr : Byte := 0
  ustack : List Nat := []
  aluC : Bool := false
  aluZ : Bool := false
  committed : Bool := false
  /-- Data of the previous word's bus read. -/
  bus : Half := 0
  /-- IR0 to IR3. -/
  ir : Vector Byte 4
  /-- PC was last written by PCOP as a transfer of control. -/
  jumped : Bool := false

/-- What a word answers. -/
inductive Ustep where
  | go (u : Uctx)
  | done (u : Uctx)
  | error (quarters : Nat)
  | trap (a : Abandon)

/-- The micro-address of a VALID 16-bit table entry (R121). -/
def entryAddr (e : Half) : Option Half := if e.getLsbD 15 then some (e &&& 0x1FFF) else none

/-- The extension I/O entry for an address, IN or OUT (R121). -/
def State.extIoEntry (s : State) (a : Nat) (out : Bool) : Option Half :=
  entryAddr (Table.read (fun _ => (0 : Half)) s.stores.extIo (2 * (a / 256 % 16) + b2n out))

/-- The dispatch entry of an extension opcode (R121). -/
def State.extOpEntry (s : State) (op : Byte) : Option Half :=
  entryAddr (Table.read (fun _ => (0 : Half)) s.stores.extDisp op.toNat)

/-- Register-file read (R125). -/
def Uctx.reg (u : Uctx) (c : CellNo) (n : Nat) : Byte :=
  let k := (u.s.cell c).core
  if h : n < 16 then k.rb ⟨n, h⟩
  else if n = 16 then loByte k.sp else if n = 17 then hiByte k.sp
  else if n = 18 then loByte k.pc else if n = 19 then hiByte k.pc
  else if n = 20 then k.f
  else if n = 21 then loByte k.mhml else if n = 22 then hiByte k.mhml
  else if n = 23 then k.ed
  else if n < 28 then u.t.getD (n - 24) 0
  else u.ir.getD (n - 28) 0

/-- Word at the even address below or at `n`. -/
def Uctx.regW (u : Uctx) (c : CellNo) (n : Nat) : Half := u.reg c (n / 2 * 2 + 1) ++ u.reg c (n / 2 * 2)

/-- A register-file address by its source code (R123): the field, or fields of IR1. -/
def Uctx.port (u : Uctx) (src ra wid : Nat) : Nat :=
  let i := (u.ir.getD 1 0).toNat
  match src with
  | 0 => ra
  | 1 => if wid = 1 then 2 * (i % 8) else i % 16
  | 2 => if wid = 1 then 2 * (i / 16 % 8) else i / 16
  | _ => 2 * (i % 8)

/-- Registers that the write port may not write (R125). -/
def portRefused (n : Nat) : Bool := decide (18 ≤ n) && decide (n ≤ 23) || decide (28 ≤ n)

/-- Register-file byte write. -/
def Uctx.setReg (u : Uctx) (c : CellNo) (n : Nat) (v : Byte) : Uctx :=
  if h : n < 16 then { u with s := u.s.modCore c fun k => k.setB ⟨n, h⟩ v }
  else if n = 16 then { u with s := u.s.modCore c fun k => { k with sp := hiByte k.sp ++ v } }
  else if n = 17 then { u with s := u.s.modCore c fun k => { k with sp := v ++ loByte k.sp } }
  else if 24 ≤ n ∧ n < 28 then { u with t := u.t.setIfInBounds (n - 24) v }
  else u

/-- Word write at an even register-file address. -/
def Uctx.setRegW (u : Uctx) (c : CellNo) (n : Nat) (v : Half) : Uctx :=
  (u.setReg c (n / 2 * 2) (loByte v)).setReg c (n / 2 * 2 + 1) (hiByte v)

/-- What the ALU gives: result, carry or bit shifted out, overflow, half carry. -/
structure AluOut where
  r : Half
  c : Bool := false
  v : Bool := false
  h : Bool := false

/-- ALU operations (R126) on words, or on bytes held in the low half. The result of a byte-only operation asked for as
a word operation is stated nowhere: it is a free value. -/
def ualu (op : Nat) (word : Bool) (a b : Half) (f ir2 : Byte) : AluOut :=
  let a8 := loByte a
  let b8 := loByte b
  let w := (ir2.toNat / 16 % 8) + 1
  let o := ir2.toNat % 8
  let ci := carryIn f
  let arith (sub : Bool) (cin : Nat) : AluOut :=
    if word then
      let r := if sub then a - b - BitVec.ofNat 16 cin else a + b + BitVec.ofNat 16 cin
      { r := r
        c := if sub then decide (a.toNat < b.toNat + cin) else decide (65535 < a.toNat + b.toNat + cin)
        v := if sub then decide (a.toInt - b.toInt - cin ≠ r.toInt) else decide (a.toInt + b.toInt + cin ≠ r.toInt) }
    else
      let fl := if sub then subFlags8 a8 b8 cin else addFlags8 a8 b8 cin
      { r := (if sub then sub8 a8 b8 cin else add8 a8 b8 cin).zeroExtend 16
        c := hasFlag fl fC, v := hasFlag fl fV, h := hasFlag fl fH }
  let plain (r : Half) : AluOut := { r := if word then r else (loByte r).zeroExtend 16 }
  let byteOp (r : Byte) (co : Bool) : AluOut :=
    if word then { r := Config.microOpen op a b } else { r := r.zeroExtend 16, c := co }
  match op with
  | 0x00 => plain a
  | 0x01 => plain b
  | 0x02 => arith false 0
  | 0x03 => arith false ci
  | 0x04 => arith true 0
  | 0x05 => arith true ci
  | 0x06 => plain (a &&& b)
  | 0x07 => plain (a ||| b)
  | 0x08 => plain (a ^^^ b)
  | 0x09 => plain (~~~a)
  | 0x0A => byteOp (a8 <<< 1) a8.msb
  | 0x0B => byteOp (a8 >>> 1) (a8.getLsbD 0)
  | 0x0C => byteOp (a8.sshiftRight 1) (a8.getLsbD 0)
  | 0x0D => byteOp ((a8 <<< 1) ||| (f &&& fC)) a8.msb
  | 0x0E => byteOp ((a8 >>> 1) ||| flagIf (hasFlag f fC) 0x80) (a8.getLsbD 0)
  | 0x0F => byteOp ((a8 <<< 4) ||| (a8 >>> 4)) false
  | 0x10 => byteOp (clz8 a8) false
  | 0x11 => byteOp (ins8 a8 b8 w o) false
  | 0x12 => byteOp (ext8 a8 w o) false
  | _ => byteOp (exts8 a8 w o) false

/-- FUPD (R127). -/
def fupd (code : Nat) (word : Bool) (o : AluOut) (f : Byte) : Byte :=
  let zn := if word then zn16 o.r else zn8 (loByte o.r)
  match code with
  | 0 => f
  | 1 => setFlags f (if word then mLogic else mArith) (flagIf o.c fC ||| zn ||| flagIf o.v fV ||| flagIf o.h fH)
  | 2 => setFlags f mLogic zn
  | 3 => setFlags f fZ zn
  | 4 => setFlags f (fZ ||| fN) zn
  | 5 => setFlags f mLogic (flagIf o.c fC ||| zn)
  | 6 => loadF (loByte o.r)
  | _ => setFlags f mLogic (fC ||| zn)

/-- The opcode in IR0 is an OUT (R144). -/
def Uctx.isOut (u : Uctx) : Bool := let o := (u.ir.getD 0 0).toNat; decide (0x67 ≤ o) && decide (o ≤ 0x69)

/-- T1:T0. -/
def Uctx.t10 (u : Uctx) : Half := u.t.getD 1 0 ++ u.t.getD 0 0

/-- COND (R130), on the state at the end of the previous micro-cycle. -/
def Uctx.cond (u : Uctx) (c : CellNo) (code : Nat) : Bool :=
  let x := u.s.cell c
  let k := x.core
  match code with
  | 0 => true
  | 1 => hasFlag k.f fC | 2 => hasFlag k.f fZ | 3 => hasFlag k.f fN | 4 => hasFlag k.f fV | 5 => hasFlag k.f fH
  | 6 => hasFlag k.f fI
  | 7 => u.aluC | 8 => u.aluZ | 9 => u.uctr == 0
  | 10 => x.entryDue
  | 11 => x.wakeStands
  | 12 => match k.loops with | [] => false | e :: _ => e.le == k.pc && e.ed == k.ed
  | 13 => decide (4 ≤ k.loops.length)
  | 14 => k.loops.isEmpty
  | 15 => k.ed == 255
  | 16 => (u.s.extIoEntry u.t10.toNat u.isOut).isSome
  | 17 => extSpace u.t10
  | 18 => x.ioUnmapped u.t10.toNat
  | _ => k.prod.isSome

/-- One bus access of a word (R123, R143): the data read, or the mapper's refusal. -/
def Uctx.busOp (u : Uctx) (c : CellNo) (w : BitVec 144) (ea : Half) (data : Half) : Except Abandon Uctx :=
  let x := u.s.cell c
  let size := 1 + uf w 84 1
  let bytes := (wordBytes data).take size
  match uf w 80 2, uf w 82 2 with
  | _, 0 => .ok u
  | 0, 1 =>
    match x.dRead ea size with
    | .error e => .error e
    | .ok vs => .ok { u with bus := BitVec.ofNat 16 (ofBytes vs) }
  | 0, _ =>
    match x.dWrite ea bytes with
    | .error e => .error e
    | .ok y => .ok { u with s := u.s.setCell c y }
  | 1, 1 =>
    match x.iReads ea size with
    | .error e => .error e
    | .ok vs => .ok { u with bus := BitVec.ofNat 16 (ofBytes vs) }
  | 1, _ => .ok u
  | 2, 1 =>
    let (s, v) := u.s.ioRead c .core ea.toNat
    if size = 1 then .ok { u with s := s, bus := v.zeroExtend 16 }
    else
      let (s, v') := s.ioRead c .core (ea + 1).toNat
      .ok { u with s := s, bus := v' ++ v }
  | 2, _ =>
    let s := u.s.ioWrite c .core ea.toNat (loByte data)
    .ok { u with s := if size = 1 then s else s.ioWrite c .core (ea + 1).toNat (hiByte data) }
  | _, 1 =>
    let rd (i : Half) : Byte := Table.read memDefault x.xs ((ea + i).toNat % 256)
    .ok { u with bus := if size = 1 then (rd 0).zeroExtend 16 else rd 1 ++ rd 0 }
  | _, _ =>
    let t := Table.write memDefault x.xs (ea.toNat % 256) (loByte data)
    let t := if size = 1 then t else Table.write memDefault t ((ea + 1).toNat % 256) (hiByte data)
    .ok { u with s := u.s.modCell c fun x => { x with xs := t } }

/-- SEQ (R128) after the datapath of a word: the next word, DISP, or an error of the micro-stack (R136). -/
def Uctx.sequence (u : Uctx) (c : CellNo) (w : BitVec 144) (cnd : Bool) : Ustep :=
  let next := u.addr + 1
  let dest := uf w 10 13
  let goto (a : Nat) : Ustep := .go { u with addr := a }
  let disp : Ustep := if u.ustack.isEmpty then .done u else .error 0
  let call : Ustep := if 4 ≤ u.ustack.length then .error 0 else .go { u with addr := dest, ustack := next :: u.ustack }
  match uf w 0 4 with
  | 0 => goto next
  | 1 => goto dest
  | 2 => goto (if cnd then dest else next)
  | 3 => call
  | 4 => if cnd then call else goto next
  | 5 => match u.ustack with
    | [] => .error 0
    | a :: r => .go { u with addr := a, ustack := r }
  | 6 => disp
  | 7 => if cnd then goto dest else disp
  | 8 => goto (dest / 16 * 16 + (u.ir.getD 0 0).toNat % 16)
  | 9 => goto (if u.uctr != 0 then dest else next)
  | _ => match u.s.extIoEntry u.t10.toNat u.isOut with
    | none => .error 0
    | some e => goto (e.toNat % 8192)

/-- One word (R124): ports are read first, every write-back happens at its end, a word in error has no effect. -/
def Uctx.word (u : Uctx) (c : CellNo) (w : BitVec 144) : Ustep :=
  if evenQuarters w ≠ 0 then .error (evenQuarters w)
  else if !wordLawful u.addr w then .error 0
  else
    let commits := uf w 23 1 == 1
    let late := u.committed || commits
    if uf w 103 1 = 1 then (if late then .error 0 else .trap { vector := uf w 98 5, cause := 2 })
    else
      let k := (u.s.cell c).core
      let word := uf w 70 1 == 1
      let pa := u.port (uf w 53 2) (uf w 36 5) (uf w 70 1)
      let pb := u.port (uf w 55 2) (uf w 41 5) (uf w 70 1)
      let pw := u.port (uf w 57 2) (uf w 46 5) (uf w 70 1)
      let va : Half := if word || uf w 53 2 == 3 then u.regW c pa else (u.reg c pa).zeroExtend 16
      let vb : Half := if word || uf w 55 2 == 3 then u.regW c pb else (u.reg c pb).zeroExtend 16
      let lit : Half := BitVec.ofNat 16 (uf w 90 8)
      let ir2 := u.ir.getD 2 0
      let o := ualu (uf w 59 5) word (if uf w 64 1 = 1 then u.bus else va)
        (match uf w 65 2 with | 0 => vb | 1 => lit | 2 => u.bus | _ => 1) k.f ir2
      let base : Half := match uf w 72 3 with
        | 0 => 0 | 1 => u.regW c pa | 2 => k.sp | 3 => k.pc | 4 => o.r
        | 5 => 0xFFC0 + 2 * (lit &&& 0x1F) | _ => u.t10
      let ea : Half := base + (match uf w 75 3 with
        | 0 => 0 | 1 => ir2.signExtend 16 | 2 => (loByte vb).zeroExtend 16 | 3 => ir2.zeroExtend 16
        | 4 => 0xFFFF | 5 => 0xFFFE | 6 => 1 | _ => 2)
      let wen := uf w 51 2
      let wbReg : Option Nat := if uf w 78 2 = 0 then none else
        match uf w 72 3 with | 1 => some (pa / 2 * 2) | 2 => some 16 | 3 => some 18 | _ => none
      if wen ≠ 0 && (portRefused pw || (wen == 2 && portRefused (pw / 2 * 2 + 1))) then .error 0
      else if (match wbReg with | some r => portRefused r || (wen ≠ 0 && pw / 2 * 2 == r) | none => false) then .error 0
      else
        let cnd := u.cond c (uf w 4 5) != (uf w 9 1 == 1)
        match u.busOp c w ea (if uf w 85 1 = 1 then o.r else vb) with
        | .error a => if late then .error 0 else .trap a
        | .ok u1 =>
          let u1 := if wen = 1 then u1.setReg c pw (loByte o.r) else if wen = 2 then u1.setRegW c pw o.r else u1
          let u1 := (match wbReg with
            | none => u1
            | some r => u1.setRegW c r (if uf w 78 2 = 1 then ea else base + BitVec.ofNat 16 (1 + uf w 84 1)))
          let u1 := { u1 with s := u1.s.modCore c fun k1 =>
            let k1 := { k1 with f := fupd (uf w 67 3) word o k1.f }
            let k1 := if 2 ≤ uf w 25 2 then k1.land else k1.age 1
            let k1 := match uf w 108 2 with
              | 1 => { k1.land with prod := some ((loByte va).zeroExtend 16 * (loByte vb).zeroExtend 16, 2) }
              | 2 => { k1.land with prod := some ((loByte va).signExtend 16 * (loByte vb).signExtend 16, 2) }
              | 3 => { k1 with mhml := u.regW c pa, prod := none }
              | _ => k1
            { k1 with pc := match uf w 88 2 with
              | 0 => k1.pc | 1 => k.pc + 1 + (lit &&& 3) | 2 => ea | _ => u.bus } }
          let u1 := { u1 with
            jumped := if uf w 88 2 = 0 then u.jumped else decide (2 ≤ uf w 88 2)
            aluC := o.c
            aluZ := if word then o.r == 0 else loByte o.r == 0
            committed := late
            uctr := (match uf w 27 2 with | 1 => loByte lit | 2 => u.uctr - 1 | _ => u.uctr) }
          u1.sequence c w cnd

/-- How a routine ends. -/
inductive Uend where
  | done (u : Uctx)
  | vendor
  | error (u : Uctx) (quarters : Nat)
  | trap (a : Abandon)

/-- The words of a routine, at most 1,024 micro-cycles (R136). -/
def Uctx.run (c : CellNo) : Nat → Uctx → Uend
  | 0, u => .error u 0
  | n + 1, u =>
    if u.addr < 0x1800 then .vendor
    else
      match u.word c (Table.read (fun _ => 0) u.s.stores.extWords u.addr) with
      | .go v => Uctx.run c n v
      | .done v => .done v
      | .error q => .error u q
      | .trap a => .trap a

/-- Run the extension routine at micro-address `e` for the instruction at PC, with the I/O address in T1:T0 and the
data of an OUT in T2 (R144). An abandoned routine has no effect (R134); a word in error is a machine check (R137). -/
def State.runExt (s : State) (c : CellNo) (e a : Half) (v : Byte) : EkRes :=
  let x := s.cell c
  let op := x.trapOpAt x.core.pc
  let ir : Vector Byte 4 := #v[byteOf op.toNat 0, byteOf op.toNat 1, byteOf op.toNat 2, byteOf op.toNat 3]
  match Uctx.run c 1024 { s := s, addr := e.toNat, t := #v[loByte a, hiByte a, v, 0], ir := ir } with
  | .vendor => .vendor
  | .trap ab => .trap ab
  | .error u q => .gone ((if u.committed then u.s else s).coreCheck c ⟨BitVec.ofNat 13 u.addr, BitVec.ofNat 4 q⟩)
  | .done u =>
    let pc := (u.s.cell c).core.pc
    if u.jumped then .jump u.s pc else .seqTo u.s pc

end Sys2Proof.Machine
end

