-- ==== Sys2Proof/Machine/EkBody.lean ====
section
/-! DEFINITION. What each EK8 instruction does between its fetch and its completion (R69 to R87). A body answers the
next state, a transfer of control, or the trap that abandons the instruction with nothing changed (R91). -/

namespace Sys2Proof.Machine

/-- A body that changes core registers only. -/
def coreBody (f : Core → Core) (c : CellNo) (s : State) : EkRes := .seq (s.modCore c f)

/-! ## Byte arithmetic and logic (R70, R71) -/

/-- The byte operations 10h to 19h of a register with a source. -/
inductive AluOp where
  | add | adc | sub | sbc | and | or | xor | cmp | mov | tst
  deriving DecidableEq, Repr

/-- Low nibble of the opcode. -/
def AluOp.code : AluOp → Nat
  | .add => 0 | .adc => 1 | .sub => 2 | .sbc => 3 | .and => 4 | .or => 5 | .xor => 6 | .cmp => 7 | .mov => 8 | .tst => 9

/-- The result and the flags of a byte operation on `a` and `b` with flags `f`: value written, flag mask, flags. -/
def AluOp.run (o : AluOp) (a b f : Byte) : Byte × Byte × Byte :=
  match o with
  | .add => (add8 a b 0, mArith, addFlags8 a b 0)
  | .adc => (add8 a b (carryIn f), mArith, addFlags8 a b (carryIn f))
  | .sub => (sub8 a b 0, mArith, subFlags8 a b 0)
  | .sbc => (sub8 a b (carryIn f), mArith, subFlags8 a b (carryIn f))
  | .and => (a &&& b, mLogic, zn8 (a &&& b))
  | .or => (a ||| b, mLogic, zn8 (a ||| b))
  | .xor => (a ^^^ b, mLogic, zn8 (a ^^^ b))
  | .cmp => (a, mArith, subFlags8 a b 0)
  | .mov => (b, 0, 0)
  | .tst => (a, mLogic, zn8 (a &&& b))

/-- A byte operation on register `d`. -/
def aluCore (o : AluOp) (d : Fin 16) (x : ByteSrc) (k : Core) : Core :=
  let (r, m, v) := o.run (k.rb d) (x.val k) k.f
  (k.setB d r).putF m v

def bodyAlu (o : AluOp) (d : Fin 16) (x : ByteSrc) : CellNo → State → EkRes := coreBody (aluCore o d x)

/-- MUL and MULS (R87): the product is in flight for two micro-cycles after the instruction. -/
def mulCore (signed : Bool) (d r : Fin 16) (k : Core) : Core :=
  let p : Half := if signed then (k.rb d).signExtend 16 * (k.rb r).signExtend 16
    else (k.rb d).zeroExtend 16 * (k.rb r).zeroExtend 16
  { k.land with prod := some (p, 4) }

def bodyMul (signed : Bool) (d r : Fin 16) : CellNo → State → EkRes := coreBody (mulCore signed d r)

def xchCore (d r : Fin 16) (k : Core) : Core := (k.setB d (k.rb r)).setB r (k.rb d)

def clzCore (d r : Fin 16) (k : Core) : Core :=
  (k.setB d (clz8 (k.rb r))).putF (fZ ||| fN) (flagIf (k.rb r == 0) fZ)

/-! ## Single-register byte instructions (R72) -/

/-- The operations 30h to 39h. -/
inductive UnOp where
  | inc | dec | neg | not | shl | shr | sar | rol | ror | swap
  deriving DecidableEq, Repr

def UnOp.code : UnOp → Nat
  | .inc => 0 | .dec => 1 | .neg => 2 | .not => 3 | .shl => 4 | .shr => 5 | .sar => 6 | .rol => 7 | .ror => 8 | .swap => 9

/-- The result, flag mask and flags of a single-register operation. -/
def UnOp.run (o : UnOp) (a f : Byte) : Byte × Byte × Byte :=
  match o with
  | .inc => (a + 1, mArith &&& ~~~fC, addFlags8 a 1 0)
  | .dec => (a - 1, mArith &&& ~~~fC, subFlags8 a 1 0)
  | .neg => (0 - a, mArith, subFlags8 0 a 0)
  | .not => (~~~a, mLogic &&& ~~~fC, zn8 (~~~a))
  | .shl => let r := a <<< 1; (r, mLogic, flagIf a.msb fC ||| zn8 r)
  | .shr => let r := a >>> 1; (r, mLogic, flagIf (a.getLsbD 0) fC ||| zn8 r)
  | .sar => let r := a.sshiftRight 1; (r, mLogic, flagIf (a.getLsbD 0) fC ||| zn8 r)
  | .rol => let r := (a <<< 1) ||| (f &&& fC); (r, mLogic, flagIf a.msb fC ||| zn8 r)
  | .ror => let r := (a >>> 1) ||| flagIf (hasFlag f fC) 0x80; (r, mLogic, flagIf (a.getLsbD 0) fC ||| zn8 r)
  | .swap => let r := (a <<< 4) ||| (a >>> 4); (r, fZ ||| fN, zn8 r)

def unCore (o : UnOp) (d : Fin 16) (k : Core) : Core :=
  let (r, m, v) := o.run (k.rb d) k.f
  (k.setB d r).putF m v

def bodyUn (o : UnOp) (d : Fin 16) : CellNo → State → EkRes := coreBody (unCore o d)

/-! ## The stack (R67) -/

/-- Push bytes, the last one at the highest address: SP falls first, then the item is written at SP. -/
def Cell.push (x : Cell) (vs : List Byte) : Except Abandon Cell :=
  let sp := x.core.sp - BitVec.ofNat 16 vs.length
  match x.dWrite sp vs with
  | .error e => .error e
  | .ok y => .ok { y with core := { y.core with sp := sp } }

/-- Push the bytes that the core gives. -/
def bodyPush (f : Core → List Byte) (c : CellNo) (s : State) : EkRes :=
  match (s.cell c).push (f (s.cell c).core) with
  | .error e => .trap e
  | .ok y => .seq (s.setCell c y)

/-- Pop `n` bytes and hand them to the core; SP rises. -/
def bodyPop (n : Nat) (f : Core → List Byte → Core) (c : CellNo) (s : State) : EkRes :=
  let k := (s.cell c).core
  match (s.cell c).dRead k.sp n with
  | .error e => .trap e
  | .ok vs => .seq (s.modCore c fun k => f { k with sp := k.sp + BitVec.ofNat 16 n } vs)

/-- A register byte popped. -/
def popB (d : Fin 16) (k : Core) (vs : List Byte) : Core := k.setB d (vs.headD 0)

/-- A register word popped. -/
def popW (d : Fin 8) (k : Core) (vs : List Byte) : Core := k.setW d (word2 vs)

/-- F popped, I included. -/
def popFCore (k : Core) (vs : List Byte) : Core := { k with f := loadF (vs.headD 0) }

/-- RET: pops PC. -/
def bodyRet (c : CellNo) (s : State) : EkRes :=
  match (s.cell c).dRead (s.cell c).core.sp 2 with
  | .error e => .trap e
  | .ok vs => .jump (s.modCore c fun k => { k with sp := k.sp + 2 }) (word2 vs)

/-- F and PC as a frame holds them, popped together with ED falling, not below 0 (R93). -/
def retCore (vs : List Byte) (k : Core) : Core :=
  { k with f := loadF (vs.headD 0), sp := k.sp + 3, ed := if k.ed = 0 then 0 else k.ed - 1 }

/-- RETT: pops F, then PC; ED falls. -/
def bodyRett (c : CellNo) (s : State) : EkRes :=
  match (s.cell c).dRead (s.cell c).core.sp 3 with
  | .error e => .trap e
  | .ok vs => .jump (s.modCore c (retCore vs)) (word2 (vs.drop 1))

/-- RETI: as RETT, and the running-priority stack is popped at its commit (R93, R151, R154). -/
def bodyReti (c : CellNo) (s : State) : EkRes :=
  match (s.cell c).dRead (s.cell c).core.sp 3 with
  | .error e => .trap e
  | .ok vs => .jump ((s.modCore c (retCore vs)).modIc c Ic.pop) (word2 (vs.drop 1))

/-- RETI as a whole: a source that qualifies before its commit, while I is 1, abandons it (R154). -/
def bodyRetiOr (c : CellNo) (s : State) : EkRes :=
  if hasFlag (s.cell c).core.f fI && (s.cell c).ic.candidate.isSome then .interrupted else bodyReti c s

/-- SLEEP (R113): with a wake event standing it is a NOP of two micro-cycles. -/
def bodySleep (c : CellNo) (s : State) : EkRes := if (s.cell c).wakeStands then .seq s else .asleep

/-! ## Words (R71, R73) -/

def addwCore (d : Fin 8) (x : AddwSrc) (k : Core) : Core :=
  (k.setW d (k.rw d + x.val k)).putF mLogic (addFlags16 (k.rw d) (x.val k))

def subwCore (d r : Fin 8) (k : Core) : Core :=
  (k.setW d (k.rw d - k.rw r)).putF mLogic (subFlags16 (k.rw d) (k.rw r))

def cmpwCore (d : Fin 8) (x : WordSrc) (k : Core) : Core := k.putF mLogic (subFlags16 (k.rw d) (x.val k))

def movwCore (d : Fin 8) (x : WordSrc) (k : Core) : Core := k.setW d (x.val k)

/-- INCW and DECW: Z only. -/
def stepwCore (d : Fin 8) (n : Half) (k : Core) : Core :=
  (k.setW d (k.rw d + n)).putF fZ (flagIf (k.rw d + n == 0) fZ)

/-- MFM reads MH:ML in its second micro-cycle: a product with one micro-cycle left has landed by then (R87). -/
def mfmCore (d : Fin 8) (k : Core) : Core := k.setW d (k.age 1).mhml

/-- MTM writes MH:ML in its second micro-cycle. A product that would land in that micro-cycle or has landed before
yields to it (R87). -/
def mtmCore (r : Fin 8) (k : Core) : Core := { k with mhml := k.rw r, prod := none }

/-! ## Loads and stores (R65, R66, R74, R75) -/

/-- LD: the post-increment is lost where the loaded register overlaps the base (R65). -/
def ldCore (d : Fin 16) (m : LdMode) (v : Byte) (k : Core) : Core := (k.bump (baseKept d m.wb) 1).setB d v

/-- An uncorrectable memory word read by the core answers FFh and is rewritten (R520). -/
def bodyLd (d : Fin 16) (m : LdMode) (ecc : EccState) (c : CellNo) (s : State) : EkRes :=
  let x := s.cell c
  match x.dAddr (m.addr x.core) false with
  | .error e => .trap e
  | .ok a =>
    let (s, v) := s.eccRead c a ecc
    .seq (s.modCore c (ldCore d m v))

def bodySt (r : Fin 16) (m : LdMode) (c : CellNo) (s : State) : EkRes :=
  let x := s.cell c
  match x.dWrite (m.addr x.core) [x.core.rb r] with
  | .error e => .trap e
  | .ok y => .seq (s.setCell c { y with core := y.core.bump m.wb 1 })

/-- The base register of a post-increment word form. -/
def incOf (inc : Bool) (b : Fin 8) : Option (Fin 8) := if inc then some b else none

def bodyLdw (d b : Fin 8) (inc : Bool) (c : CellNo) (s : State) : EkRes :=
  let x := s.cell c
  match x.dRead (x.core.rw b) 2 with
  | .error e => .trap e
  | .ok vs => .seq (s.modCore c fun k => (k.bump (incOf inc b) 2).setW d (word2 vs))

def bodyStw (r b : Fin 8) (inc : Bool) (c : CellNo) (s : State) : EkRes :=
  let x := s.cell c
  match x.dWrite (x.core.rw b) (wordBytes (x.core.rw r)) with
  | .error e => .trap e
  | .ok y => .seq (s.setCell c { y with core := y.core.bump (incOf inc b) 2 })

def bodyLdc (d : Fin 16) (b : Fin 8) (inc : Bool) (c : CellNo) (s : State) : EkRes :=
  let x := s.cell c
  match x.iRead (x.core.rw b) with
  | .error e => .trap e
  | .ok v => .seq (s.modCore c fun k => (k.bump (baseKept d (incOf inc b)) 1).setB d v)

def bodyLdcw (d b : Fin 8) (inc : Bool) (c : CellNo) (s : State) : EkRes :=
  let x := s.cell c
  match x.iReads (x.core.rw b) 2 with
  | .error e => .trap e
  | .ok vs => .seq (s.modCore c fun k => (k.bump (incOf inc b) 2).setW d (word2 vs))

/-- IN (R75): an extension address that no microcode implements raises IOEXT (R58). -/
def bodyIn (d : Fin 16) (m : IoMode) (c : CellNo) (s : State) : EkRes :=
  let a := m.addr (s.cell c).core
  if extSpace a then
    match s.extIoEntry a.toNat false with
    | none => .trap { vector := 27, cause := 3, addr := a }
    | some e => s.runExt c e a 0
  else
    let (s, v) := s.ioRead c .core a.toNat
    .seq (s.modCore c fun k => (k.bump (baseKept d m.wb) 1).setB d v)

/-- OUT (R75). -/
def bodyOut (r : Fin 16) (m : IoMode) (c : CellNo) (s : State) : EkRes :=
  let a := m.addr (s.cell c).core
  let v := (s.cell c).core.rb r
  if extSpace a then
    match s.extIoEntry a.toNat true with
    | none => .trap { vector := 27, cause := 4, addr := a, data := v }
    | some e => s.runExt c e a v
  else if s.outResets c a.toNat v then .gone (s.ioWrite c .core a.toNat v)
  else .seq ((s.ioWrite c .core a.toNat v).modCore c fun k => k.bump m.wb 1)

/-! ## Bits, fields, PERM (R76 to R78) -/

def insCore (d r : Fin 16) (w o : Nat) (k : Core) : Core := k.setB d (ins8 (k.rb d) (k.rb r) w o)

def extCore (d r : Fin 16) (w o : Nat) (k : Core) : Core :=
  (k.setB d (ext8 (k.rb r) w o)).putF (fZ ||| fN) (zn8 (ext8 (k.rb r) w o))

def extsCore (d r : Fin 16) (w o : Nat) (k : Core) : Core :=
  (k.setB d (exts8 (k.rb r) w o)).putF (fZ ||| fN) (zn8 (exts8 (k.rb r) w o))

/-- The byte of the source quad that a selector names for destination byte `j` (R77). -/
def permByte (q : Fin 4) (sel : Byte) (j : Nat) (k : Core) : Byte :=
  k.rb (quadByte q ⟨sel.toNat / 4 ^ j % 4, Nat.mod_lt _ (by decide)⟩)

/-- PERM reads every source byte and the selector before it writes (R77). -/
def permCore (d q : Fin 4) (x : ByteSrc) (k : Core) : Core :=
  let sel := x.val k
  (((k.setB (quadByte d 0) (permByte q sel 0 k)).setB (quadByte d 1) (permByte q sel 1 k)).setB
    (quadByte d 2) (permByte q sel 2 k)).setB (quadByte d 3) (permByte q sel 3 k)

def bitCore (r : Fin 16) (n : Fin 8) (k : Core) : Core := k.putF fZ (flagIf (!(k.rb r).getLsbD n.val) fZ)

def setbCore (d : Fin 16) (n : Fin 8) (k : Core) : Core := k.setB d (k.rb d ||| (1#8 <<< n.val))

def clrbCore (d : Fin 16) (n : Fin 8) (k : Core) : Core := k.setB d (k.rb d &&& ~~~(1#8 <<< n.val))

/-! ## Branches, jumps, calls (R79, R80) -/

/-- The conditions of 80h to 8Eh. -/
inductive Cond where
  | ra | eq | ne | cs | cc | mi | pl | vs | vc | hi | ls | ge | lt | gt | le
  deriving DecidableEq, Repr

def Cond.code : Cond → Nat
  | .ra => 0 | .eq => 1 | .ne => 2 | .cs => 3 | .cc => 4 | .mi => 5 | .pl => 6 | .vs => 7 | .vc => 8
  | .hi => 9 | .ls => 10 | .ge => 11 | .lt => 12 | .gt => 13 | .le => 14

/-- A branch is taken (R79). -/
def Cond.holds (q : Cond) (f : Byte) : Bool :=
  let c := hasFlag f fC; let z := hasFlag f fZ; let n := hasFlag f fN; let v := hasFlag f fV
  match q with
  | .ra => true | .eq => z | .ne => !z | .cs => c | .cc => !c | .mi => n | .pl => !n | .vs => v | .vc => !v
  | .hi => !c && !z | .ls => c || z | .ge => n == v | .lt => n != v | .gt => !z && n == v | .le => z || n != v

/-- The address after an instruction of `len` bytes at PC. -/
def Core.next (k : Core) (len : Nat) : Half := k.pc + BitVec.ofNat 16 len

def bodyBr (q : Cond) (d8 : Byte) (c : CellNo) (s : State) : EkRes :=
  let k := (s.cell c).core
  if q.holds k.f then .jump s (k.next 2 + d8.signExtend 16) else .seq s

/-- Push the return address `ret` and go to `to`. -/
def callTo (ret dest : Half) (c : CellNo) (s : State) : EkRes :=
  match (s.cell c).push (wordBytes ret) with
  | .error e => .trap e
  | .ok y => .jump (s.setCell c y) dest

def bodyBsr (d8 : Byte) (c : CellNo) (s : State) : EkRes :=
  let n := (s.cell c).core.next 2
  callTo n (n + d8.signExtend 16) c s

def bodyJmp (t : Target) (c : CellNo) (s : State) : EkRes := .jump s (t.addr (s.cell c).core)

def bodyCall (t : Target) (c : CellNo) (s : State) : EkRes :=
  let k := (s.cell c).core
  callTo (k.next t.len) (t.addr k) c s

def bodyDjnz (d : Fin 16) (d8 : Byte) (c : CellNo) (s : State) : EkRes :=
  let k := (s.cell c).core
  let v := k.rb d - 1
  let s := s.modCore c fun k => k.setB d v
  if v = 0 then .seq s else .jump s (k.next 3 + d8.signExtend 16)

/-! ## The loop unit (R82, R85, R86) -/

/-- LOOP: a count of 0 skips the body; a fifth entry raises the LOOP trap (R82). -/
def bodyLoop (len : Nat) (n : Half) (u : Byte) (c : CellNo) (s : State) : EkRes :=
  let k := (s.cell c).core
  let ls := k.next len
  let le := ls + u.zeroExtend 16 + 1
  if n = 0 then .jump s le
  else if 4 ≤ k.loops.length then .trap { vector := 24, cause := 7 }
  else .seq (s.modCore c fun k => { k with loops := ⟨ls, le, n, k.ed⟩ :: k.loops })

/-- LEAVE discards the top entry. -/
def leaveCore (k : Core) : Core := { k with loops := k.loops.tail }

/-- The frame of R86. -/
def loopFrame (l : List LoopEnt) : List Byte :=
  match l with
  | [] => [0, 0, 0, 0, 0, 0, 0, 0]
  | e :: _ => [0x80, e.ed, loByte e.ls, hiByte e.ls, loByte e.le, hiByte e.le, loByte e.lc, hiByte e.lc]

/-- PUSHL moves the top entry to the stack; with an empty loop stack it writes eight 00h bytes. -/
def bodyPushl (c : CellNo) (s : State) : EkRes :=
  match (s.cell c).push (loopFrame (s.cell c).core.loops) with
  | .error e => .trap e
  | .ok y => .seq (s.setCell c { y with core := leaveCore y.core })

/-- The entry that a frame holds, when its VALID bit is 1. -/
def frameEntry : List Byte → Option LoopEnt
  | [v, ed, s0, s1, e0, e1, c0, c1] => if v.getLsbD 7 then some ⟨s1 ++ s0, e1 ++ e0, c1 ++ c0, ed⟩ else none
  | _ => none

/-- POPL: a VALID frame onto a full loop stack raises the LOOP trap and leaves SP (R86). -/
def bodyPopl (c : CellNo) (s : State) : EkRes :=
  let k := (s.cell c).core
  match (s.cell c).dRead k.sp 8 with
  | .error e => .trap e
  | .ok vs =>
    match frameEntry vs with
    | none => .seq (s.modCore c fun k => { k with sp := k.sp + 8 })
    | some e =>
      if 4 ≤ k.loops.length then .trap { vector := 24, cause := 8 }
      else .seq (s.modCore c fun k => { k with sp := k.sp + 8, loops := e :: k.loops })

/-- MFLC: LC of the top entry, 0000h with an empty loop stack. -/
def mflcCore (d : Fin 8) (k : Core) : Core :=
  k.setW d (match k.loops with | [] => 0 | e :: _ => e.lc)

end Sys2Proof.Machine
end

