-- ==== Sys2Proof/Machine/EkCode.lean ====
section
/-! DEFINITION. Encodings of the EK8 instructions (R63, R69 to R81) and their micro-cycles by operand form (R68). -/

namespace Sys2Proof.Machine

/-! ## Operand bytes (R63) -/

/-- RR: destination in [7:4], source in [3:0]. -/
def rr (d r : Fin 16) : Byte := BitVec.ofNat 8 (16 * d.val + r.val)
/-- R: a byte register in [3:0]. -/
def r1 (d : Fin 16) : Byte := BitVec.ofNat 8 d.val
/-- WW: the first word register in [6:4], the second in [2:0]. -/
def ww (d r : Fin 8) : Byte := BitVec.ofNat 8 (16 * d.val + r.val)
/-- W: a word register in [2:0]. -/
def w1 (d : Fin 8) : Byte := BitVec.ofNat 8 d.val
/-- BW: a byte register in [7:4], the base in [2:0]. -/
def bw (d : Fin 16) (b : Fin 8) : Byte := BitVec.ofNat 8 (16 * d.val + b.val)
/-- BN: the bit number in [6:4], the byte register in [3:0]. -/
def bn (n : Fin 8) (r : Fin 16) : Byte := BitVec.ofNat 8 (16 * n.val + r.val)
/-- QQ: the destination quad in [5:4], the source quad in [1:0]. -/
def qq (d q : Fin 4) : Byte := BitVec.ofNat 8 (16 * d.val + q.val)
/-- FO: width − 1 in [6:4], offset in [2:0]. -/
def fo (w o : Fin 8) : Byte := BitVec.ofNat 8 (16 * w.val + o.val)

/-! ## Encodings with several forms -/

def aluBytes (o : AluOp) (d : Fin 16) (x : ByteSrc) : List Byte :=
  match x with
  | .reg r => [BitVec.ofNat 8 (0x10 + o.code), rr d r]
  | .imm v => [BitVec.ofNat 8 (0x20 + o.code), r1 d, v]

def aluCycles : ByteSrc → Nat
  | .reg _ => 2
  | .imm _ => 3

def movwBytes (d : Fin 8) : WordSrc → List Byte
  | .reg r => [0x42, ww d r]
  | .imm v => [0x2A, w1 d, loByte v, hiByte v]

def cmpwBytes (d : Fin 8) : WordSrc → List Byte
  | .reg r => [0x43, ww d r]
  | .imm v => [0x2C, w1 d, loByte v, hiByte v]

def wordCycles : WordSrc → Nat
  | .reg _ => 2
  | .imm _ => 4

def addwBytes (d : Fin 8) : AddwSrc → List Byte
  | .reg r => [0x40, ww d r]
  | .imm v => [0x2B, w1 d, v]

def addwCycles : AddwSrc → Nat
  | .reg _ => 2
  | .imm _ => 3

def ldBytes (d : Fin 16) : LdMode → List Byte
  | .ind b => [0x50, bw d b]
  | .inc b => [0x51, bw d b]
  | .disp b d8 => [0x52, bw d b, d8]
  | .abs a => [0x53, r1 d, loByte a, hiByte a]
  | .sp u => [0x5C, r1 d, u]
  | .idx b i => [0x5E, bw d b, r1 i]

def stBytes (r : Fin 16) : LdMode → List Byte
  | .ind b => [0x54, bw r b]
  | .inc b => [0x55, bw r b]
  | .disp b d8 => [0x56, bw r b, d8]
  | .abs a => [0x57, r1 r, loByte a, hiByte a]
  | .sp u => [0x5D, r1 r, u]
  | .idx b i => [0x5F, bw r b, r1 i]

def ldCycles : LdMode → Nat
  | .ind _ => 3 | .inc _ => 3 | .disp _ _ => 4 | .abs _ => 5 | .sp _ => 4 | .idx _ _ => 4

def inBytes (d : Fin 16) : IoMode → List Byte
  | .ind b => [0x64, bw d b]
  | .inc b => [0x65, bw d b]
  | .abs a => [0x66, r1 d, loByte a, hiByte a]

def outBytes (r : Fin 16) : IoMode → List Byte
  | .ind b => [0x67, bw r b]
  | .inc b => [0x68, bw r b]
  | .abs a => [0x69, r1 r, loByte a, hiByte a]

def ioCycles : IoMode → Nat
  | .ind _ => 4 | .inc _ => 4 | .abs _ => 5

def permBytes (d q : Fin 4) : ByteSrc → List Byte
  | .imm v => [0x73, qq d q, v]
  | .reg r => [0x74, qq d q, r1 r]

def jmpBytes : Target → List Byte
  | .abs a => [0x90, loByte a, hiByte a]
  | .ind b => [0x92, w1 b]

def callBytes : Target → List Byte
  | .abs a => [0x91, loByte a, hiByte a]
  | .ind b => [0x93, w1 b]

def jmpCycles : Target → Nat
  | .abs _ => 4
  | .ind _ => 3

def loopBytes (x : LoopSrc) (len : Byte) : List Byte :=
  match x with
  | .reg w => [0xA0, w1 w, len]
  | .imm n => [0xA1, n, len]

end Sys2Proof.Machine
end

