-- ==== Sys2Proof/Machine/EkDecode.lean ====
section
/-! DEFINITION. The first-byte opcode map (R95) with the must-be-zero bits of each operand byte (R63), and the
instruction that four bytes at PC spell, which a debugger's step runs (R466). -/

namespace Sys2Proof.Machine

/-- Must-be-zero masks of the operand formats (R63). -/
def mzR : Byte := 0xF0
def mzWW : Byte := 0x88
def mzW : Byte := 0xF8
def mzBW : Byte := 0x08
def mzBN : Byte := 0x80
def mzQQ : Byte := 0xCC
def mzFO : Byte := 0x88
def mzTN : Byte := 0xFC

/-- The operand bytes of a defined opcode, each with its must-be-zero bits; `none` for res and ext opcodes (R95). -/
def opFormat (op : Nat) : Option (List Byte) :=
  if op ≤ 0x0B then some []
  else if 0x10 ≤ op && op ≤ 0x1D then some [0]
  else if 0x20 ≤ op && op ≤ 0x29 then some [mzR, 0]
  else if op = 0x2A || op = 0x2C then some [mzW, 0, 0]
  else if op = 0x2B then some [mzW, 0]
  else if 0x30 ≤ op && op ≤ 0x3D then some [mzR]
  else if 0x40 ≤ op && op ≤ 0x43 then some [mzWW]
  else if 0x44 ≤ op && op ≤ 0x4B then some [mzW]
  else if op = 0x50 || op = 0x51 || op = 0x54 || op = 0x55 then some [mzBW]
  else if op = 0x52 || op = 0x56 then some [mzBW, 0]
  else if op = 0x53 || op = 0x57 then some [mzR, 0, 0]
  else if 0x58 ≤ op && op ≤ 0x5B then some [mzWW]
  else if op = 0x5C || op = 0x5D then some [mzR, 0]
  else if op = 0x5E || op = 0x5F then some [mzBW, mzR]
  else if op = 0x60 || op = 0x61 then some [mzBW]
  else if op = 0x62 || op = 0x63 then some [mzWW]
  else if op = 0x64 || op = 0x65 || op = 0x67 || op = 0x68 then some [mzBW]
  else if op = 0x66 || op = 0x69 then some [mzR, 0, 0]
  else if 0x70 ≤ op && op ≤ 0x72 then some [0, mzFO]
  else if op = 0x73 then some [mzQQ, 0]
  else if op = 0x74 then some [mzQQ, mzR]
  else if 0x75 ≤ op && op ≤ 0x77 then some [mzBN]
  else if 0x80 ≤ op && op ≤ 0x8F then some [0]
  else if op = 0x90 || op = 0x91 then some [0, 0]
  else if op = 0x92 || op = 0x93 then some [mzW]
  else if op = 0x94 then some [mzR, 0]
  else if op = 0x95 then some [mzTN]
  else if op = 0xA0 then some [mzW, 0]
  else if op = 0xA1 then some [0, 0]
  else if 0xA2 ≤ op && op ≤ 0xA4 then some []
  else if op = 0xA5 then some [mzW]
  else none

/-- The opcode belongs to the customer extension block (R95). -/
def isExtOp (op : Byte) : Bool := decide (0xC0 ≤ op.toNat) && decide (op.toNat ≤ 0xDF)

/-- Operand bytes break their must-be-zero bits. -/
def breaksFormat : List Byte → List Byte → Bool
  | m :: ms, v :: vs => (m &&& v != 0) || breaksFormat ms vs
  | _, _ => false

/-- A decoded instruction: bytes, micro-cycles, micro-cycles when taken, body. -/
structure Decoded where
  len : Nat
  cycles : Nat
  taken : Nat
  body : CellNo → State → EkRes

/-- Fields of operand bytes. -/
def dHi (b : Byte) : Fin 16 := ⟨b.toNat / 16, by have := b.isLt; omega⟩
def dLo (b : Byte) : Fin 16 := ⟨b.toNat % 16, Nat.mod_lt _ (by decide)⟩
def dW1 (b : Byte) : Fin 8 := ⟨b.toNat / 16 % 8, Nat.mod_lt _ (by decide)⟩
def dW0 (b : Byte) : Fin 8 := ⟨b.toNat % 8, Nat.mod_lt _ (by decide)⟩
def dQ1 (b : Byte) : Fin 4 := ⟨b.toNat / 16 % 4, Nat.mod_lt _ (by decide)⟩
def dQ0 (b : Byte) : Fin 4 := ⟨b.toNat % 4, Nat.mod_lt _ (by decide)⟩

/-- The ten byte operations by the low nibble of 10h to 19h and 20h to 29h. -/
def aluOf (n : Nat) : AluOp :=
  match n with
  | 0 => .add | 1 => .adc | 2 => .sub | 3 => .sbc | 4 => .and | 5 => .or | 6 => .xor | 7 => .cmp | 8 => .mov | _ => .tst

/-- The single-register operations by the low nibble of 30h to 39h. -/
def unOf (n : Nat) : UnOp :=
  match n with
  | 0 => .inc | 1 => .dec | 2 => .neg | 3 => .not | 4 => .shl | 5 => .shr | 6 => .sar | 7 => .rol | 8 => .ror | _ => .swap

/-- The branch conditions by the low nibble of 80h to 8Eh. -/
def condOf (n : Nat) : Cond :=
  match n with
  | 0 => .ra | 1 => .eq | 2 => .ne | 3 => .cs | 4 => .cc | 5 => .mi | 6 => .pl | 7 => .vs | 8 => .vc
  | 9 => .hi | 10 => .ls | 11 => .ge | 12 => .lt | 13 => .gt | _ => .le

/-- Opcodes 00h to 0Bh (R69). -/
def decode0 (n : Nat) : Decoded :=
  match n with
  | 0 => ⟨1, 1, 1, fun _ s => .seq s⟩
  | 1 => ⟨1, 2, 2, bodySleep⟩
  | 2 => ⟨1, 1, 1, coreBody fun k => { k with f := k.f ||| fI }⟩
  | 3 => ⟨1, 1, 1, coreBody fun k => { k with f := k.f &&& ~~~fI }⟩
  | 4 => ⟨1, 5, 5, bodyRet⟩
  | 5 => ⟨1, 6, 6, bodyReti⟩
  | 6 => ⟨1, 6, 6, bodyRett⟩
  | 7 => ⟨1, 1, 1, coreBody fun k => { k with f := k.f ||| fC }⟩
  | 8 => ⟨1, 1, 1, coreBody fun k => { k with f := k.f &&& ~~~fC }⟩
  | 9 => ⟨1, 1, 1, coreBody fun k => { k with f := k.f ^^^ fC }⟩
  | 10 => ⟨1, 3, 3, bodyPush fun k => [k.f]⟩
  | _ => ⟨1, 3, 3, bodyPop 1 popFCore⟩

/-- Opcodes 40h to 4Bh (R73). -/
def decode4 (n : Nat) (a : Byte) : Decoded :=
  match n with
  | 0 => ⟨2, 2, 2, coreBody (addwCore (dW1 a) (.reg (dW0 a)))⟩
  | 1 => ⟨2, 2, 2, coreBody (subwCore (dW1 a) (dW0 a))⟩
  | 2 => ⟨2, 2, 2, coreBody (movwCore (dW1 a) (.reg (dW0 a)))⟩
  | 3 => ⟨2, 2, 2, coreBody (cmpwCore (dW1 a) (.reg (dW0 a)))⟩
  | 4 => ⟨2, 2, 2, coreBody (stepwCore (dW0 a) 1)⟩
  | 5 => ⟨2, 2, 2, coreBody (stepwCore (dW0 a) 0xFFFF)⟩
  | 6 => ⟨2, 4, 4, bodyPush fun k => wordBytes (k.rw (dW0 a))⟩
  | 7 => ⟨2, 4, 4, bodyPop 2 (popW (dW0 a))⟩
  | 8 => ⟨2, 2, 2, coreBody fun k => { k with sp := k.rw (dW0 a) }⟩
  | 9 => ⟨2, 2, 2, coreBody fun k => k.setW (dW0 a) k.sp⟩
  | 10 => ⟨2, 2, 2, coreBody (mfmCore (dW0 a))⟩
  | _ => ⟨2, 2, 2, coreBody (mtmCore (dW0 a))⟩

/-- Opcodes 50h to 5Fh (R74). -/
def decode5 (n : Nat) (a b c : Byte) : Decoded :=
  let d := dHi a
  match n with
  | 0 => ⟨2, 3, 3, bodyLd d (.ind (dW0 a)) .clean⟩
  | 1 => ⟨2, 3, 3, bodyLd d (.inc (dW0 a)) .clean⟩
  | 2 => ⟨3, 4, 4, bodyLd d (.disp (dW0 a) b) .clean⟩
  | 3 => ⟨4, 5, 5, bodyLd (dLo a) (.abs (c ++ b)) .clean⟩
  | 4 => ⟨2, 3, 3, bodySt d (.ind (dW0 a))⟩
  | 5 => ⟨2, 3, 3, bodySt d (.inc (dW0 a))⟩
  | 6 => ⟨3, 4, 4, bodySt d (.disp (dW0 a) b)⟩
  | 7 => ⟨4, 5, 5, bodySt (dLo a) (.abs (c ++ b))⟩
  | 8 => ⟨2, 4, 4, bodyLdw (dW1 a) (dW0 a) false⟩
  | 9 => ⟨2, 4, 4, bodyLdw (dW1 a) (dW0 a) true⟩
  | 10 => ⟨2, 4, 4, bodyStw (dW1 a) (dW0 a) false⟩
  | 11 => ⟨2, 4, 4, bodyStw (dW1 a) (dW0 a) true⟩
  | 12 => ⟨3, 4, 4, bodyLd (dLo a) (.sp b) .clean⟩
  | 13 => ⟨3, 4, 4, bodySt (dLo a) (.sp b)⟩
  | 14 => ⟨3, 4, 4, bodyLd d (.idx (dW0 a) (dLo b)) .clean⟩
  | _ => ⟨3, 4, 4, bodySt d (.idx (dW0 a) (dLo b))⟩

/-- Opcodes 60h to 69h (R75). -/
def decode6 (n : Nat) (a b c : Byte) : Decoded :=
  let d := dHi a
  match n with
  | 0 => ⟨2, 4, 4, bodyLdc d (dW0 a) false⟩
  | 1 => ⟨2, 4, 4, bodyLdc d (dW0 a) true⟩
  | 2 => ⟨2, 5, 5, bodyLdcw (dW1 a) (dW0 a) false⟩
  | 3 => ⟨2, 5, 5, bodyLdcw (dW1 a) (dW0 a) true⟩
  | 4 => ⟨2, 4, 4, bodyIn d (.ind (dW0 a))⟩
  | 5 => ⟨2, 4, 4, bodyIn d (.inc (dW0 a))⟩
  | 6 => ⟨4, 5, 5, bodyIn (dLo a) (.abs (c ++ b))⟩
  | 7 => ⟨2, 4, 4, bodyOut d (.ind (dW0 a))⟩
  | 8 => ⟨2, 4, 4, bodyOut d (.inc (dW0 a))⟩
  | _ => ⟨4, 5, 5, bodyOut (dLo a) (.abs (c ++ b))⟩

/-- Opcodes 70h to 77h (R76). -/
def decode7 (n : Nat) (a b : Byte) : Decoded :=
  match n with
  | 0 => ⟨3, 3, 3, coreBody (insCore (dHi a) (dLo a) ((dW1 b).val + 1) (dW0 b).val)⟩
  | 1 => ⟨3, 3, 3, coreBody (extCore (dHi a) (dLo a) ((dW1 b).val + 1) (dW0 b).val)⟩
  | 2 => ⟨3, 3, 3, coreBody (extsCore (dHi a) (dLo a) ((dW1 b).val + 1) (dW0 b).val)⟩
  | 3 => ⟨3, 3, 3, coreBody (permCore (dQ1 a) (dQ0 a) (.imm b))⟩
  | 4 => ⟨3, 3, 3, coreBody (permCore (dQ1 a) (dQ0 a) (.reg (dLo b)))⟩
  | 5 => ⟨2, 2, 2, coreBody (bitCore (dLo a) (dW1 a))⟩
  | 6 => ⟨2, 2, 2, coreBody (setbCore (dLo a) (dW1 a))⟩
  | _ => ⟨2, 2, 2, coreBody (clrbCore (dLo a) (dW1 a))⟩

/-- Opcodes 90h to 95h (R80). -/
def decode9 (n : Nat) (a b : Byte) : Decoded :=
  match n with
  | 0 => ⟨3, 4, 4, bodyJmp (.abs (b ++ a))⟩
  | 1 => ⟨3, 6, 6, bodyCall (.abs (b ++ a))⟩
  | 2 => ⟨2, 3, 3, bodyJmp (.ind (dW0 a))⟩
  | 3 => ⟨2, 5, 5, bodyCall (.ind (dW0 a))⟩
  | 4 => ⟨3, 3, 4, bodyDjnz (dLo a) b⟩
  | _ => ⟨2, 7, 7, fun _ _ => .enter (a.toNat % 4)⟩

/-- Opcodes A0h to A5h (R81). -/
def decodeA (n : Nat) (a b : Byte) : Decoded :=
  match n with
  | 0 => ⟨3, 3, 3, fun c s => bodyLoop 3 ((s.cell c).core.rw (dW0 a)) b c s⟩
  | 1 => ⟨3, 3, 3, bodyLoop 3 (a.zeroExtend 16) b⟩
  | 2 => ⟨1, 2, 2, coreBody leaveCore⟩
  | 3 => ⟨1, 6, 6, bodyPushl⟩
  | 4 => ⟨1, 6, 6, bodyPopl⟩
  | _ => ⟨2, 2, 2, coreBody (mflcCore (dW0 a))⟩

/-- The defined instruction that four bytes spell; meant only for an opcode with a format and lawful operand bytes. -/
def decodeBytes (op a b c : Byte) : Decoded :=
  let n := op.toNat % 16
  match op.toNat / 16 with
  | 0 => decode0 n
  | 1 =>
    if n ≤ 9 then ⟨2, 2, 2, bodyAlu (aluOf n) (dHi a) (.reg (dLo a))⟩
    else if n ≤ 11 then ⟨2, 2, 2, bodyMul (n == 11) (dHi a) (dLo a)⟩
    else if n = 12 then ⟨2, 3, 3, coreBody (xchCore (dHi a) (dLo a))⟩
    else ⟨2, 2, 2, coreBody (clzCore (dHi a) (dLo a))⟩
  | 2 =>
    if n ≤ 9 then ⟨3, 3, 3, bodyAlu (aluOf n) (dLo a) (.imm b)⟩
    else if n = 10 then ⟨4, 4, 4, coreBody (movwCore (dW0 a) (.imm (c ++ b)))⟩
    else if n = 11 then ⟨3, 3, 3, coreBody (addwCore (dW0 a) (.imm b))⟩
    else ⟨4, 4, 4, coreBody (cmpwCore (dW0 a) (.imm (c ++ b)))⟩
  | 3 =>
    if n ≤ 9 then ⟨2, 2, 2, bodyUn (unOf n) (dLo a)⟩
    else if n = 10 then ⟨2, 3, 3, bodyPush fun k => [k.rb (dLo a)]⟩
    else if n = 11 then ⟨2, 3, 3, bodyPop 1 (popB (dLo a))⟩
    else if n = 12 then ⟨2, 2, 2, coreBody fun k => k.setB (dLo a) k.f⟩
    else ⟨2, 2, 2, coreBody fun k => { k with f := loadF (k.rb (dLo a)) }⟩
  | 4 => decode4 n a
  | 5 => decode5 n a b c
  | 6 => decode6 n a b c
  | 7 => decode7 n a b
  | 8 => if n = 15 then ⟨2, 5, 5, bodyBsr a⟩ else ⟨2, 2, 3, bodyBr (condOf n) a⟩
  | 9 => decode9 n a b
  | _ => decodeA n a b

/-- What stands at PC of a cell: a defined instruction, an extension opcode, or the trap that abandons it (R63, R95,
R167). -/
inductive AtPc where
  | instr (d : Decoded)
  | ext (op : Byte)
  | trap (a : Abandon)

/-- Decode the instruction at PC. A byte the instruction uses that the mapper refuses is MAPF; a reserved opcode is EMUL
with cause 1h and a reserved encoding EMUL with cause 2h (R108). -/
def Cell.decodePc (x : Cell) : AtPc :=
  let pc := x.core.pc
  match x.iRead pc with
  | .error e => .trap e
  | .ok op =>
    if isExtOp op then .ext op
    else
      match opFormat op.toNat with
      | none => .trap { vector := 28, cause := 1 }
      | some ms =>
        match x.iReads (pc + 1) ms.length with
        | .error e => .trap e
        | .ok vs =>
          if breaksFormat ms vs then .trap { vector := 28, cause := 2 }
          else .instr (decodeBytes op (vs.getD 0 0) (vs.getD 1 0) (vs.getD 2 0))

/-- RESERVED_OPCODE (R95, R63): a reserved opcode, or a reserved encoding of a defined one, at PC raises EMUL. Where the
bytes at PC are a lawful instruction or an extension opcode, nothing happens. -/
def execReservedOpcode (c : CellNo) (s : State) : Res :=
  onCell c s <|
    if !s.canIssue c then .next s
    else
      match (s.cell c).breakDue with
      | some k => .next (s.haltCell c (BitVec.ofNat 8 (0x10 + k)))
      | none =>
        match (s.cell c).decodePc with
        | .trap a => .next (s.takeTrap c a)
        | .instr _ => .next s
        | .ext _ => .next s

/-- EXTENSION_OPCODE (R95, R121, R143): an opcode C0h to DFh at PC runs the loaded extension routine, or raises EMUL
where none is loaded for it. -/
def execExtensionOpcode (c : CellNo) (s : State) : Res :=
  onCell c s <|
    if !s.canIssue c then .next s
    else
      match (s.cell c).breakDue with
      | some k => .next (s.haltCell c (BitVec.ofNat 8 (0x10 + k)))
      | none =>
        match (s.cell c).decodePc with
        | .trap a => .next (s.takeTrap c a)
        | .instr _ => .next s
        | .ext op =>
          match s.extOpEntry op with
          | none => .next (s.takeTrap c { vector := 28, cause := 1 })
          | some e => s.runBody c 0 0 0 fun c s => s.runExt c e 0 0

/-- A boundary of cell `c` at which the core may take an entry that waits for a credit (R92, R150). -/
def State.canEnter (s : State) (c : CellNo) : Bool := s.coreReady c && !(s.cell c).core.entered

/-- INTERRUPT_ENTRY (R92, R150 to R153): with I set and neither WDW nor PACE pending, the maskable candidate is entered. -/
def execInterruptEntry (c : CellNo) (s : State) : Res :=
  onCell c s <|
    if s.canEnter c && !(s.cell c).wd.wdw && !(s.cell c).pace.pend && hasFlag (s.cell c).core.f fI then
      .next (s.enterInterrupt c)
    else .next s

/-- WDW_ENTRY (R92): the watchdog warning enters through vector 29, ahead of PACE and interrupts. -/
def execWdwEntry (c : CellNo) (s : State) : Res :=
  onCell c s <|
    if s.canEnter c && (s.cell c).wd.wdw then
      .next ((s.modCell c fun x => { x with wd := { x.wd with wdw := !x.entryOk 29 } }).enterVector c 29
        (s.cell c).core.pc none)
    else .next s

/-- PACE_ENTRY (R92, R106): a pending PACE enters through vector 26 when no WDW is pending. -/
def execPaceEntry (c : CellNo) (s : State) : Res :=
  onCell c s <|
    if s.canEnter c && !(s.cell c).wd.wdw && (s.cell c).pace.pend then
      .next ((s.modPace c fun p => { p with pend := !(s.cell c).entryOk 26 }).enterVector c 26 (s.cell c).core.pc none)
    else .next s

end Sys2Proof.Machine
end

