-- ==== Sys2Proof/Machine/DebugOps.lean ====
section
/-! DEFINITION. Debug and access control: sessions' levels and selectors, the key exchange, halt, step and resume, the debug
spaces and the patch units (R458 to R475, R480). -/

namespace Sys2Proof.Machine

/-! ## Sessions (R437, R439) -/

/-- Two records of one session: numbers are each device's own (R439). -/
def Session.same (a b : Session) : Bool := a.num == b.num && a.dev == b.dev && a.transport == b.transport

/-- Update session `q`. -/
def State.modSession (s : State) (q : Session) (f : Session → Session) : State :=
  s.modMc fun m => { m with sessions := m.sessions.map fun k => if k.same q then f k else k }

/-- Level that a session holds for cell `c` (R458). -/
def Session.level (q : Session) (c : CellNo) : Byte := Table.read (fun _ => 0) q.levels c.val

/-- DBG_REQ of a session for cell `c`. -/
def Session.req (q : Session) (c : CellNo) : Byte := Table.read (fun _ => 0) q.dbgReq c.val

/-- Default of a debug selector: DBG_SPACE, DBG_ADDR, DBG_LEN. -/
def selDefault (i : Nat) : Word := if i % 4 = 2 then 1 else 0

/-- DBG_SPACE (0), DBG_ADDR (1) or DBG_LEN (2) of a session for cell `c` (R469). -/
def Session.sel (q : Session) (c : CellNo) (k : Nat) : Nat := (Table.read selDefault q.dbgSel (4 * c.val + k)).toNat

/-- Write a debug selector. -/
def Session.setSel (q : Session) (c : CellNo) (k : Nat) (v : Word) : Session :=
  { q with dbgSel := Table.write selDefault q.dbgSel (4 * c.val + k) v }

/-- DBG_KILL is blown (R460). -/
def State.killed (s : State) : Bool := Config.dbgKill s.part || (match s.pwr.fuses with | some f => f.kill | none => false)

/-! ## Levels (R458, R459, R461 to R463) -/

/-- FULL is gained for cell `c`: a real sleep goes on as an emulated one (R475). -/
def Cell.gainFull (x : Cell) : Cell :=
  if x.clocksStopped then { x with ic := x.ic.transfer, dbg := { x.dbg with full := true, emu := true } }
  else { x with dbg := { x.dbg with full := true } }

/-- Session `q` holds level `l` for cell `c` from now on; a guest in the cell's context is not touched (R387). -/
def State.setLevel (s : State) (q : Session) (c : CellNo) (l : Byte) : State :=
  let s := s.modSession q fun q => { q with levels := Table.write (fun _ => 0) q.levels c.val l }
  if (s.cell c).kp.guest.isSome then s else if l = 2 then s.modCell c Cell.gainFull else s.releaseDebug c

/-- A challenge for session `q` and cell `c` (R461): twelve free bytes, the cell, the level and the session. -/
def State.newChallenge (s : State) (q : Session) (c : CellNo) : State × List Byte :=
  let nonce := (List.range 12).map fun i => Config.freeByte (s.freeCtr + i)
  let ch : Challenge := { cell := c.val, level := q.req c, nonce := nonce }
  let s := { s with freeCtr := s.freeCtr + 12 }
  (s.modSession q fun q => { q with challenges := [ch] },
   nonce ++ [BitVec.ofNat 8 c.val, q.req c, loByte q.num, hiByte q.num])

/-- The bytes of an outstanding challenge of session `n`. -/
def Challenge.bytes (h : Challenge) (n : Half) : List Byte := h.nonce ++ [BitVec.ofNat 8 h.cell, h.level, loByte n, hiByte n]

/-- The device's debug key. -/
def State.dbgKey (s : State) : List Byte := match s.pwr.fuses with | some f => f.key | none => []

/-- The outstanding challenge of `q` for cell `c`. -/
def Session.challenge (q : Session) (c : CellNo) : Option Challenge := q.challenges.find? (·.cell == c.val)

/-- Result of a DBG_RESP write (R462). -/
def State.respCode (s : State) (q : Session) (c : CellNo) (resp : List Byte) : Byte :=
  match q.challenge c with
  | none => 0x13
  | some h => if (hmac256 s.dbgKey (h.bytes q.num)).take 16 = resp then 0 else 0x14

/-- A refusal with DBG_BADRESP is counted; eight within 60 s start the lockout (R463). -/
def State.badResp (s : State) : State :=
  let now := s.devTime.toNat
  let d := s.dbgDev
  let recent := now :: d.recent.filter fun t => decide (now < t + 60000000000)
  let fails := satInc d.fails
  if 8 ≤ recent.length ∧ d.until_.isNone then
    let s := { s with dbgDev := { fails := fails, recent := [], until_ := some (now + 60000000000) } }
    (s.raise 0x61 0 false fails.toNat).event 0x8082 0 0 (fails.setWidth 64)
  else { s with dbgDev := { d with fails := fails, recent := recent } }

/-- The effect of a DBG_RESP write whose result is `code`: the challenge of the session is spent in every case. -/
def State.respEffect (s : State) (q : Session) (c : CellNo) (code : Byte) : State :=
  let t := s.modSession q fun q => { q with challenges := [] }
  if code = 0 then
    match q.challenge c with
    | none => t
    | some h =>
      let old := q.level c
      let t := t.setLevel q c h.level
      if old < h.level then t.event 0x8080 c.val (old.setWidth 64) (h.level.setWidth 64) else t
  else if code = 0x14 then t.badResp
  else t

/-- DBG_DROP: the level falls to `v`, if that is lower. -/
def State.dropLevel (s : State) (q : Session) (c : CellNo) (v : Byte) : State :=
  if v < q.level c then s.setLevel q c v else s

/-! ## Space 0 (R470) -/

/-- The 64 bytes of space 0. -/
def Cell.space0 (x : Cell) : List Byte :=
  x.core.b.toList ++ wordBytes x.core.sp ++ wordBytes x.core.pc ++
  [x.core.f, loByte x.core.mhml, hiByte x.core.mhml, x.core.ed, BitVec.ofNat 8 x.core.loops.length,
   BitVec.ofNat 8 x.ic.stack.length, 0, 0, 0, 0, 0, 0] ++
  (List.range 4).flatMap fun i => loopFrame (x.core.loops.drop i)

/-- A byte of space 0 that may be written. -/
def Cell.space0Rw (x : Cell) (o : Nat) : Bool :=
  decide (o < 0x17) || (decide (0x20 ≤ o) && decide (o < 0x20 + 8 * x.core.loops.length))

/-- The loop stack that `n` frames spell; a VALID of 0 removes its entry and every entry below. -/
def loopsOf (l : List Byte) : Nat → List LoopEnt
  | 0 => []
  | n + 1 =>
    match frameEntry (l.take 8) with
    | none => []
    | some e => e :: loopsOf (l.drop 8) n

/-- The core registers that 64 bytes spell. -/
def Cell.setSpace0 (x : Cell) (l : List Byte) : Cell :=
  let g (i : Nat) : Byte := l.getD i 0
  { x with core := { x.core with
      b := Vector.ofFn fun i => g i.val
      sp := g 0x11 ++ g 0x10, pc := g 0x13 ++ g 0x12, f := loadF (g 0x14), mhml := g 0x16 ++ g 0x15
      loops := loopsOf (l.drop 0x20) x.core.loops.length } }

/-- Bytes of `l` from `a` replaced. -/
def patchList (l : List Byte) (a : Nat) (vs : List Byte) : List Byte := l.take a ++ vs ++ l.drop (a + vs.length)

/-! ## Spaces 1 and 2 (R469, R471, R472) -/

/-- Registers with access code RCL or POP. -/
def rclPop (a : Nat) : Bool := [0x0043, 0x0058, 0x0059, 0x03C1, 0x0510, 0x0588, 0x0641, 0x0682, 0x0683].contains a

/-- The live bytes of the geometry group. -/
def Cell.liveGeom (x : Cell) (a : Nat) : Byte :=
  let g := x.beam.geom
  if a = 0x0400 then BitVec.ofNat 8 (g.num + 16 * g.den)
  else byteOf (if a < 0x0404 then g.htotal else if a < 0x0406 then g.hactive else if a < 0x0408 then g.vtotal else g.vactive) (a % 2)

/-- A read without side effects. -/
def State.debugView (s : State) (c : CellNo) (live : Bool) (a : Nat) : Byte :=
  let x := s.cell c
  if x.ioUnmapped a || s.ioDark a then 0xFF
  else if live && geomReg a then x.liveGeom a
  else if live && shadowedReg x.prof a then x.live8 a
  else s.viewIo c a

/-- One byte of a debug read of spaces 1 and 2; DBG_CTL.FORCE decides for RCL and POP registers. -/
def State.debugIn (s : State) (c : CellNo) (live force : Bool) (a : Nat) : State × Byte :=
  let x := s.cell c
  if !x.ioUnmapped a && rclPop a then
    if force then s.ioRead c .core a
    else (s.modDbg c fun d => { d with sideFx := s.mc.sessions.map (·.num) }, 0)
  else (s, s.debugView c live a)

/-- Bytes of a debug read of spaces 1 and 2. -/
def State.debugIns (s : State) (c : CellNo) (live force : Bool) (a : Nat) : Nat → State × List Byte
  | 0 => (s, [])
  | n + 1 =>
    let r := s.debugIn c live force a
    let t := r.1.debugIns c live force (a + 1) n
    (t.1, r.2 :: t.2)

/-- One byte of a debug write of spaces 1 and 2. -/
def State.debugOut (s : State) (c : CellNo) (live : Bool) (a : Nat) (v : Byte) : State :=
  let x := s.cell c
  if live && shadowedReg x.prof a then
    s.setCell c (x.putLive a ((resetByte x.prof a &&& ~~~(rwMask x.prof a)) ||| (v &&& rwMask x.prof a)))
  else s.ioWriteAs c .debugger false a v

/-- Bytes of a debug write of spaces 1 and 2. -/
def State.debugOuts (s : State) (c : CellNo) (live : Bool) (a : Nat) : List Byte → State
  | [] => s
  | v :: r => (s.debugOut c live a v).debugOuts c live (a + 1) r

/-! ## Access through DBG_DATA (R469) -/

/-- An access of `n` bytes at `a` is one that no space refuses with RANGE. -/
def State.dbgRange (s : State) (c : CellNo) (space a n : Nat) (write : Bool) : Bool :=
  let x := s.cell c
  let all (p : Nat → Bool) : Bool := (List.range n).all fun i => p (a + i)
  match space with
  | 0 => decide (a + n ≤ 64) && (!write || all x.space0Rw)
  | 1 => decide (a + n ≤ 65536) && (!write || all fun i => !extSpace (BitVec.ofNat 16 i) && !geomReg i)
  | 2 => decide (a + n ≤ 65536) && (!write || all fun i => !extSpace (BitVec.ofNat 16 i))
  | 3 => decide (a + n ≤ 65536) && (match x.dAddrs (BitVec.ofNat 16 a) write n with | .ok _ => true | .error _ => false)
  | 4 => !write && decide (a + n ≤ 65536) && (match x.iReads (BitVec.ofNat 16 a) n with | .ok _ => true | .error _ => false)
  | 5 => all fun i => if write then x.writable i else x.inSpace i
  | _ => decide (a + n ≤ 256)

/-- The cell's state allows the access. -/
def dbgAllowed (st : CState) (space : Nat) (write : Bool) : Bool :=
  if write then st == .halted
  else
    match space with
    | 1 => st.started
    | 2 => st.started
    | 0 => st == .halted || st == .paused || st == .sleep || st == .faulted
    | 6 => st == .halted || st == .paused || st == .sleep || st == .faulted
    | 5 => st == .halted || st == .paused || st == .faulted || st == .loaded
    | _ => st == .halted || st == .paused || st == .faulted

/-- DBG_ADDR advances by DBG_LEN. -/
def State.dbgAdvance (s : State) (q : Session) (c : CellNo) : State :=
  s.modSession q fun k => k.setSel c 1 (BitVec.ofNat 32 (q.sel c 1 + q.sel c 2))

/-- A read of DBG_DATA that is not refused. -/
def State.dbgRead (s : State) (q : Session) (c : CellNo) : State × List Byte :=
  let x := s.cell c
  let space := q.sel c 0
  let a := q.sel c 1
  let n := q.sel c 2
  let force := x.dbg.ctl.getLsbD 0
  let r : State × List Byte :=
    match space with
    | 0 => (s, (x.space0.drop a).take n)
    | 1 => s.debugIns c true force a n
    | 2 => s.debugIns c false force a n
    | 3 => (s, match x.dRead (BitVec.ofNat 16 a) n with | .ok l => l | .error _ => [])
    | 4 => (s, match x.iReads (BitVec.ofNat 16 a) n with | .ok l => l | .error _ => [])
    | 5 => (s, (List.range n).map fun i => x.readMem (a + i))
    | _ => (s, (List.range n).map fun i => Table.read (fun _ => 0) x.xs (a + i))
  let forced := force && (space == 1 || space == 2) && (List.range n).any fun i => !x.ioUnmapped (a + i) && rclPop (a + i)
  let t := if forced then
      r.1.event 0x8081 c.val (BitVec.ofNat 64 (space + a * 4294967296)) (BitVec.ofNat 64 (ofBytes (r.2.take 8))) else r.1
  (t.dbgAdvance q c, r.2)

/-- A write of DBG_DATA that is not refused. -/
def State.dbgWrite (s : State) (q : Session) (c : CellNo) (l : List Byte) : State :=
  let x := s.cell c
  let a := q.sel c 1
  let s : State :=
    match q.sel c 0 with
    | 0 => s.setCell c (x.setSpace0 (patchList x.space0 a l))
    | 1 => s.debugOuts c true a l
    | 2 => s.debugOuts c false a l
    | 3 => (match x.dWrite (BitVec.ofNat 16 a) l with | .ok y => s.setCell c y | .error _ => s)
    | 4 => s
    | 5 => s.setCell c (x.writeMemList a l)
    | _ => s.setCell c { x with xs := Table.writeList (fun _ => 0) x.xs a l }
  s.dbgAdvance q c

/-! ## Halt, step and resume (R464 to R467) -/

/-- The cell's state allows a HALT. -/
def haltOk (st : CState) : Bool := st.started && st != .faulted

/-- A HALT is asked for: a cell in SLEEP or PAUSED halts at once. -/
def State.askHalt (s : State) (c : CellNo) : State :=
  match (s.cell c).ctl.st with
  | .running => s.modDbg c fun d => { d with haltReq := true, haltAge := 0 }
  | .migrating => s.modDbg c fun d => { d with haltReq := true, haltAge := 0 }
  | .sleep => s.haltCell c 1
  | .paused => s.haltCell c 1
  | .empty => s | .loaded => s | .halted => s | .faulted => s

/-- An accepted DBG_CMD (R464, R466, R467). -/
def State.dbgCmd (s : State) (c : CellNo) (v : Nat) : State :=
  if v = 1 then s.askHalt c
  else s.modCtl c fun k => { k with cmds := k.cmds ++ [if v = 2 then CellCmd.step else CellCmd.dbgResume] }

/-- An asked HALT is taken at this boundary (R464, R465); a state that no longer allows it makes it lapse. -/
def State.takeHalt (s : State) (c : CellNo) : State :=
  let x := s.cell c
  if !x.dbg.haltReq then s
  else
    match x.ctl.st with
    | .running => if x.haltDue && !x.entryDue then s.haltCell c 1 else s
    | .sleep => s.haltCell c 1
    | .paused => s.haltCell c 1
    | .migrating => s
    | .halted => s.modDbg c fun d => { d with haltReq := false, haltAge := 0 }
    | .empty => (s.modDbg c fun d => { d with haltReq := false, haltAge := 0 }).lapse c 0x11
    | .loaded => (s.modDbg c fun d => { d with haltReq := false, haltAge := 0 }).lapse c 0x11
    | .faulted => (s.modDbg c fun d => { d with haltReq := false, haltAge := 0 }).lapse c 0x11

/-- The instruction, trap entry or interrupt entry of a step, on a cell that the step has released. -/
def State.stepBody (s : State) (c : CellNo) : Res :=
  let x := s.cell c
  if x.dbg.ctl.getLsbD 1 && !x.core.entered && hasFlag x.core.f fI && x.ic.candidate.isSome then .next (s.enterInterrupt c)
  else
    match x.decodePc with
    | .trap a => .next (s.takeTrap c a)
    | .instr d => s.runBody c d.len d.cycles d.taken d.body
    | .ext op =>
      match s.extOpEntry op with
      | none => .next (s.takeTrap c { vector := 28, cause := 1 })
      | some e => s.runBody c 0 0 0 fun c s => s.runExt c e 0 0

/-- The cell is halted again after a step: with `prior` as CELL_PRIOR, unless the step put it to sleep; a step is not
counted against pace (R466). -/
def State.haltAgain (s : State) (c : CellNo) (prior : CState) (pace : Pace) (cause : Byte) : State :=
  let s := s.modCell c fun x => { x with
    ctl := { x.ctl with st := .halted, prior := if x.ctl.st == .sleep then .sleep else prior }
    pace := { pace with avail := 0 }
    core := x.core.land
    dbg := { x.dbg with haltCause := cause, skipBreak := false } }
  s.raise 0x60 c.val true cause.toNat

/-- What follows the body of a step. -/
def stepEnd (c : CellNo) (prior : CState) (pace : Pace) : Res → Res
  | .next t => .next (if (t.cell c).ctl.st == .faulted then t else t.haltAgain c prior pace 2)
  | .fault f => .fault f
  | .refused r => .refused r

/-- One step of a HALTED cell (R466). -/
def State.stepCell (s : State) (c : CellNo) : Res :=
  let x := s.cell c
  let pace := x.pace
  if x.ctl.prior == .sleep && !x.wakeStands then .next (s.haltAgain c .sleep pace 2)
  else
    let woke := x.ctl.prior == .sleep
    let x := if woke then x.wakeUp x.beam.hpix (Config.freeWord s.freeCtr).toNat else x
    let s := if woke then { s with freeCtr := s.freeCtr + 1 } else s
    let prior := x.ctl.prior
    let x := { x with
      ctl := { x.ctl with st := .running }
      dbg := { x.dbg with skipBreak := decide (0x10 ≤ x.dbg.haltCause.toNat) } }
    match x.breakDue with
    | some k => .next ((s.setCell c x).haltAgain c prior pace (BitVec.ofNat 8 (0x10 + k)))
    | none => stepEnd c prior pace ((s.setCell c x).stepBody c)

/-- A core is there to step the cell. -/
def State.stepReady (s : State) (c : CellNo) : Bool :=
  s.cellsRun && !(s.cell c).inTransit && !s.storeClosed c && !(s.cell c).beam.waiting

/-- The first accepted command of the cell, if it is STEP, is taken. -/
def State.takeStep (s : State) (c : CellNo) : Res :=
  match (s.cell c).ctl.cmds with
  | .step :: r =>
    if (s.cell c).ctl.st == .halted then
      if s.stepReady c then (s.modCtl c fun k => { k with cmds := r }).stepCell c else .next s
    else .next ((s.modCtl c fun k => { k with cmds := r }).lapse c 0x12)
  | _ => .next s

/-- The first accepted command of the cell, if it is the debugger's RESUME, is taken. -/
def State.takeResume (s : State) (c : CellNo) (pix : Nat) : Res :=
  s.takeCmd c .dbgResume fun s => if (s.cell c).ctl.st == .halted then some (s.modCell c fun x => x.dbgResume pix) else none

/-! ## Patch units (R473) -/

/-- The value is one that DBG_PATCH takes: no reserved bit, and a word of the catalogue region. -/
def Cell.patchOk (x : Cell) (v : Long) : Bool :=
  decide (v.toNat / 33554432 % 128 = 0) && decide (4 * patchWord v + 3 < 32768 * x.map.ropages)

/-! ## Status objects (R480, R481) -/

/-- DBG_STAT as session `n` reads it. -/
def CellDbg.stat (d : CellDbg) (n : Half) : Byte :=
  flagIf d.haltReq 1 ||| flagIf (d.sideFx.contains n) 2 ||| flagIf (d.lockBroken.contains n) 4 ||| flagIf d.emu 8

/-- The read of DBG_STAT clears two bits for its session. -/
def State.dbgStatRead (s : State) (c : CellNo) (n : Half) : State :=
  s.modDbg c fun d => { d with sideFx := d.sideFx.filter (· != n), lockBroken := d.lockBroken.filter (· != n) }

/-- DBG_LOCK_S: seconds of lockout remaining. -/
def State.lockSeconds (s : State) : Nat :=
  match s.dbgDev.until_ with
  | none => 0
  | some t => (t - s.devTime.toNat + 999999999) / 1000000000

/-- DBG_HOLDERS. -/
def State.holders (s : State) : Nat :=
  (s.mc.sessions.filter fun q => allCells.any fun c => q.level c != 0).length

end Sys2Proof.Machine
end

