-- ==== Sys2Proof/Machine/SwarmOps.lean ====
section
/-! DEFINITION. The swarm at work: reception of frames, training of links, election of the beam master, device time, and
both sides of a live migration (R372 to R394). -/

namespace Sys2Proof.Machine

/-! ## Links (R375, R379) -/

/-- The swarm links work from TRAIN to DRAIN, while the link's domain is on (R375, R490). -/
def State.linkOn (s : State) (l : Fin 7) : Bool := s.dictServed && s.domOn (54 + l.val)

/-- LK_EN and LK_RATE_MAX of a link. -/
def State.lkEn (s : State) (l : Fin 7) : Bool := s.objOr (0x7100 + l.val) 1 1 != 0
def State.lkRateMax (s : State) (l : Fin 7) : Byte := BitVec.ofNat 8 (s.objOr (0x7100 + l.val) 6 3)

/-- What a link keeps when it starts afresh: its counts. -/
def Link.fresh (k : Link) : Link :=
  { signal := k.signal, retries := k.retries, crcErr := k.crcErr, fecCorr := k.fecCorr, retrains := k.retrains
    relayed := k.relayed, state := k.state }

/-- A link trains from `rate`. -/
def State.startTrain (s : State) (l : Fin 7) : State :=
  s.setLink l lkTrain fun k => { k.fresh with trying := s.lkRateMax l }

/-- Training again from UP (R375): frames not acknowledged stay in the replay buffer. -/
def State.retrain (s : State) (l : Fin 7) (rate : Byte) : State :=
  s.setLink l lkRetrain fun k => { k with trying := rate, resends := 0, retrains := satInc k.retrains }

/-- The link stops: disabled, or its signal is lost. -/
def State.dropLink (s : State) (l : Fin 7) : State :=
  s.setLink l lkDown fun k => { k.fresh with failed := false }

/-- A NAK with the SEQ expected, at most once for each (R379). -/
def State.sendNak (s : State) (l : Fin 7) : State :=
  let k := s.swarmLink l
  if k.nakSent = some k.rxSeq then s
  else s.modLinkL l fun k =>
    { k.send { kind := 1, last := true, src := s.devId, dst := k.peer.setWidth 3, seq := 0, ack := none
               tag := k.rxSeq.setWidth 32, payload := [] } with nakSent := some k.rxSeq }

/-- Frames that ACK `a` covers leave the replay buffer. -/
def Link.acked (k : Link) (a : BitVec 12) : Link :=
  let rest := k.replay.dropWhile fun f => decide (0 < (a - f.seq).toNat) && decide ((a - f.seq).toNat < 2048)
  { k with replay := rest, resends := if rest.length = k.replay.length then k.resends else 0 }

/-- A resend from the frame numbered `q` (R379): sixteen resends of the same frame lead to RETRAIN. -/
def State.resend (s : State) (l : Fin 7) (q : BitVec 12) : State :=
  let n := ((s.swarmLink l).replay.dropWhile fun f => f.seq != q).length
  if n = 0 then s
  else
    let s := s.modLinkL l fun k => { k with retries := satAdd k.retries n, resends := k.resends + 1 }
    if 16 ≤ (s.swarmLink l).resends then s.retrain l (s.swarmLink l).rate else s

/-- A frame for another member goes on unchanged (R389). -/
def State.relay (s : State) (l : Fin 7) (f : JFrame) : State :=
  match s.pathTo f.dst with
  | none => s.modSwarm fun w => { w with fwdLost := satInc w.fwdLost }
  | some m => (s.modLinkL m fun k => k.send f).modLinkL l fun k => { k with relayed := satInc k.relayed }

/-- Reception of a frame of type `kind` on link `l` (R376 to R380): a frame in error or out of order is discarded and
answered by NAK; ACK trims the replay buffer; a frame for this device does `f`. -/
def receive (l : Fin 7) (kind : Nat) (bytes : List Byte) (f : JFrame → State → State) (s : State) : Res :=
  if !s.linkOn l || (s.swarmLink l).state != lkUp then .next s
  else
    match JFrame.parse bytes with
    | none => .next ((s.modLinkL l fun k => { k with crcErr := satInc k.crcErr }).sendNak l)
    | some j =>
      if 12 ≤ j.kind then .next (s.modLinkL l fun k => { k with crcErr := satInc k.crcErr })
      else if j.kind ≠ kind then .next s
      else if j.seq ≠ (s.swarmLink l).rxSeq then .next (s.sendNak l)
      else
        let c := jclass j.kind
        let s := s.modLinkL l fun k =>
          let k := match j.ack with | some a => k.acked a | none => k
          if c = 0 then k else { k with rxSeq := k.rxSeq + 1, nakSent := none, freed := k.freed.set c (k.freed.get c + j.units) }
        .next (if j.dst = s.devId then f j s else s.relay l j)

/-- Parts of a packet collect under their TAG until the frame with END; answers the whole. -/
def State.gather (s : State) (l : Fin 7) (j : JFrame) : State × Option (List Byte) :=
  let key := j.kind * 2 ^ 32 + j.tag.toNat
  let all := Table.read (fun _ => []) (s.swarmLink l).parts key ++ j.payload
  if j.last then (s.modLinkL l fun k => { k with parts := Table.write (fun _ => []) k.parts key [] }, some all)
  else (s.modLinkL l fun k => { k with parts := Table.write (fun _ => []) k.parts key all }, none)

/-! ## The beam master (R383) -/

/-- Key `a` of member `i` beats key `b` of member `j`. -/
def keyBeats (a : MemberKey) (i : Nat) (b : MemberKey) (j : Nat) : Bool :=
  if a.locked != b.locked then a.locked
  else if a.pri != b.pri then decide (b.pri.toNat < a.pri.toNat)
  else decide (i < j)

/-- The key of this device. -/
def State.ownKey (s : State) : MemberKey :=
  let pri : Byte := BitVec.ofNat 8 (s.objOr 0x7000 5 128)
  { locked := s.house.lock == .locked, pri := pri, candidate := s.objOr 0x2100 1 0 != 2 && pri != 0 }

/-- The keys of the members with a direct UP link, and this device's own. -/
def State.memberKeys (s : State) : List (Nat × MemberKey) :=
  (s.devId.toNat, s.ownKey) ::
  allLinks.filterMap fun l =>
    let k := s.swarmLink l
    if k.state = lkUp then k.hello.map fun h => (h.id.val, h.key) else none

/-- The winner of an election. -/
def State.winner (s : State) : Option Nat :=
  (s.memberKeys.filter fun m => m.2.candidate).foldl
    (fun best m =>
      match best with
      | none => some m
      | some b => if keyBeats m.2 m.1 b.2 b.1 then some m else some b) (none : Option (Nat × MemberKey)) |>.map (·.1)

/-- The key of member `d`, where it is known. -/
def State.keyOf (s : State) (d : Nat) : Option MemberKey := (s.memberKeys.find? fun m => m.1 == d).map (·.2)

/-- A change of master: notice SW_MASTER, journalled; the lock state starts again from the new reference (R38, R383). -/
def State.setMaster (s : State) (d : Byte) : State :=
  if s.swarm.master = d then s
  else
    let s := s.modSwarm fun w => { w with master := d, beamAge := 0, masterFrame := none }
    let s := s.raiseEvent 0x13 0 false d.toNat
    if d = s.devId.setWidth 8 && s.house.src == 0 then s.setLock .free
    else if s.house.lock = .free then s else s.setLock .holdover

/-- An election: every member computes the same winner. -/
def State.elect (s : State) : State :=
  match s.winner with
  | some d => s.setMaster (BitVec.ofNat 8 d)
  | none => s.setMaster 0xFF

/-! ## Members (R389, R394) -/

/-- Cells whose migration is under way to or from a member that cannot be reached are given up, before GO (R394). -/
def State.cutMigrations (s : State) : State :=
  allCells.foldl
    (fun s c =>
      let x := s.cell c
      if x.kp.migState != 0 && !x.kp.gone && x.ctl.st == .migrating && x.kp.migTarget != s.devId.setWidth 8 &&
          !s.reaches (x.kp.migTarget.setWidth 3) then s.abandonMigration c else s) s

/-- What follows a change of links: SW_MEMBER_LOST for each member no longer reached, migrations without a path, HOLDOVER
of a follower without a direct link to its master (R384, R389). -/
def State.linksChanged (s : State) : State :=
  let now := s.members
  let lost := s.swarm.members &&& ~~~now
  let s := s.modSwarm fun w => { w with members := now }
  let s := (List.range 8).foldl (fun s d => if lost.getLsbD d then s.raiseEvent 0x14 0 false d else s) s
  let s := s.cutMigrations
  if s.followsSwarm && s.house.lock == .locked && (s.directLink (s.swarm.master.setWidth 3)).isNone then s.setLock .holdover else s

/-- A HELLO decides UP, FOREIGN or CONFLICT (R375, R383). -/
def State.hello (s : State) (l : Fin 7) (h : HelloInfo) : State :=
  let st := if h.id.val = s.devId.toNat then lkConflict
    else if h.swarm.toNat ≠ s.objOr 0x7000 2 0 then lkForeign else lkUp
  let s := s.setLink l st fun k => { k with hello := some h, peer := BitVec.ofNat 8 h.id.val }
  let s := s.linksChanged
  if st = lkUp && s.swarm.master == 0xFF then s.elect else s

/-! ## Extension sets (R110, R145) -/

/-- CS_EXT_OPS and CS_EXT_IOB. -/
def Stores.extOps (t : Stores) : Word :=
  (List.range 32).foldl (fun m k => putBit m k ((Table.read (fun _ => (0 : Half)) t.extDisp (0xC0 + k)).getLsbD 15)) 0
def Stores.extIob (t : Stores) : Word :=
  (List.range 32).foldl
    (fun m k => putBit m (k / 2 + 16 * (k % 2)) ((Table.read (fun _ => (0 : Half)) t.extIo k).getLsbD 15)) 0

/-- The member has the same extension set. -/
def State.sameExt (s : State) (h : HelloInfo) : Bool :=
  h.extStat == s.stores.extStat && h.extId == s.stores.extId && h.extOps == s.stores.extOps && h.extIob == s.stores.extIob

/-- Member `d` has the same extension set. -/
def State.sameExtOf (s : State) (d : BitVec 3) : Bool :=
  allLinks.any fun l =>
    let k := s.swarmLink l
    k.state == lkUp && (match k.hello with | some h => h.id.val == d.toNat && s.sameExt h | none => false)

/-! ## Migration, the old device (R390 to R393) -/

/-- A MIGC frame: 0 START, 1 READY, 2 GO, 3 ACK, 4 CANCEL. -/
def State.sendMigc (s : State) (d : BitVec 3) (c : CellNo) (code : Nat) : State :=
  s.sendTo d 9 true (jtag c.val (s.homeOf c) code) []

/-- One 512-byte block of the cell's space goes to the new device, with its number within its page (R377). -/
def State.sendBlock (s : State) (c : CellNo) (d : BitVec 3) (b : Nat) : State :=
  let x := s.cell c
  s.sendTo d 10 true (jtag c.val (s.homeOf c) (b / 64))
    (toBytes (b % 64) 8 ++ (List.range 512).map fun i => x.readMem (512 * b + i))

def State.sendBlocks (s : State) (c : CellNo) (d : BitVec 3) (l : List Nat) : State := l.foldl (fun s b => s.sendBlock c d b) s

/-- The switch state: its layout is not in the spec; 32 KiB of open bytes (R392). -/
def State.sendState (s : State) (c : CellNo) (d : BitVec 3) : State :=
  let t := (List.range 32).foldl
    (fun s p => s.sendTo d 11 (p == 31) (jtag c.val (s.homeOf c) p) ((List.range 1024).map fun i => Config.freeByte (s.freeCtr + 1024 * p + i))) s
  { t with freeCtr := s.freeCtr + 32768 }

/-- A migration of cell `c` to member `d` may be tried (R352, R353, R369, R390, R394). -/
def State.mayMigrate (s : State) (c : CellNo) (d : BitVec 3) (forced : Bool) : Bool :=
  let x := s.cell c
  let dwell := match x.kp.devSince with
    | none => true
    | some f => decide (f + 600 ≤ s.keeper.frames)
  (x.ctl.st == .running || x.ctl.st == .paused || x.ctl.st == .sleep) && x.beam.on && x.beam.started && x.kp.migState == 0 &&
  !x.kp.moving && s.objOr 0x3000 4 1 != 0 && s.swarm.coherent && d != s.devId && s.sameExtOf d &&
  (match s.pathTo d with | some l => !s.linkAvoided l | none => false) &&
  decide (x.kp.notBefore ≤ s.keeper.frames) && (forced || (dwell && s.keeper.frames % 64 == 0))

/-- START is accepted: the cell is MIGRATING and every page is copied in the first pass (R97, R390). -/
def State.startMigration (s : State) (c : CellNo) (d : BitVec 3) : State :=
  let s := s.sendMigc d c 0
  let s := s.modCell c fun x => { x with
    ctl := { x.ctl with
      st := .migrating, prior := x.ctl.st, pausePrior := if x.ctl.st == .paused then x.ctl.prior else x.ctl.pausePrior }
    kp := { x.kp with migState := 1, migTarget := d.setWidth 8, migDefers := 0, passes := 0, nextCore := none, gone := false }
    dirty := some [] }
  s.sendBlocks c d (List.range (64 * (s.cell c).map.pages))

/-- A precopy pass ends and the next one copies the blocks written since it began. -/
def State.nextPass (s : State) (c : CellNo) : State :=
  let x := s.cell c
  let s := s.sendBlocks c (x.kp.migTarget.setWidth 3) (x.dirty.getD [])
  s.modCell c fun x => { x with kp := { x.kp with passes := x.kp.passes + 1 }, dirty := some [] }

/-- The switch limit of R391 in bytes: lines of `len` beam clocks (24 fraction bits), path rate code `rate`. -/
def switchLimit (g : Geom) (len : Nat) (rate : Nat) : Nat :=
  let w := (g.vtotal - g.vactive - 3) * len * 1000 / (594 * 16777216) + 40
  min 4194304 ((w - 20000) * (10 * 2 ^ rate) / 8)

/-- A deferral; MIG_DEFER_MAX of them abandon the migration (R394). -/
def State.defer (s : State) (c : CellNo) : State :=
  let s := s.modKp c fun k => { k with migDefers := k.migDefers + 1 }
  if s.objOr 0x7000 0x0B 16 ≤ (s.cell c).kp.migDefers.toNat then
    (s.sendMigc ((s.cell c).kp.migTarget.setWidth 3) c 4).abandonMigration c
  else s

/-- The switch window opens (R391, R392). -/
def State.openWindow (s : State) (c : CellNo) : State :=
  let x := s.cell c
  let d : BitVec 3 := x.kp.migTarget.setWidth 3
  let dirty := x.dirty.getD []
  let rate := match s.pathTo d with | some l => (s.swarmLink l).rate.toNat | none => 0
  let s := s.modKp c fun k => { k with migDirty := BitVec.ofNat 32 (512 * dirty.length) }
  if switchLimit x.beam.geom (lineLen x.beam.geom s.house.frameClks) rate < 512 * dirty.length then s.defer c
  else
    let s := s.modCell c fun x =>
      let y := x.suspendCount s.devTime
      { y with kp := { y.kp with migState := 2, stopped := true }, pace := { y.pace with shared := true } }
    (s.sendBlocks c d dirty).sendState c d

/-- The switch is cancelled: the cell goes on here at once, and copying continues (R392). -/
def State.cancelSwitch (s : State) (c : CellNo) : State :=
  let s := s.modCell c fun x =>
    let y := { x with kp := { x.kp with migState := 1, stopped := false, onCore := x.kp.core.isSome }, dirty := some [] }
    y.resumeCount s.devTime
  s.defer c

/-- Everything of a cell that has left this device (R393): pages, core, slots, context. A cell of this device is away. -/
def State.releaseMigrated (s : State) (c : CellNo) : State :=
  let x := s.cell c
  let d : BitVec 3 := x.kp.migTarget.setWidth 3
  let own := x.kp.guest.isNone
  let s := (s.releasePages c).dropSlots c
  let s := s.modCell c fun x =>
    let y := { x.stopped with mem := [], dirty := none }
    let k := { y.kp with
      migState := 0, migTarget := 0xFF, gone := false, passes := 0, migLastStop := Config.freeWord s.freeCtr
      migCount := satInc y.kp.migCount, away := if own then some d else none, devSince := some s.keeper.frames }
    let k := if own then k else { k with guest := none, guestOn := false }
    { y with
      kp := k
      ctl := if own then { y.ctl with st := y.ctl.prior, prior := if y.ctl.prior == .paused then y.ctl.pausePrior else .empty }
        else {} }
  ({ s with freeCtr := s.freeCtr + 1 }.modKeeper fun k => { k with migrations := satInc k.migrations }).fenceCheck

/-! ## Migration, the new device (R390, R393) -/

/-- The cell of a MIGC, PAGE or STATE frame is arriving here: a guest, or an own cell on its way home. -/
def State.arriving (s : State) (c : CellNo) (home : BitVec 3) : Bool :=
  let k := (s.cell c).kp
  if home = s.devId then k.away.isSome && k.migTarget == s.devId.setWidth 8 else k.guest == some home && !k.guestOn

/-- START can be accepted (R369, R387, R390). -/
def State.canHost (s : State) (c : CellNo) (home : BitVec 3) (h : Option HelloInfo) (n : MigNeeds) : Bool :=
  let x := s.cell c
  let context := if home = s.devId then x.kp.away.isSome && x.kp.migTarget == 0xFF
    else x.ctl.st == .empty && x.kp.guest.isNone
  s.present c && context && s.objOr 0x3000 4 1 != 0 && s.swarm.coherent &&
  (match h with | some h => s.sameExt h | none => false) &&
  decide (s.keptPages.length + n.pages.length ≤ s.dataPages) && s.allocOk n.tenant.toNat n.pages.length n.pages

/-- The context and the pages are taken. -/
def State.takeGuest (s : State) (c : CellNo) (home : BitVec 3) (n : MigNeeds) : State :=
  let own := home == s.devId
  let s := s.allocPages c n.roPages n.pages
  s.modCell c fun x => { x with
    ctl := { x.ctl with st := .migrating, prior := if own then x.ctl.st else .paused }
    prof := n.profile
    map := { x.map with pages := n.pages.length, ropages := n.roPages }
    kp := { x.kp with
      guest := if own then none else some home, guestOn := false, migTarget := s.devId.setWidth 8, migState := 1, stateIn := []
      pmap := n.pages.map fun a => a.page.val } }

/-- Everything taken for a cell that does not arrive is given back (R394). -/
def State.dropGuest (s : State) (c : CellNo) : State :=
  let x := s.cell c
  let own := x.kp.guest.isNone
  let s := s.releasePages c
  s.modCell c fun x => { x with
    mem := [], map := {}
    ctl := if own then { x.ctl with st := x.ctl.prior, prior := .empty } else {}
    kp := { x.kp with guest := none, guestOn := false, migTarget := 0xFF, migState := 0, stateIn := [] } }

/-- Blocks of a page that arrive: each has its number within the page before it. -/
def Cell.putBlocks (x : Cell) (page : Nat) (l : List Byte) : Cell :=
  let one (x : Cell) (l : List Byte) : Cell :=
    if l.length = 520 then x.writeMemList (32768 * page + 512 * (ofBytes (l.take 8) % 64)) (l.drop 8) else x
  (one (one x (l.take 520)) ((l.drop 520).take 520))

/-- The core registers that arrive: their place in the switch state is not in the spec, so every one is open. -/
def freeCore (n : Nat) : Core :=
  { b := Vector.ofFn fun i => Config.freeByte (n + i.val)
    pc := Config.freeByte (n + 16) ++ Config.freeByte (n + 17), sp := Config.freeByte (n + 18) ++ Config.freeByte (n + 19)
    f := loadF (Config.freeByte (n + 20)), mhml := Config.freeByte (n + 21) ++ Config.freeByte (n + 22)
    ed := Config.freeByte (n + 23) }

/-- GO: the cell starts here on core `k` (R393). -/
def State.startGuest (s : State) (c : CellNo) (k : Fin 128) : State :=
  let g := resetGeom (s.cell c).prof
  let s' := s.modCell c fun x => { x with
    core := freeCore s.freeCtr
    ctl := { x.ctl with st := .running, prior := .empty, pausePrior := .empty }
    beam := ({ stagger := x.beam.stagger, geom := g, pgeom := g, d := dOf g s.house.frameClks } : CellBeam).start
    kp := { x.kp with
      guestOn := x.kp.guest.isSome, away := none, migState := 0, migTarget := 0xFF, stateIn := [], devSince := some s.keeper.frames
      migCount := if x.kp.guest.isNone then satInc x.kp.migCount else x.kp.migCount } }
  { s' with freeCtr := s.freeCtr + 24 }.giveCore c k

/-! ## Device time of a follower (R385) -/

/-- Device time against the master's: behind by more than 1 ms it steps forward once. -/
def State.takeTime (s : State) (t : Long) : State :=
  let err : Int := (s.devTime.toNat : Int) - t.toNat
  let s := s.modSwarm fun w => { w with timeErr := BitVec.ofInt 32 (clampInt (-2147483648) 2147483647 err) }
  if err < -1000000 then { s.event 0x8001 0 s.devTime t with devTime := t } else s

end Sys2Proof.Machine
end

