-- ==== Sys2Proof/Machine/PowerOps.lean ====
section
/-! DEFINITION. Device modes, power domains, RETAIN, device reset, FAULT-HOLD, device time, and the measurement converter
(R28, R483 to R509). -/

namespace Sys2Proof.Machine

/-! ## Device time (R28) -/

/-- An idle step: device time advances one crystal cycle, or one slow-clock cycle while the crystal is stopped; in OFF
nothing moves (DESIGN CHOICE, assumption 2). -/
def State.idle (s : State) : State :=
  if s.pwr.mode = .off then s
  else if s.pwr.crystalOff then
    let f := s.pwr.frac.toNat + 37
    { s with devTime := s.devTime + 30517 + BitVec.ofNat 64 (f / 64), pwr := { s.pwr with frac := BitVec.ofNat 6 f } }
  else { s with devTime := s.devTime + 40 }

/-! ## Modes (R483 to R485) -/

/-- A change of mode is journalled; from READY onward it raises PWR_MODE, but for HOLD and FAULT-HOLD (R484). -/
def State.setMode (s : State) (m : Mode) : State :=
  let old := s.pwr.mode
  if old = m then s
  else
    let s := s.modPwr fun p => { p with mode := m }
    let arg := m.code.toNat + 256 * old.code.toNat
    if m != .hold && m != .faultHold && (decide (5 ≤ old.code.toNat) || decide (5 ≤ m.code.toNat)) then s.raiseEvent 0x70 0 false arg
    else s.event 0x70 0 0 (BitVec.ofNat 64 arg)

/-- A cluster pair runs below 100 % (R488). -/
def State.throttled (s : State) : Bool := s.pwr.throttle.toList.any (· != 100)

/-- SERVE is entered: cells go on, and a throttled device is SERVE-LIMITED (R486 to R488). -/
def State.serve (s : State) : State :=
  let s := s.enterServe.setMode .serve
  if s.throttled then s.setMode .limited else s

/-- Every cell that is neither EMPTY nor LOADED is suspended (R486). -/
def State.suspendAll (s : State) : State :=
  allCells.foldl (fun s c => (s.modCell c Cell.suspend).dropSlots c) s

/-! ## Domains (R489 to R493) -/

/-- What a domain holds is lost as it goes off (R489). -/
def State.domLost (s : State) (d : Nat) : State :=
  if 17 ≤ d ∧ d < 41 then s.modComb (Fin.ofNat 24 (d - 17)) fun b => { b with work := none, prefill := none, busy := 0 }
  else if 41 ≤ d ∧ d < 49 then s.modChan (Fin.ofNat 8 (d - 41)) fun r => { r with st := 0, counted := false, throttled := false }
  else if d = 49 then
    let s := s.modLink fun l =>
      { retrains := l.retrains, aerCorr := l.aerCorr, cmdRewind := l.cmdRewind, nqLostTotal := l.nqLostTotal, msix := l.msix }
    { s with cells := s.cells.map fun x => { x with host := { x.host with
        slice := {}, audio := {}, event := {}, input := {}, mbData := 0, mbFull := false, mbRej := false, mbLow := 0 } } }
  else if 50 ≤ d ∧ d < 54 then s.modHead (Fin.ofNat 4 (d - 50)) fun k => { sink := k.sink }
  else if 54 ≤ d ∧ d < 61 then (s.setLink (Fin.ofNat 7 (d - 54)) lkDown Link.fresh).linksChanged
  else if d = 61 then { s with ports := s.ports.map HsPort.reset, conv := {}, audClk := 0 }
  else s

/-- Domain `d` goes off without drain. -/
def State.domOff (s : State) (d : Nat) : State :=
  if (s.dom d).st = 0 then s else ((s.domLost d).modDom d fun k => { k with down := false }).setDom d 0

/-- A head trains when it is enabled. -/
def State.headUpTrain (s : State) (h : Fin 4) : State :=
  if s.hd h.val 1 0 != 0 then (s.modHead h fun k => { k with on := true, waiting := true }).trainHead h else s

/-- What follows the ramp of domain `d` (R493). -/
def State.domUp (s : State) (d : Nat) : State :=
  let open_ (u : StoreUnit) (s : State) : State := { s with stores := { s.stores with
    closed := s.stores.closed.filter (· != u), repairs := s.stores.repairs.filter (·.1 != u) } }
  if 1 ≤ d ∧ d < 17 then open_ (.cluster (Fin.ofNat 16 (d - 1))) s
  else if 17 ≤ d ∧ d < 41 then open_ (.comb (Fin.ofNat 24 (d - 17))) s
  else if 41 ≤ d ∧ d < 49 then s.modChan (Fin.ofNat 8 (d - 41)) fun r => { r with st := 1 }
  else if 50 ≤ d ∧ d < 54 then s.headUpTrain (Fin.ofNat 4 (d - 50))
  else if 54 ≤ d ∧ d < 61 then
    let l : Fin 7 := Fin.ofNat 7 (d - 54)
    if s.lkEn l && (s.swarmLink l).signal then s.startTrain l else s
  else if d = 61 then { s with ports := s.ports.map HsPort.reset }.releasePads
  else s

/-- Domain `d` is ON at the end of its ramp. -/
def State.domOnNow (s : State) (d : Nat) : State := (s.setDom d 2).domUp d

/-- Domain `d` powers up within a change of mode: its ramp is one step of the model (DESIGN CHOICE, assumption 40). -/
def State.powerDom (s : State) (d : Nat) : State := if (s.dom d).st = 2 then s else (s.setDom d 1).domOnNow d

/-- A write of PD_EN that R490 and R492 accept; a record of the boot defaults sets the object alone, and TRAIN switches the
domain (R501, R503). -/
def State.writePdEn (s : State) (d : Nat) (v : Bool) : State :=
  let st := (s.dom d).st
  let s := s.objPut (0x8100 + d) 1 1 (b2n v)
  if s.pwr.mode = .load then s
  else if v then
    if st = 0 then s.setDom d 1
    else if st = 3 then (s.modDom d fun k => { k with down := false }).setDom d 5
    else if st = 4 then (s.modDom d fun k => { k with down := true }).setDom d 5
    else s
  else if st = 2 then (if d = 61 then s.holdPads else s).setDom d 3
  else if st = 5 then s.setDom d (if (s.dom d).down then 4 else 3)
  else s

/-- PD_EN 0 is refused with STATE (R490). -/
def State.pdRefused (s : State) (d : Nat) : Bool :=
  let f (b : Nat) : Bool := !s.keeper.fenceDone.getLsbD b
  if 1 ≤ d ∧ d < 17 then f (d - 1) else if 17 ≤ d ∧ d < 41 then f (16 + (d - 17)) else if 41 ≤ d ∧ d < 49 then f (40 + (d - 41))
  else if 50 ≤ d ∧ d < 54 then s.hd (d - 50) 1 0 != 0
  else if 54 ≤ d ∧ d < 61 then f (48 + (d - 54)) else if d = 62 then f 55 else false

/-- The drain of domain `d` ends with `left` transfers in flight after 2 µs (R491). -/
def State.drainEnd (s : State) (d left : Nat) : State :=
  let k := s.dom d
  if k.st = 3 ∨ (k.st = 5 ∧ k.down = false) then
    let s := if left = 0 then s else
      (s.modDom d fun k => { k with forced := satInc k.forced }).event 0x8010 d (BitVec.ofNat 64 d) (BitVec.ofNat 64 left)
    if k.st = 3 then s.setDom d 4 else s.modDom d fun k => { k with down := true }
  else s

/-- The shutdown of domain `d` ends; a recorded enable powers it up at once (R492). -/
def State.rampDownEnd (s : State) (d : Nat) : State :=
  let k := s.dom d
  if k.st = 4 then s.domOff d else if k.st = 5 ∧ k.down then (s.domOff d).setDom d 1 else s

/-- The domains that the modes from READY to DIAG power: PD_EN decides. -/
def State.wantedDoms (s : State) : List Nat := (List.range 63).filter fun d => s.domPresent d && (d == 0 || s.pdEn d)

/-- Every domain of the list is powered; every other switched domain goes off. -/
def State.setDoms (s : State) (l : List Nat) : State :=
  (List.range 63).foldl (fun s d => if l.contains d then s.powerDom d else s.domOff d) s

/-! ## Device reset and supplies (R484, R496) -/

/-- What no power state of the device touches: the board's signals, the TAP, and the model's own fields. -/
def State.board (s t : State) : State :=
  { t with
    freeCtr := s.freeCtr, pending := s.pending, banks := s.banks
    pins := s.pins.map fun p => { level := p.level }
    heads := Vector.ofFn fun h => { (t.heads.get h) with sink := (s.heads.get h).sink }
    swarm := { t.swarm with links := Vector.ofFn fun l => { (t.swarm.links.get l) with signal := (s.swarm.links.get l).signal } }
    pwr := { t.pwr with trips := s.pwr.trips } }

/-- A device reset with RST_CAUSE `cause` (R496): not in OFF, nor for FAULT-HOLD cause THERMAL while a trip stands (R504). -/
def State.deviceReset (s : State) (cause : Byte) : State :=
  if s.pwr.mode = .off || (s.pwr.mode == .faultHold && s.pwr.fhCause == 6 && s.pwr.trips != 0) then s
  else
    let p := State.powerUp s.part
    let t := s.board p
    let t := { t with
      devTime := s.devTime, tap := s.tap
      mc := { t.mc with journal := s.mc.journal, jrSeq := s.mc.jrSeq }
      pwr := { t.pwr with
        mode := s.pwr.mode, id := s.pwr.id, idIn := s.pwr.idIn, rstCause := cause, fhCause := s.pwr.fhCause, fhAuto := s.pwr.fhAuto } }
    (t.setMode .hold).event 0x8012 0 0 (cause.setWidth 64)

/-- VDD_AON rises in OFF (R484). -/
def State.aonUp (s : State) : State := if s.pwr.mode = .off then s.board (State.powerUp s.part) else s

/-- The board removes the supplies (R484). -/
def State.aonDown (s : State) : State :=
  let p := State.powerUp s.part
  let t := s.board { p with mc := { p.mc with journal := [], jrSeq := 0 } }
  { t with pwr := { t.pwr with mode := .off, trips := 0, doms := Vector.replicate 63 {}, rstCause := 0 } }

/-- Trained channels enter self-refresh, which their pads hold while the domains are off (R494, R504, R517). -/
def selfRefresh (v : Vector Rl 8) : Vector Rl 8 := v.map fun (r : Rl) => if r.st = 2 then { r with st := 3 } else r

/-! ## FAULT-HOLD (R504) -/

/-- FAULT-HOLD with a cause, from SENSE onward. -/
def State.faultHold (s : State) (cause : Byte) : State :=
  let old := s.pwr.mode
  if old = .off || old == .hold || old == .faultHold then s
  else
    let s := s.holdPads.modPwr fun p => { p with fhCause := cause, crystalOff := false }
    let s := s.setMode .faultHold
    let chans := selfRefresh s.memu.chans
    let s := s.setDoms [0, 49]
    let s := { s with memu := { s.memu with chans := chans } }
    s.event 0x8011 0 (old.code.setWidth 64) (cause.setWidth 64)

/-- A microword error of a privileged sequencer: CS_LAST_ERR, CS_ERR, and FAULT-HOLD (R136, R137). -/
def State.seqError (s : State) (q : SeqUnit) (e : MicroErr) : State :=
  let code := match q with | .mc => 0x30 | .placement => 0x31 | .migration => 0x32
  let last : Long := BitVec.ofNat 64 (code + e.addr.toNat * 256 + e.quarters.toNat * 16777216)
  let s := { s with stores := { s.stores with lastErr := last } }
  ((s.raise 6 0 false last.toNat).event 6 0 0 last).faultHold 3

/-- The powered channels train (R503, R515). -/
def State.trainStart (s : State) : State :=
  let f (c : Fin 8) : Rl :=
    let r := s.memu.chans.get c
    if s.domOn (41 + c.val) then { r with st := 1, counted := false } else r
  { s with memu := { s.memu with chans := Vector.ofFn f } }

/-! ## RETAIN (R494, R495) -/

/-- Every page whose data lies elsewhere returns to its reserved frame. -/
def State.pagesHome (s : State) : State :=
  s.keptPages.foldl
    (fun s e => if pteLoc e.2 = 0 then s else s.endMove { page := e.1, place := .rld (pteFrame e.2), forced := true }) s

/-- RET_WAKE bit `n`. -/
def State.wakeOn (s : State) (n : Nat) : Bool := (s.objOr 0x8000 0x0F 1).testBit n

/-- RETAIN is entered. -/
def State.enterRetain (s : State) : State :=
  let s := (s.suspendAll.pagesHome).modKeeper fun k => { k with moves := [] }
  let s := s.holdPads
  let keep := s.objOr 0x8000 0x0E 0
  let chans := selfRefresh s.memu.chans
  let s := s.setDoms ([0] ++ (if keep.testBit 0 && s.domOn 49 then [49] else []) ++ (if keep.testBit 1 && s.domOn 61 then [61] else []))
  let s := { s with memu := { s.memu with chans := chans } }
  (s.modPwr fun p => { p with crystalOff := !(s.domOn 49 || s.wakeOn 3) }).setMode .retain

/-- A wake event in RETAIN: TRAIN follows (R495). -/
def State.wake (s : State) (n : Nat) : State :=
  if s.pwr.mode = .retain && s.wakeOn n then
    let s := s.event 0x8015 0 0 (BitVec.ofNat 64 n)
    let s := s.modPwr fun p => { p with crystalOff := false, woken := true }
    ((s.setMode .train).setDoms s.wantedDoms).trainStart
  else s

/-! ## Requests and drains (R485, R487) -/

/-- The request is allowed in the present mode. -/
def State.modeOk (s : State) (m : Mode) : Bool :=
  let now := s.pwr.mode
  match m with
  | .ready => now == .ready || now == .serve || now == .limited || now == .diag
  | .serve => now == .serve || now == .limited || now == .ready || now == .drain
  | .retain => now == .ready || now == .serve || now == .limited
  | .diag => now == .diag || now == .ready
  | .off => false | .hold => false | .sense => false | .load => false | .train => false | .limited => false
  | .drain => false | .faultHold => false

/-- TRAIN is entered again from DIAG: the domains whose PD_EN is 1 stay as they are. -/
def State.retrainAll (s : State) : State := (s.setMode .train).trainStart

/-- DRAIN begins towards `m`. -/
def State.startDrain (s : State) (m : Mode) : State := (s.modPwr fun p => { p with drainTo := m }).setMode .drain

/-- An accepted request of mode `m`. -/
def State.takeMode (s : State) (m : Mode) : State :=
  let now := s.pwr.mode
  let s := s.modPwr fun p => { p with req := m.code }
  let serving := now == .serve || now == .limited
  if m = now then s
  else if m = .ready then (if serving then s.startDrain .ready else s.retrainAll)
  else if m = .serve then (if now = .limited then s else s.serve)
  else if m = .retain then (if serving then s.startDrain .retain else s.enterRetain)
  else s.setMode .diag

/-- The drain is complete (R487): migrations still in progress are abandoned, cells are paused and suspended. -/
def State.drainDone (s : State) : State :=
  let s := allCells.foldl (fun s c => if (s.cell c).kp.gone then s else s.abandonMigration c) s
  let paused : BitVec 128 := allCells.foldl
    (fun b c => let x := s.cell c
      putBit b c.val ((x.ctl.st == .running || x.ctl.st == .sleep) && x.kp.away.isNone)) 0
  let s := s.modPwr fun p => { p with drainPaused := paused }
  let s := allCells.foldl (fun s c => if paused.getLsbD c.val then s.modCell c Cell.drainPause else s) s
  let s := s.suspendAll
  if s.pwr.drainTo = .retain then s.enterRetain else s.setMode .ready

/-! ## The end of TRAIN (R486, R503, R514) -/

/-- The house beam, the keeper's dwell times and the links start afresh (R36, R351, R375, R503). -/
def State.startBeam (s : State) : State :=
  let h := s.house
  let s := { s with
    house := { src := h.src, rate := h.rate, frameClks := h.frameClks, frameLen := h.frameClks, freqOfs := 0, glitch := h.glitch
               srcDue := h.srcDue || s.objOr 0x2100 1 0 != h.src.toNat }
    cells := s.cells.map fun (x : Cell) => { x with kp := { x.kp with coreSince := none, devSince := none, notBefore := 0 } } }
  s.modKeeper fun k => { k with frames := 0, left := [], started := 0 }

/-- Links that train at the end of TRAIN. -/
def State.startLinks (s : State) : State :=
  allLinks.foldl (fun s l => if s.linkOn l && s.lkEn l && (s.swarmLink l).signal && (s.swarmLink l).state == lkDown then s.startTrain l else s) s

/-- Entries of the old suspension area are given up. -/
def State.clearArea (s : State) : State :=
  if s.memu.frames = 0 then s else (List.range 128).foldl (fun s n => s.setPte (s.areaBase + n) 0) s

/-- TRAIN ends with the results `ch` of the channels; `none` where the frames offered for the suspension area are not ones
that may form it. -/
def State.trainEnd (s : State) (ch : List ChanTrain) (area : List (BitVec 17)) : Option State :=
  let ch := (List.range 8).map fun c => if s.domOn (41 + c) then ch.getD c .unpowered else .unpowered
  let s := (s.clearArea).trainAll ch
  if s.trainedChans.isEmpty then some (s.faultHold 5)
  else if !s.areaOk area || !area.all s.frameFree then none
  else
    let s := (s.formArea area).startBeam
    let s := s.setDoms s.wantedDoms
    let s := s.startLinks
    let woken := s.pwr.woken
    let s := (s.modPwr fun p => { p with woken := false }).setMode .ready
    let s := if s.domOn 61 then s.releasePads else s
    some (if woken && s.objOr 0x8000 0x11 5 == 6 then s.serve else s)

/-! ## The measurement converter (R506 to R509, R518) -/

/-- Threshold of an I16 object in 1/8 °C. -/
def State.tempObj (s : State) (sub d : Nat) : Int := (BitVec.ofNat 16 (s.objOr 0x8000 sub d)).toInt

/-- One reading of sensor `k` (R507). -/
def State.tempRead (s : State) (k : Nat) (v : Int) : State :=
  let t := s.conv.ts[k]?.getD {}
  let first := !s.conv.tsRead.getLsbD k
  let w : BitVec 16 := BitVec.ofInt 16 v
  let warm := decide (s.tempObj 0x13 760 ≤ v) && t.quiet == 0
  let t := { t with
    temp := w, peak := if first || decide (t.peak.toInt < v) then w else t.peak, quiet := if warm then 999 else t.quiet - 1 }
  let s := { s with conv := { s.conv with ts := s.conv.ts.setIfInBounds k t, tsRead := putBit s.conv.tsRead k true } }
  if warm then (s.raise 0x72 k false (w.toNat)).fireShared 0x97 else s

/-- SP_NOM_MV and the window in percent of tap `k` (R506, R545). -/
def tapNom (k : Nat) : Nat :=
  if k < 5 then 750 else if k < 7 then 800 else if k = 7 then 750 else if k < 11 then 1200 else if k < 13 then 1800
  else if k < 15 then 3300 else 800
def tapWindow (k : Nat) : Nat := if 11 ≤ k ∧ k < 15 then 5 else 3

/-- A reading further from the nominal voltage than `pct` percent. -/
def beyond (nom v pct : Nat) : Bool := decide (nom * pct < 100 * (if v < nom then nom - v else v - nom))

/-- One reading of tap `k` (R508). -/
def State.tapRead (s : State) (k v : Nat) : State :=
  let t := s.conv.sp[k]?.getD {}
  let nom := tapNom k
  let warn := beyond nom v (tapWindow k + 2) && t.quiet == 0
  let w := BitVec.ofNat 16 v
  let bad := if beyond nom v 10 then t.bad + 1 else 0
  let n := { t with
    mv := w, low := if !t.read || decide (w < t.low) then w else t.low, high := if !t.read || decide (t.high < w) then w else t.high
    bad := bad, quiet := if warn then 999 else t.quiet - 1, read := true }
  let s := { s with conv := { s.conv with sp := s.conv.sp.setIfInBounds k n } }
  let s := if warn then s.raise 0x74 k false v else s
  if 16 ≤ bad then s.faultHold 7 else s

/-- One code of AIN channel `k` (R509). -/
def State.ainCode (s : State) (k code : Nat) : State :=
  let a := s.conv.ain[k]?.getD {}
  let o := 0x6240 + k
  let lo := s.objOr o 4 0
  let hi := s.objOr o 5 4095
  let hyst := s.objOr o 6 16
  let st : Byte :=
    if hi < code then 2 else if code < lo then 0
    else if a.st = 2 then (if code + hyst < hi then 1 else 2)
    else if a.st = 0 then (if lo + hyst < code then 1 else 0)
    else 1
  let s := { s with conv := { s.conv with ain := s.conv.ain.setIfInBounds k { code := BitVec.ofNat 16 code, st := st } } }
  if st = a.st then s else s.fireShared ⟨0x93 + k % 4, by omega⟩

/-- TS14 and TS15 throttle the channels (R518). -/
def State.chanThrottle (s : State) : State :=
  let lim := s.tempObj 0x14 800
  { s with memu := { s.memu with chans := Vector.ofFn fun c =>
      let r := s.memu.chans.get c
      let t := (s.conv.ts[14 + c.val / 4]?.getD {}).temp.toInt
      ({ r with throttled := if lim ≤ t then true else if t < lim - 24 then false else r.throttled } : Rl) } }

/-- A frame of the converter. -/
def State.convFrame (s : State) (temps : List Int) (taps : List Nat) (ain : List (List Nat)) : State :=
  let s := (List.range 16).foldl (fun s k => match temps[k]? with | some v => s.tempRead k v | none => s) s
  let s := s.chanThrottle
  let s := (List.range 4).foldl
    (fun s k => ((ain.getD k []).take (s.objOr (0x6240 + k) 3 0)).foldl (fun s v => s.ainCode k (v % 4096)) s) s
  (List.range 16).foldl (fun s k => match taps[k]? with | some v => s.tapRead k v | none => s) s

/-- One step of the throttle of cluster pair `t` (R488). -/
def State.throttlePair (s : State) (t : Fin 8) : State :=
  let lim := s.tempObj 0x14 800
  let v := (s.conv.ts[t.val]?.getD {}).temp.toInt
  let r := s.pwr.throttle.get t
  let n : Byte :=
    if lim ≤ v then (if 55 ≤ r.toNat then r - 5 else 50) else if v < lim - 24 then (if r.toNat ≤ 95 then r + 5 else 100) else r
  if n = r then s
  else
    let s := (s.modPwr fun p => { p with throttle := p.throttle.set t n }).raise 0x73 t.val false n.toNat
    if s.pwr.mode = .serve && s.throttled then s.setMode .limited
    else if s.pwr.mode = .limited && !s.throttled then s.setMode .serve
    else s

end Sys2Proof.Machine
end

