-- ==== Sys2Proof/Machine/ObjMap.lean ====
section
/-! DEFINITION. The objects of the dictionary: which indexes are present, and each object's type, access, default and range
(R12 to R14, R432, R436, R438, and the object tables of the chapters). -/

namespace Sys2Proof.Machine

/-- Access codes of R13. -/
inductive Acc where
  | ro | wo | rw | rws | rwk
  deriving DecidableEq, Repr

/-- A row of an object table: subindex, type code of R432, access, default, and the range of its plain values. A default of 0
stands where a table has none. -/
structure ObjRow where
  sub : Nat
  ty : Nat
  acc : Acc
  dflt : Nat
  lo : Nat
  hi : Nat
  deriving DecidableEq, Repr

/-- The object table at an index of a family, by the family's first index. -/
def objFamily (base : Nat) : List ObjRow :=
  match base with
  | 0x1000 => [⟨0x01, 5, .ro, 0, 0, 18446744073709551615⟩, ⟨0x02, 9, .ro, 0, 0, 0⟩, ⟨0x03, 2, .ro, 0, 0, 255⟩,
      ⟨0x04, 5, .ro, 0, 0, 18446744073709551615⟩, ⟨0x05, 2, .ro, 0, 0, 255⟩, ⟨0x06, 2, .ro, 0, 0, 255⟩]
  | 0x1001 => [⟨0x01, 5, .ro, 0, 0, 18446744073709551615⟩, ⟨0x02, 2, .ro, 0, 0, 255⟩, ⟨0x03, 2, .ro, 0, 0, 255⟩,
      ⟨0x04, 4, .ro, 0, 0, 4294967295⟩]
  | 0x1002 => [⟨0x01, 5, .ro, 0, 0, 18446744073709551615⟩, ⟨0x02, 2, .ro, 0, 0, 255⟩]
  | 0x1003 => [⟨0x01, 5, .ro, 0, 0, 18446744073709551615⟩, ⟨0x02, 2, .ro, 0, 0, 255⟩]
  | 0x1004 => [⟨0x01, 5, .ro, 0, 0, 18446744073709551615⟩, ⟨0x02, 2, .ro, 0, 0, 255⟩, ⟨0x03, 2, .ro, 0, 0, 255⟩]
  | 0x1005 => [⟨0x01, 5, .ro, 0, 0, 18446744073709551615⟩, ⟨0x02, 2, .ro, 0, 0, 255⟩]
  | 0x1006 => [⟨0x01, 5, .ro, 0, 0, 18446744073709551615⟩, ⟨0x02, 2, .ro, 0, 0, 255⟩]
  | 0x1007 => [⟨0x01, 5, .ro, 0, 0, 18446744073709551615⟩, ⟨0x02, 1, .ro, 0, 0, 1⟩]
  | 0x1008 => [⟨0x01, 5, .ro, 0, 0, 18446744073709551615⟩, ⟨0x02, 3, .ro, 0, 0, 65535⟩, ⟨0x03, 3, .ro, 0, 0, 65535⟩]
  | 0x1009 => [⟨0x01, 5, .ro, 0, 0, 18446744073709551615⟩, ⟨0x02, 3, .ro, 0, 0, 65535⟩, ⟨0x03, 2, .ro, 0, 0, 255⟩]
  | 0x100A => [⟨0x01, 5, .ro, 0, 0, 18446744073709551615⟩, ⟨0x02, 2, .ro, 0, 0, 255⟩]
  | 0x2000 => [⟨0x01, 2, .rw, 16, 1, 32⟩, ⟨0x02, 4, .rw, 10000, 100, 3600000⟩, ⟨0x03, 2, .ro, 0, 0, 255⟩]
  | 0x2100 => [⟨0x01, 2, .rw, 0, 0, 3⟩, ⟨0x02, 4, .rws, 60000, 23500, 122000⟩, ⟨0x03, 4, .ro, 9900000, 0, 4294967295⟩,
      ⟨0x04, 3, .rws, 1125, 1, 4096⟩, ⟨0x05, 3, .rw, 1000, 1, 2000⟩, ⟨0x06, 1, .rw, 0, 0, 1⟩,
      ⟨0x07, 2, .ro, 0, 0, 255⟩, ⟨0x08, 7, .ro, 0, 0, 4294967295⟩, ⟨0x09, 7, .ro, 0, 0, 4294967295⟩,
      ⟨0x0A, 5, .ro, 0, 0, 18446744073709551615⟩, ⟨0x0B, 4, .ro, 0, 0, 4294967295⟩]
  | 0x2101 => [⟨0x01, 2, .rws, 0, 0, 1⟩, ⟨0x02, 2, .rw, 0, 0, 3⟩, ⟨0x03, 1, .rw, 0, 0, 1⟩,
      ⟨0x04, 1, .rws, 1, 0, 1⟩]
  | 0x2200 => [⟨0x01, 4, .rw, 0, 0, 4294967295⟩, ⟨0x02, 4, .ro, 0, 0, 4294967295⟩, ⟨0x03, 4, .ro, 0, 0, 4294967295⟩]
  | 0x2400 => [⟨0x01, 4, .ro, 0, 0, 4294967295⟩, ⟨0x02, 2, .ro, 0, 0, 255⟩, ⟨0x03, 4, .ro, 0, 0, 4294967295⟩,
      ⟨0x04, 4, .ro, 0, 0, 4294967295⟩, ⟨0x05, 4, .ro, 0, 0, 4294967295⟩, ⟨0x06, 4, .ro, 0, 0, 4294967295⟩,
      ⟨0x07, 4, .ro, 0, 0, 4294967295⟩, ⟨0x08, 4, .ro, 0, 0, 4294967295⟩, ⟨0x09, 5, .ro, 0, 0, 18446744073709551615⟩]
  | 0x2500 => [⟨0x01, 2, .ro, 0, 0, 255⟩, ⟨0x02, 2, .ro, 0, 0, 255⟩, ⟨0x03, 3, .ro, 0, 0, 65535⟩,
      ⟨0x04, 2, .ro, 0, 0, 255⟩, ⟨0x05, 2, .rws, 5, 3, 5⟩, ⟨0x06, 4, .ro, 0, 0, 4294967295⟩,
      ⟨0x07, 4, .ro, 0, 0, 4294967295⟩, ⟨0x08, 4, .ro, 0, 0, 4294967295⟩, ⟨0x09, 4, .ro, 0, 0, 4294967295⟩]
  | 0x2600 => [⟨0x01, 1, .rws, 1, 0, 1⟩, ⟨0x02, 5, .rws, 0, 0, 281474976710655⟩, ⟨0x03, 3, .rws, 34997, 1536, 65535⟩,
      ⟨0x04, 1, .rws, 1, 0, 1⟩, ⟨0x05, 2, .rws, 1, 0, 254⟩, ⟨0x06, 2, .rws, 8, 1, 255⟩,
      ⟨0x07, 2, .rws, 32, 0, 255⟩, ⟨0x08, 2, .rws, 0, 0, 255⟩, ⟨0x09, 3, .rw, 0, 0, 65535⟩,
      ⟨0x0A, 10, .ro, 0, 0, 0⟩, ⟨0x0B, 4, .ro, 0, 0, 4294967295⟩, ⟨0x0C, 4, .ro, 0, 0, 4294967295⟩]
  | 0x2601 => [⟨0x01, 1, .rws, 0, 0, 1⟩, ⟨0x02, 2, .rws, 2, 0, 2⟩, ⟨0x03, 4, .rws, 500000, 125000, 1000000⟩,
      ⟨0x04, 4, .rws, 2000000, 0, 8000000⟩, ⟨0x05, 3, .rws, 0, 0, 2046⟩, ⟨0x06, 3, .rw, 2047, 0, 2047⟩,
      ⟨0x07, 3, .rw, 0, 0, 2047⟩, ⟨0x08, 10, .ro, 0, 0, 0⟩, ⟨0x09, 2, .ro, 0, 0, 255⟩,
      ⟨0x0A, 4, .ro, 0, 0, 4294967295⟩]
  | 0x2700 => [⟨0x01, 2, .rw, 0, 0, 255⟩, ⟨0x02, 2, .rw, 33, 0, 63⟩, ⟨0x03, 2, .rw, 0, 0, 63⟩,
      ⟨0x04, 4, .rw, 0, 0, 4294967295⟩, ⟨0x05, 2, .rw, 0, 0, 3⟩, ⟨0x06, 4, .rw, 0, 0, 524287⟩,
      ⟨0x07, 2, .ro, 0, 0, 255⟩]
  | 0x2780 => [⟨0x01, 2, .ro, 0, 0, 255⟩]
  | 0x3000 => [⟨0x01, 2, .rw, 1, 0, 2⟩, ⟨0x02, 3, .rw, 256, 16, 2048⟩, ⟨0x03, 2, .rw, 50, 10, 90⟩,
      ⟨0x04, 1, .rw, 1, 0, 1⟩, ⟨0x05, 1, .rw, 1, 0, 1⟩, ⟨0x06, 2, .ro, 0, 0, 255⟩,
      ⟨0x07, 5, .ro, 0, 0, 18446744073709551615⟩, ⟨0x08, 4, .ro, 0, 0, 4294967295⟩, ⟨0x09, 4, .ro, 0, 0, 4294967295⟩,
      ⟨0x0A, 2, .ro, 0, 0, 255⟩]
  | 0x3001 => [⟨0x01, 3, .rw, 0, 0, 65535⟩, ⟨0x02, 4, .rw, 0, 0, 16777215⟩, ⟨0x03, 2, .rw, 0, 0, 255⟩,
      ⟨0x04, 2, .rw, 0, 0, 127⟩, ⟨0x05, 1, .rw, 0, 0, 1⟩, ⟨0x06, 5, .ro, 0, 0, 18446744073709551615⟩]
  | 0x3002 => [⟨0x01, 3, .rw, 400, 100, 10000⟩, ⟨0x02, 2, .rw, 95, 50, 99⟩, ⟨0x03, 2, .rw, 90, 10, 100⟩,
      ⟨0x04, 3, .rw, 20, 1, 10000⟩]
  | 0x3100 => [⟨0x01, 2, .ro, 0, 0, 255⟩, ⟨0x02, 2, .ro, 0, 0, 255⟩, ⟨0x03, 2, .ro, 100, 0, 255⟩,
      ⟨0x04, 2, .ro, 0, 0, 255⟩]
  | 0x3120 => [⟨0x01, 2, .ro, 0, 0, 255⟩, ⟨0x02, 4, .ro, 0, 0, 4294967295⟩, ⟨0x03, 3, .ro, 0, 0, 65535⟩,
      ⟨0x04, 4, .ro, 0, 0, 4294967295⟩]
  | 0x3130 => [⟨0x01, 3, .ro, 0, 0, 65535⟩, ⟨0x02, 3, .ro, 0, 0, 65535⟩]
  | 0x3200 => [⟨0x01, 4, .rw, 0, 0, 131071⟩, ⟨0x02, 5, .ro, 0, 0, 18446744073709551615⟩, ⟨0x03, 4, .ro, 0, 0, 4294967295⟩,
      ⟨0x04, 4, .ro, 0, 0, 4294967295⟩]
  | 0x3400 => [⟨0x01, 3, .rw, 0, 0, 65535⟩, ⟨0x02, 1, .rw, 0, 0, 1⟩, ⟨0x03, 3, .rw, 1536, 0, 65535⟩,
      ⟨0x04, 3, .rw, 512, 0, 65535⟩, ⟨0x05, 2, .rw, 100, 1, 100⟩, ⟨0x06, 1, .rw, 0, 0, 1⟩,
      ⟨0x07, 4, .ro, 0, 0, 4294967295⟩]
  | 0x4000 => [⟨0x01, 2, .ro, 0, 0, 255⟩, ⟨0x02, 2, .wo, 0, 1, 6⟩, ⟨0x03, 2, .rw, 3, 1, 3⟩,
      ⟨0x04, 2, .rw, 100, 1, 100⟩, ⟨0x05, 2, .ro, 0, 0, 255⟩, ⟨0x06, 2, .ro, 0, 0, 255⟩,
      ⟨0x07, 4, .ro, 0, 0, 4294967295⟩, ⟨0x08, 4, .ro, 0, 0, 4294967295⟩, ⟨0x09, 2, .ro, 0, 0, 255⟩]
  | 0x4001 => [⟨0x01, 2, .rw, 0, 0, 1⟩, ⟨0x02, 5, .rw, 0, 0, 18446744073709551615⟩, ⟨0x03, 4, .rw, 0, 0, 4294967295⟩,
      ⟨0x04, 1, .wo, 0, 0, 1⟩, ⟨0x05, 2, .ro, 0, 0, 255⟩, ⟨0x06, 3, .ro, 0, 0, 65535⟩,
      ⟨0x07, 3, .ro, 0, 0, 65535⟩, ⟨0x08, 5, .ro, 0, 0, 18446744073709551615⟩, ⟨0x09, 3, .rw, 0, 0, 65535⟩,
      ⟨0x0A, 2, .rw, 1, 0, 2⟩, ⟨0x0B, 3, .ro, 0, 0, 65535⟩, ⟨0x0C, 4, .ro, 0, 0, 4294967295⟩]
  | 0x4002 => [⟨0x01, 1, .rw, 1, 0, 1⟩, ⟨0x02, 2, .ro, 0, 0, 255⟩, ⟨0x03, 4, .ro, 0, 0, 4294967295⟩,
      ⟨0x04, 4, .ro, 0, 0, 4294967295⟩]
  | 0x4003 => [⟨0x01, 4, .ro, 0, 0, 4294967295⟩, ⟨0x02, 3, .ro, 0, 0, 65535⟩]
  | 0x4004 => [⟨0x01, 1, .rw, 1, 0, 1⟩, ⟨0x02, 2, .rw, 24, 0, 255⟩, ⟨0x03, 2, .rw, 255, 0, 255⟩,
      ⟨0x04, 4, .ro, 0, 0, 4294967295⟩, ⟨0x05, 2, .ro, 0, 0, 255⟩, ⟨0x06, 4, .ro, 0, 0, 4294967295⟩]
  | 0x4005 => [⟨0x01, 2, .ro, 255, 0, 255⟩, ⟨0x02, 4, .ro, 0, 0, 4294967295⟩, ⟨0x03, 2, .ro, 255, 0, 255⟩,
      ⟨0x04, 3, .ro, 0, 0, 65535⟩, ⟨0x05, 3, .ro, 0, 0, 65535⟩, ⟨0x06, 3, .ro, 0, 0, 65535⟩,
      ⟨0x07, 4, .ro, 0, 0, 4294967295⟩, ⟨0x08, 4, .ro, 0, 0, 4294967295⟩, ⟨0x09, 3, .rw, 0, 0, 1023⟩,
      ⟨0x0A, 4, .ro, 4294967295, 0, 4294967295⟩]
  | 0x4006 => [⟨0x01, 2, .ro, 0, 0, 255⟩, ⟨0x02, 2, .ro, 255, 0, 255⟩, ⟨0x03, 4, .ro, 0, 0, 4294967295⟩,
      ⟨0x04, 2, .ro, 0, 0, 255⟩, ⟨0x05, 4, .ro, 0, 0, 4294967295⟩, ⟨0x06, 4, .ro, 0, 0, 4294967295⟩]
  | 0x4007 => [⟨0x01, 4, .ro, 0, 0, 4294967295⟩, ⟨0x02, 4, .ro, 0, 0, 4294967295⟩, ⟨0x03, 4, .ro, 0, 0, 4294967295⟩,
      ⟨0x04, 4, .ro, 0, 0, 4294967295⟩, ⟨0x05, 2, .rw, 0, 0, 255⟩, ⟨0x06, 4, .ro, 0, 0, 4294967295⟩]
  | 0x5000 => [⟨0x01, 2, .ro, 24, 0, 255⟩, ⟨0x02, 2, .rw, 90, 50, 100⟩, ⟨0x03, 4, .ro, 0, 0, 4294967295⟩,
      ⟨0x04, 5, .ro, 0, 0, 18446744073709551615⟩, ⟨0x05, 4, .ro, 0, 0, 4294967295⟩]
  | 0x5100 => [⟨0x01, 2, .ro, 0, 0, 255⟩, ⟨0x02, 2, .ro, 0, 0, 255⟩, ⟨0x03, 2, .ro, 0, 0, 255⟩,
      ⟨0x04, 5, .ro, 0, 0, 18446744073709551615⟩, ⟨0x05, 4, .ro, 0, 0, 4294967295⟩]
  | 0x5400 => [⟨0x01, 4, .ro, 31, 0, 4294967295⟩, ⟨0x02, 4, .ro, 31, 0, 4294967295⟩]
  | 0x6000 => [⟨0x01, 2, .ro, 0, 0, 255⟩]
  | 0x6100 => [⟨0x01, 2, .rws, 0, 0, 31⟩, ⟨0x02, 2, .rws, 0, 0, 4⟩, ⟨0x03, 4, .rw, 0, 0, 2047⟩,
      ⟨0x04, 4, .rw, 0, 0, 2047⟩, ⟨0x05, 3, .rw, 0, 0, 65535⟩, ⟨0x06, 2, .rw, 0, 0, 255⟩,
      ⟨0x07, 2, .rw, 255, 0, 255⟩, ⟨0x08, 2, .ro, 0, 0, 255⟩, ⟨0x09, 3, .ro, 0, 0, 65535⟩,
      ⟨0x0A, 2, .ro, 0, 0, 255⟩, ⟨0x0B, 1, .rw, 1, 0, 1⟩, ⟨0x0C, 1, .rw, 0, 0, 1⟩,
      ⟨0x0D, 2, .ro, 0, 0, 255⟩, ⟨0x0E, 4, .ro, 0, 0, 4294967295⟩, ⟨0x0F, 4, .ro, 0, 0, 4294967295⟩]
  | 0x6210 => [⟨0x01, 6, .ro, 0, 0, 65535⟩, ⟨0x02, 6, .ro, 0, 0, 65535⟩, ⟨0x03, 2, .ro, 100, 0, 255⟩]
  | 0x6220 => [⟨0x01, 3, .ro, 0, 0, 65535⟩, ⟨0x02, 3, .ro, 0, 0, 65535⟩, ⟨0x03, 3, .ro, 0, 0, 65535⟩,
      ⟨0x04, 3, .ro, 0, 0, 65535⟩]
  | 0x6240 => [⟨0x01, 3, .ro, 0, 0, 65535⟩, ⟨0x02, 2, .rw, 0, 0, 1⟩, ⟨0x03, 2, .rw, 0, 0, 200⟩,
      ⟨0x04, 3, .rw, 0, 0, 65535⟩, ⟨0x05, 3, .rw, 4095, 0, 65535⟩, ⟨0x06, 3, .rw, 16, 0, 65535⟩,
      ⟨0x07, 2, .ro, 1, 0, 255⟩]
  | 0x7000 => [⟨0x01, 2, .ro, 0, 0, 255⟩, ⟨0x02, 3, .rws, 0, 0, 65535⟩, ⟨0x03, 2, .ro, 0, 0, 255⟩,
      ⟨0x04, 2, .ro, 255, 0, 255⟩, ⟨0x05, 2, .rw, 128, 0, 255⟩, ⟨0x06, 1, .wo, 0, 0, 1⟩,
      ⟨0x07, 1, .ro, 0, 0, 1⟩, ⟨0x08, 7, .ro, 0, 0, 4294967295⟩, ⟨0x09, 2, .ro, 0, 0, 255⟩,
      ⟨0x0A, 4, .ro, 0, 0, 4294967295⟩, ⟨0x0B, 2, .rw, 16, 1, 255⟩, ⟨0x0C, 4, .ro, 0, 0, 4294967295⟩]
  | 0x7100 => [⟨0x01, 1, .rws, 1, 0, 1⟩, ⟨0x02, 2, .ro, 0, 0, 255⟩, ⟨0x03, 2, .ro, 0, 0, 255⟩,
      ⟨0x04, 2, .ro, 255, 0, 255⟩, ⟨0x05, 2, .ro, 0, 0, 255⟩, ⟨0x06, 2, .rws, 3, 1, 3⟩,
      ⟨0x07, 1, .wo, 0, 0, 1⟩, ⟨0x08, 2, .ro, 0, 0, 255⟩, ⟨0x09, 3, .ro, 0, 0, 65535⟩,
      ⟨0x0A, 4, .ro, 0, 0, 4294967295⟩, ⟨0x0B, 4, .ro, 0, 0, 4294967295⟩, ⟨0x0C, 5, .ro, 0, 0, 18446744073709551615⟩,
      ⟨0x0D, 4, .ro, 0, 0, 4294967295⟩, ⟨0x0E, 4, .ro, 0, 0, 4294967295⟩]
  | 0x8000 => [⟨0x01, 2, .ro, 0, 0, 255⟩, ⟨0x02, 2, .rw, 5, 0, 255⟩, ⟨0x03, 2, .ro, 0, 0, 255⟩,
      ⟨0x04, 2, .ro, 0, 0, 255⟩, ⟨0x05, 2, .ro, 0, 0, 255⟩, ⟨0x06, 2, .ro, 0, 0, 255⟩,
      ⟨0x07, 3, .ro, 0, 0, 65535⟩, ⟨0x08, 4, .ro, 0, 0, 4294967295⟩, ⟨0x09, 2, .ro, 0, 0, 255⟩,
      ⟨0x0A, 4, .rw, 0, 0, 4294967295⟩, ⟨0x0B, 4, .rw, 1000, 0, 60000⟩, ⟨0x0C, 1, .rw, 0, 0, 1⟩,
      ⟨0x0D, 10, .ro, 0, 0, 0⟩, ⟨0x0E, 2, .rw, 0, 0, 3⟩, ⟨0x0F, 2, .rw, 1, 0, 31⟩,
      ⟨0x10, 8, .rw, 0, 0, 18446744073709551615⟩, ⟨0x11, 2, .rw, 5, 5, 6⟩, ⟨0x12, 2, .wo, 0, 165, 165⟩,
      ⟨0x13, 6, .rw, 760, 0, 65535⟩, ⟨0x14, 6, .rw, 800, 480, 840⟩]
  | 0x8100 => [⟨0x01, 1, .rw, 1, 0, 1⟩, ⟨0x02, 2, .ro, 0, 0, 255⟩, ⟨0x03, 4, .ro, 0, 0, 4294967295⟩]
  | 0x9000 => [⟨0x01, 2, .ro, 0, 0, 255⟩, ⟨0x02, 2, .rw, 0, 0, 2⟩, ⟨0x03, 10, .ro, 0, 0, 0⟩,
      ⟨0x04, 10, .wo, 0, 0, 0⟩, ⟨0x05, 2, .wo, 0, 0, 2⟩, ⟨0x06, 2, .rwk, 0, 1, 3⟩,
      ⟨0x07, 2, .rwk, 0, 0, 7⟩, ⟨0x08, 2, .ro, 0, 0, 255⟩, ⟨0x09, 2, .ro, 0, 0, 255⟩]
  | 0x9001 => [⟨0x01, 2, .rw, 0, 0, 6⟩, ⟨0x02, 4, .rw, 0, 0, 4294967295⟩, ⟨0x03, 2, .rw, 1, 1, 128⟩,
      ⟨0x04, 10, .rwk, 0, 0, 0⟩]
  | 0x9002 => [⟨0x01, 5, .rwk, 0, 0, 18446744073709551615⟩, ⟨0x02, 5, .rwk, 0, 0, 18446744073709551615⟩, ⟨0x03, 5, .rwk, 0, 0, 18446744073709551615⟩,
      ⟨0x04, 5, .rwk, 0, 0, 18446744073709551615⟩, ⟨0x05, 5, .rwk, 0, 0, 18446744073709551615⟩, ⟨0x06, 5, .rwk, 0, 0, 18446744073709551615⟩,
      ⟨0x07, 5, .rwk, 0, 0, 18446744073709551615⟩, ⟨0x08, 5, .rwk, 0, 0, 18446744073709551615⟩]
  | 0x9003 => [⟨0x01, 10, .ro, 0, 0, 0⟩, ⟨0x02, 10, .rwk, 0, 0, 0⟩]
  | 0x9800 => [⟨0x01, 1, .ro, 0, 0, 1⟩, ⟨0x02, 4, .ro, 0, 0, 4294967295⟩, ⟨0x03, 3, .ro, 0, 0, 65535⟩,
      ⟨0x04, 2, .ro, 0, 0, 255⟩]
  | 0xA000 => [⟨0x01, 5, .ro, 0, 0, 18446744073709551615⟩, ⟨0x02, 5, .ro, 0, 0, 18446744073709551615⟩, ⟨0x03, 5, .rw, 0, 0, 18446744073709551615⟩,
      ⟨0x04, 10, .ro, 0, 0, 0⟩, ⟨0x05, 10, .ro, 0, 0, 0⟩]
  | 0xB000 => [⟨0x01, 1, .rw, 0, 0, 1⟩, ⟨0x02, 2, .rw, 17, 0, 255⟩, ⟨0x03, 3, .rw, 2200, 0, 8192⟩,
      ⟨0x04, 3, .rw, 1920, 640, 4096⟩, ⟨0x05, 3, .rw, 1125, 0, 4096⟩, ⟨0x06, 3, .rw, 1080, 480, 2160⟩,
      ⟨0x07, 4, .rw, 5769224, 0, 4294967295⟩, ⟨0x08, 4, .rw, 328760, 0, 4294967295⟩, ⟨0x09, 4, .rw, 0, 0, 4294967295⟩,
      ⟨0x0A, 4, .rw, 0, 0, 16777215⟩, ⟨0x0B, 2, .rw, 6, 1, 6⟩, ⟨0x0C, 2, .rw, 4, 0, 255⟩,
      ⟨0x0D, 2, .ro, 0, 0, 255⟩, ⟨0x0E, 2, .ro, 0, 0, 255⟩, ⟨0x0F, 2, .ro, 0, 0, 255⟩,
      ⟨0x10, 4, .ro, 0, 0, 4294967295⟩, ⟨0x11, 5, .ro, 0, 0, 18446744073709551615⟩, ⟨0x12, 4, .ro, 0, 0, 4294967295⟩,
      ⟨0x13, 4, .ro, 0, 0, 4294967295⟩]
  | 0xB100 => [⟨0x01, 4, .rw, 0, 0, 2047⟩, ⟨0x02, 5, .rw, 0, 0, 18446744073709551615⟩, ⟨0x03, 4, .rw, 0, 0, 4294967295⟩,
      ⟨0x04, 2, .rw, 17, 0, 255⟩, ⟨0x05, 2, .ro, 0, 0, 255⟩, ⟨0x06, 4, .ro, 0, 0, 4294967295⟩]
  | 0xB180 => [⟨0x01, 2, .rw, 0, 0, 3⟩, ⟨0x02, 4, .rw, 0, 0, 4294967295⟩, ⟨0x03, 4, .rw, 0, 0, 4294967295⟩,
      ⟨0x04, 2, .rw, 255, 0, 255⟩, ⟨0x05, 4, .ro, 0, 0, 4294967295⟩, ⟨0x06, 4, .ro, 0, 0, 4294967295⟩]
  | 0xC000 => [⟨0x01, 2, .ro, 0, 0, 255⟩, ⟨0x02, 2, .ro, 0, 0, 255⟩, ⟨0x03, 4, .ro, 0, 0, 4294967295⟩,
      ⟨0x04, 1, .rw, 0, 0, 1⟩, ⟨0x05, 2, .rw, 24, 0, 168⟩, ⟨0x06, 3, .rw, 1000, 1, 65535⟩,
      ⟨0x07, 3, .ro, 0, 0, 65535⟩, ⟨0x08, 5, .ro, 0, 0, 18446744073709551615⟩, ⟨0x09, 4, .ro, 0, 0, 4294967295⟩,
      ⟨0x0A, 5, .ro, 0, 0, 18446744073709551615⟩, ⟨0x0B, 4, .ro, 0, 0, 4294967295⟩]
  | 0xC100 => [⟨0x01, 2, .ro, 0, 0, 255⟩, ⟨0x02, 4, .ro, 0, 0, 4294967295⟩, ⟨0x03, 5, .ro, 0, 0, 18446744073709551615⟩,
      ⟨0x04, 4, .ro, 0, 0, 4294967295⟩, ⟨0x05, 5, .ro, 0, 0, 18446744073709551615⟩, ⟨0x06, 1, .ro, 0, 0, 1⟩,
      ⟨0x07, 2, .ro, 0, 0, 255⟩]
  | 0xC200 => [⟨0x01, 2, .rw, 4, 0, 7⟩]
  | _ => []

/-- Family and unit of a family of `n` indexes in a row. -/
def famRow (idx base n : Nat) : Option (Nat × Nat) := if base ≤ idx ∧ idx < base + n then some (base, idx - base) else none

/-- Indexes that stand alone. -/
def soloIndexes : List Nat :=
  [0x1000, 0x1001, 0x1002, 0x1003, 0x1004, 0x1005, 0x1006, 0x1007, 0x1008, 0x1009, 0x100A, 0x2000, 0x2100, 0x2101, 0x2400,
   0x2500, 0x2600, 0x3000, 0x3001, 0x3002, 0x3130, 0x3200, 0x5000, 0x6000, 0x7000, 0x8000, 0x9800, 0xA000, 0xC000]

/-- Families of consecutive indexes, with the number of their units. -/
def famRows : List (Nat × Nat) :=
  [(0x2200, 153), (0x2601, 2), (0x2700, 128), (0x2780, 8), (0x3100, 16), (0x3120, 8), (0x3400, 32), (0x5100, 24), (0x5400, 128),
   (0x6100, 4), (0x6210, 16), (0x6220, 16), (0x6240, 4), (0x7100, 7), (0x8100, 63), (0xB000, 4), (0xB100, 64), (0xB180, 8),
   (0xC100, 8), (0xC200, 128)]

/-- Family and unit of an index (R438); the objects of cells lie 16 indexes apart. -/
def objFam (idx : Nat) : Option (Nat × Nat) :=
  if soloIndexes.contains idx then some (idx, 0)
  else if 0x4000 ≤ idx ∧ idx < 0x4800 then (if idx % 16 < 8 then some (0x4000 + idx % 16, (idx - 0x4000) / 16) else none)
  else if 0x9000 ≤ idx ∧ idx < 0x9800 then (if idx % 16 < 4 then some (0x9000 + idx % 16, (idx - 0x9000) / 16) else none)
  else famRows.findSome? fun f => famRow idx f.1 f.2

/-- The cell that an object belongs to, if it is a cell's (R388). -/
def objCell (base unit : Nat) : Option CellNo :=
  if (0x4000 ≤ base ∧ base < 0x4008) ∨ base = 0x5400 ∨ (0x9000 ≤ base ∧ base < 0x9004) ∨ base = 0xC200 then some (Fin.ofNat 128 unit)
  else none

/-- The unit of a family is present on this part (R2, R511). -/
def State.unitPresent (s : State) (base unit : Nat) : Bool :=
  match objCell base unit with
  | some c => s.present c
  | none =>
    if base = 0x5100 then decide (unit < Config.combCount s.part)
    else if base = 0x8100 then s.domPresent unit
    else true

/-- Highest subindex of a table. -/
def topSub (l : List ObjRow) : Nat := l.foldl (fun m r => max m r.sub) 0

/-- Subindex 00h of every index that is present (R432). -/
def subZero : ObjRow := ⟨0, 2, .ro, 0, 0, 255⟩

/-- The object at `idx`.`sub`: its family, unit and row, if it is present. PD_EN of PD00 is read-only (R511). -/
def State.object (s : State) (idx sub : Nat) : Option (Nat × Nat × ObjRow) :=
  match objFam idx with
  | none => none
  | some (base, unit) =>
    if !s.unitPresent base unit then none
    else if sub = 0 then some (base, unit, subZero)
    else
      match (objFamily base).find? (fun r => r.sub == sub) with
      | none => none
      | some r => some (base, unit, if base = 0x8100 ∧ unit = 0 then { r with acc := .ro } else r)

/-- Bytes of a value of a type of fixed size (R432). -/
def tySize (ty : Nat) : Nat :=
  if ty = 1 ∨ ty = 2 then 1 else if ty = 3 ∨ ty = 6 then 2 else if ty = 4 ∨ ty = 7 then 4 else if ty = 5 ∨ ty = 8 then 8 else 0

/-- The table of an index, for subindex 00h. -/
def objTop (base : Nat) : Nat := topSub (objFamily base)

end Sys2Proof.Machine
end

