-- ==== Sys2Proof/Machine/DictVal.lean ====
section
/-! DEFINITION. The values that reads of the dictionary's objects return (the object tables of the chapters, R432, R450 to
R456). -/

namespace Sys2Proof.Machine

/-- The stored value of the object `idx`.`sub`. -/
def State.stored (s : State) (idx sub d : Nat) : Nat := s.objOr idx sub d

/-! ## Capabilities and service (R450, R451, R456) -/

/-- Header of the capability at `idx`: CAP_ID, VERSION 1, NEXT. -/
def capHeader (idx : Nat) : Nat := (idx - 0x1000 + 1) + 65536 + (if idx < 0x100A then idx + 1 else 0) * 2 ^ 32

/-- Numbers of the capability list. -/
def State.capValue (s : State) (idx sub : Nat) : Nat :=
  let f (g : FuseData → Nat) : Nat := match s.pwr.fuses with | some u => g u | none => 0
  if sub = 1 then capHeader idx
  else
    match idx, sub with
    | 0x1000, 3 => f (·.rev.toNat)
    | 0x1000, 4 => f (·.serial.toNat)
    | 0x1000, 5 => Config.cellCount s.part
    | 0x1000, 6 => Config.combCount s.part
    | 0x1001, 2 => 8
    | 0x1001, 3 => s.memu.density.toNat
    | 0x1001, 4 => s.dataPages
    | 0x1002, 2 => Config.cellCount s.part
    | 0x1003, 2 => 0x7F
    | 0x1004, 2 => 0x0F
    | 0x1004, 3 => 6
    | 0x1005, 2 => 0x0F
    | 0x1006, 2 => 7
    | 0x1007, 2 => b2n s.killed
    | 0x1008, 2 => 32
    | 0x1008, 3 => 16
    | 0x1009, 2 => 8192
    | 0x1009, 3 => 32
    | 0x100A, 2 => 32
    | _, _ => 0

/-- Printable name of the part (R451). -/
def partName : Part → List Byte
  | .ak6440fc => [0x41, 0x4B, 0x2D, 0x36, 0x34, 0x34, 0x30, 0x2D, 0x46, 0x43]
  | .ak6440sc => [0x41, 0x4B, 0x2D, 0x36, 0x34, 0x34, 0x30, 0x2D, 0x53, 0x43]
  | .ak6424fc => [0x41, 0x4B, 0x2D, 0x36, 0x34, 0x32, 0x34, 0x2D, 0x46, 0x43]
  | .ak6424sc => [0x41, 0x4B, 0x2D, 0x36, 0x34, 0x32, 0x34, 0x2D, 0x53, 0x43]

/-- HDP and CAN sessions open (R439). -/
def State.ssOpen (s : State) : Nat :=
  (s.mc.sessions.filter fun q => q.dev == s.devId && (q.transport == 3 || q.transport == 4 || q.transport == 5)).length

/-- Field-network objects. -/
def State.fieldValue (s : State) (base unit sub d : Nat) : Nat :=
  let k := s.mc.can[unit]?.getD {}
  if base = 0x2600 then
    match sub with
    | 0x0B => s.mc.t1sLost.toNat
    | 0x0C => s.mc.t1sRxErr.toNat
    | _ => s.stored 0x2600 sub d
  else
    match sub with
    | 0x09 => k.state.toNat
    | 0x0A => k.segErr.toNat
    | _ => s.stored (base + unit) sub d

/-! ## The house beam, stores, sources, host link -/

def LockState.code : LockState → Nat
  | .free => 0 | .acquiring => 1 | .locked => 2 | .holdover => 3

/-- House beam objects (R36). -/
def State.houseValue (s : State) (sub d : Nat) : Nat :=
  match sub with
  | 3 => s.house.frameClks
  | 7 => s.house.lock.code
  | 8 => s.house.phaseErr.toNat
  | 9 => s.house.freqOfs.toNat
  | 0x0A => s.house.frame.toNat
  | 0x0B => s.house.glitch.toNat
  | _ => s.stored 0x2100 sub d

/-- Control-store objects (R145). -/
def State.storeValue (s : State) (sub : Nat) : Nat :=
  let t := s.stores
  match sub with
  | 1 => t.baseVer.toNat
  | 2 => t.extStat.toNat
  | 3 => t.extId.toNat
  | 4 => t.extVer.toNat
  | 5 => t.extOps.toNat
  | 6 => t.extIob.toNat
  | 7 => t.softErr.toNat
  | 8 => t.hardErr.toNat
  | _ => t.lastErr.toNat

/-- Host link objects (R422). -/
def State.linkValue (s : State) (sub d : Nat) : Nat :=
  let l := s.link
  match sub with
  | 1 => l.speed.toNat
  | 2 => l.width.toNat
  | 3 => l.payload.toNat
  | 4 => if l.vfEnable then Config.cellCount s.part else 0
  | 6 => l.retrains.toNat
  | 7 => l.aerCorr.toNat
  | 8 => l.cmdRewind.toNat
  | 9 => l.nqLostTotal.toNat
  | _ => s.stored 0x2500 sub d

/-! ## Cells -/

/-- A guest holds the context of cell `c`, and the session is not one of the guest's home device (R387, R388). -/
def State.hidden (s : State) (q : Session) (c : CellNo) : Bool :=
  match (s.cell c).kp.guest with
  | none => false
  | some d => !(q.transport == 6 && q.dev == d)

/-- The cell as its objects show it: a context that a guest holds reads as an EMPTY cell (R387). -/
def State.ownCell (s : State) (q : Session) (c : CellNo) : Cell :=
  let x := s.cell c
  if s.hidden q c then { prof := x.prof, img := { stat := x.img.stat } } else x

/-- CELL_PRIOR and PAUSE_PRIOR (R97, R101). -/
def Cell.priorCode (x : Cell) : Nat :=
  match x.ctl.st with
  | .paused => x.ctl.prior.code.toNat
  | .halted => x.ctl.prior.code.toNat
  | .migrating => x.ctl.prior.code.toNat
  | .empty => 0 | .loaded => 0 | .running => 0 | .sleep => 0 | .faulted => 0
def Cell.pausePriorCode (x : Cell) : Nat :=
  match x.ctl.st with
  | .paused => x.ctl.prior.code.toNat
  | .halted => if x.ctl.prior == .paused then x.ctl.pausePrior.code.toNat else 0
  | .migrating => if x.ctl.prior == .paused then x.ctl.pausePrior.code.toNat else 0
  | .empty => 0 | .loaded => 0 | .running => 0 | .sleep => 0 | .faulted => 0

/-- Pages of a cell whose table entries satisfy `p`. -/
def State.cellPages (s : State) (x : Cell) (p : Long → Bool) : Nat := (x.kp.pmap.filter fun i => p (s.pte i)).length

/-- Objects of cell control (R101). -/
def State.ctlValue (s : State) (q : Session) (c : CellNo) (sub d : Nat) : Nat :=
  let x := s.ownCell q c
  match sub with
  | 1 => x.ctl.st.code.toNat
  | 3 => x.prof.toNat
  | 5 => x.priorCode
  | 6 => x.ctl.faultCause.toNat
  | 7 => x.ctl.paceOvrTotal.toNat
  | 8 => x.ctl.cellResets.toNat
  | 9 => x.pausePriorCode
  | _ => s.stored (0x4000 + 16 * c.val) sub d

/-- Objects of the image and the cell space (R179). -/
def State.memValue (s : State) (q : Session) (c : CellNo) (sub d : Nat) : Nat :=
  let x := s.ownCell q c
  match sub with
  | 5 => x.img.stat.toNat
  | 6 => x.map.pages
  | 7 => x.map.ropages
  | 8 => x.img.title.toNat
  | 0x0B => s.cellPages x fun e => pteCat e && decide (2 ≤ pteShare e)
  | 0x0C => x.map.faults.toNat
  | _ => s.stored (0x4001 + 16 * c.val) sub d

/-- Objects of output, line slots, audio (R251, R268, R350). -/
def State.outValue (s : State) (q : Session) (c : CellNo) (sub d : Nat) : Nat :=
  let x := s.ownCell q c
  match sub with
  | 2 => x.vid.heads.toNat
  | 3 => x.vid.lbufLines.toNat
  | 4 => x.vid.wbFrames.toNat
  | _ => s.stored (0x4002 + 16 * c.val) sub d
def State.slotValue (s : State) (q : Session) (c : CellNo) (sub : Nat) : Nat :=
  let x := s.ownCell q c
  if sub = 1 then x.vid.missLines.toNat else min 65535 (x.vid.peaks.foldl max 0)
def State.audioValue (s : State) (q : Session) (c : CellNo) (sub d : Nat) : Nat :=
  let x := s.ownCell q c
  match sub with
  | 4 => if x.beam.on then x.snd.rate else 0
  | 5 => x.snd.bridge.toNat
  | 6 => x.snd.relocks.toNat
  | _ => s.stored (0x4004 + 16 * c.val) sub d

/-- The keeper's objects of a cell (R371). -/
def State.cellKpValue (s : State) (q : Session) (c : CellNo) (sub : Nat) : Nat :=
  let x := s.ownCell q c
  match sub with
  | 1 => (match x.kp.core with | some k => k.val | none => 255)
  | 2 => x.beam.stagger
  | 3 => (match x.kp.away with | some d => d.toNat | none => if x.ctl.st.started then s.devId.toNat else 255)
  | 4 => s.cellPages x fun e => pteLoc e == 1
  | 5 => s.cellPages x fun e => pteLoc e == 2
  | 6 => s.cellPages x fun e => pteLoc e == 0
  | 7 => x.kp.coreMoves.toNat
  | 8 => x.kp.pageMoves.toNat
  | 9 => q.pmapIdx.toNat
  | _ => x.kp.pmap.getD q.pmapIdx.toNat 0xFFFFFFFF

/-- Migration objects of a cell (R396). -/
def State.migValue (s : State) (q : Session) (c : CellNo) (sub : Nat) : Nat :=
  let k := (s.ownCell q c).kp
  match sub with
  | 1 => k.migState.toNat
  | 2 => k.migTarget.toNat
  | 3 => k.migDirty.toNat
  | 4 => k.migDefers.toNat
  | 5 => k.migLastStop.toNat
  | _ => k.migCount.toNat

/-- Host-queue objects of a cell (R422). -/
def State.hostValue (s : State) (q : Session) (c : CellNo) (sub d : Nat) : Nat :=
  let h := (s.ownCell q c).host
  match sub with
  | 1 => h.sliceDrop.toNat
  | 2 => h.sliceBig.toNat
  | 3 => h.audDrop.toNat
  | 4 => h.inRewind.toNat
  | 6 => h.qTails.toNat
  | _ => s.stored (0x4007 + 16 * c.val) sub d

/-! ## Combs, ports, keeper -/

/-- Combs and the slot table (R268). -/
def State.combValue (s : State) (base unit sub d : Nat) : Nat :=
  let k : Fin 24 := Fin.ofNat 24 unit
  let b := s.combs.get k
  match base, sub with
  | 0x5000, 1 => Config.combCount s.part
  | 0x5000, 3 => s.slots.swaps.toNat
  | 0x5000, 4 => s.slots.swapFrame.toNat
  | 0x5000, 5 => s.slots.overload.toNat
  | 0x5000, _ => s.stored 0x5000 sub d
  | 0x5100, 1 => (s.unitState kComb k.val).toNat
  | 0x5100, 2 => min 255 ((s.combLoad s.slots.live k + 9999) / 10000)
  | 0x5100, 3 => b.busyPct.toNat
  | 0x5100, 4 => b.slots.toNat
  | 0x5100, _ => b.misses.toNat
  | _, 1 => (s.slots.live[unit]?.getD 0x1F).toNat
  | _, _ => (s.slots.shadow[unit]?.getD 0x1F).toNat

/-- Headset ports (R349). -/
def State.portValue (s : State) (unit sub d : Nat) : Nat :=
  let p := s.ports[unit]?.getD {}
  match sub with
  | 8 => p.jack.toNat + 4 * p.kind.toNat
  | 9 => p.micCode.toNat
  | 0x0A => p.btn.toNat
  | 0x0D => p.bridge.toNat
  | 0x0E => p.relocks.toNat
  | 0x0F => p.clip.toNat
  | _ => s.stored (0x6100 + unit) sub d

/-- Forced moves are outstanding: one is in progress, or a fenced unit is not empty. -/
def State.forcedDue (s : State) : Bool :=
  s.keeper.moves.any (·.forced) || fenceUnits.any fun q => s.fenced q.1 q.2 && !s.keeper.fenceDone.getLsbD (fenceBit q.1 q.2)

/-- Objects of the keeper (R370). -/
def State.keeperValue (s : State) (sub d : Nat) : Nat :=
  let k := s.keeper
  match sub with
  | 6 => if s.pwr.mode == .serve || s.pwr.mode == .limited then (if s.forcedDue then 2 else 1) else 0
  | 7 => k.pageMoves.toNat
  | 8 => k.coreMoves.toNat
  | 9 => k.migrations.toNat
  | 0x0A => k.moveUse.toNat
  | _ => s.stored 0x3000 sub d

/-- Pages in use whose entry satisfies `p`. -/
def State.ptCount (s : State) (p : Long → Bool) : Nat := (s.keeper.pt.filter fun e => pteState e.2 != 0 && p e.2).length

/-- Unit objects of the keeper (R370). -/
def State.unitValue (s : State) (q : Session) (base unit sub d : Nat) : Nat :=
  match base, sub with
  | 0x3100, 1 => (s.unitState kCluster unit).toNat
  | 0x3100, 2 => (allCells.filter fun c => match (s.cell c).kp.core with | some k => k.val / 8 == unit | none => false).length
  | 0x3100, 3 => (s.keeper.clRate[unit]?.getD 100).toNat
  | 0x3100, _ => s.ptCount fun e => pteLoc e == 2 && pteOslot e / 32 == unit
  | 0x3120, 1 => (s.unitState kChannel unit).toNat
  | 0x3120, 2 => s.ptCount fun e => pteLoc e == 0 && pteChan e == unit
  | 0x3120, 3 => (s.keeper.chLat[unit]?.getD 0).toNat
  | 0x3120, _ => ((s.keeper.pt.filter fun e => pteState e.2 != 0 && pteLoc e.2 == 0 && pteChan e.2 == unit).map fun e => pteHeat e.2).sum
  | 0x3130, 1 => s.ptCount fun e => pteLoc e == 1
  | 0x3130, _ => s.keeper.hostWait.toNat
  | 0x3200, 1 => q.ptIndex.toNat
  | 0x3200, 2 => (s.pte q.ptIndex.toNat).toNat
  | 0x3200, 3 => s.ptUsed
  | 0x3200, _ => s.ptCount fun e => decide (2 ≤ pteShare e)
  | 0x3400, 7 => (s.keeper.unmet[unit]?.getD 0).toNat
  | 0x3001, 6 => s.keeper.fenceDone.toNat
  | _, _ => s.stored (base + unit) sub d

/-! ## Swarm, heads -/

/-- Swarm objects (R395). -/
def State.swarmValue (s : State) (sub d : Nat) : Nat :=
  let w := s.swarm
  match sub with
  | 1 => s.devId.toNat
  | 3 => s.members.toNat
  | 4 => w.master.toNat
  | 7 => b2n w.coherent
  | 8 => w.timeErr.toNat
  | 9 => (allCells.filter fun c => (s.cell c).kp.guest.isSome && (s.cell c).kp.guestOn).length
  | 0x0A => w.fwdLost.toNat
  | 0x0C => w.migAbandons.toNat
  | _ => s.stored 0x7000 sub d
def State.lkValue (s : State) (unit sub d : Nat) : Nat :=
  let k := s.swarmLink (Fin.ofNat 7 unit)
  match sub with
  | 2 => k.state.toNat
  | 3 => (s.unitState kLink unit).toNat
  | 4 => k.peer.toNat
  | 5 => k.rate.toNat
  | 8 => k.payload.toNat
  | 9 => k.delay.toNat
  | 0x0A => k.retries.toNat
  | 0x0B => k.crcErr.toNat
  | 0x0C => k.fecCorr.toNat
  | 0x0D => k.retrains.toNat
  | 0x0E => k.relayed.toNat
  | _ => s.stored (0x7100 + unit) sub d

/-- Head, window and overlay objects (R251, R430). -/
def State.headValue (s : State) (base unit sub d : Nat) : Nat :=
  if base = 0xB000 then
    let k := s.heads[unit]?.getD {}
    match sub with
    | 0x0D => k.link.toNat
    | 0x0E => k.rate.toNat
    | 0x0F => k.lanes.toNat
    | 0x10 => if s.hd unit 1 0 != 0 then s.headPclk unit else 0
    | 0x11 => k.frame.toNat
    | 0x12 => k.underrun.toNat
    | 0x13 => k.retrains.toNat
    | _ => s.stored (0xB000 + unit) sub d
  else if base = 0xB100 then
    let w := (s.heads[unit / 16]?.getD {}).wins[unit % 16]?.getD {}
    match sub with
    | 5 => w.st.toNat
    | 6 => w.late.toNat
    | _ => s.stored (0xB100 + unit) sub d
  else
    let y := (s.heads[unit / 2]?.getD {}).layers[unit % 2]?.getD {}
    match sub with
    | 5 => y.flips.toNat
    | 6 => y.pkErr.toNat
    | _ => s.stored (0xB180 + unit) sub d

/-! ## Power, memory, pins, debug, journal -/

/-- Power objects (R510). -/
def State.powerValue (s : State) (sub d : Nat) : Nat :=
  let p := s.pwr
  match sub with
  | 1 => p.mode.code.toNat
  | 2 => p.req.toNat
  | 3 => p.rstCause.toNat
  | 4 => p.bootSrc.toNat
  | 5 => p.bootImage.toNat
  | 6 => p.spiMode.toNat
  | 7 => p.defSkip.toNat
  | 8 => p.loadUs.toNat
  | 9 => p.fhCause.toNat
  | 0x0A => p.fhAuto.toNat
  | _ => s.stored 0x8000 sub d

/-- Domains and measurements (R511, R512). -/
def State.measValue (s : State) (base unit sub d : Nat) : Nat :=
  let t := s.conv.ts[unit]?.getD {}
  let v := s.conv.sp[unit]?.getD {}
  let a := s.conv.ain[unit]?.getD {}
  match base, sub with
  | 0x8100, 2 => (s.dom unit).st.toNat
  | 0x8100, 3 => (s.dom unit).forced.toNat
  | 0x6210, 1 => t.temp.toNat
  | 0x6210, 2 => t.peak.toNat
  | 0x6210, _ => (s.pwr.throttle[unit]?.getD 100).toNat
  | 0x6220, 1 => v.mv.toNat
  | 0x6220, 2 => tapNom unit
  | 0x6220, 3 => v.low.toNat
  | 0x6220, _ => v.high.toNat
  | 0x6240, 1 => a.code.toNat
  | 0x6240, 7 => a.st.toNat
  | _, _ => s.stored (base + unit) sub d

/-- Memory objects (R529). -/
def State.rldValue (s : State) (base unit sub d : Nat) : Nat :=
  let m := s.memu
  let r := m.chans[unit]?.getD {}
  match base, sub with
  | 0xC000, 1 => m.density.toNat
  | 0xC000, 2 => ((List.range 8).foldl (fun (b : Byte) c => putBit b c ((m.chans[c]?.getD {}).st == 2)) 0).toNat
  | 0xC000, 3 => m.frames
  | 0xC000, 7 => s.ringSlots
  | 0xC000, 8 => m.waxCe.toNat
  | 0xC000, 9 => m.waxUe.toNat
  | 0xC000, 0x0A => m.sramCe.toNat
  | 0xC000, 0x0B => m.sramUe.toNat
  | 0xC100, 1 => r.st.toNat
  | 0xC100, 2 => r.trainUs.toNat
  | 0xC100, 3 => r.ce.toNat
  | 0xC100, 4 => r.ue.toNat
  | 0xC100, 5 => r.ueLast.toNat
  | 0xC100, 6 => b2n r.throttled
  | 0xC100, _ => r.busy.toNat
  | _, _ => s.stored (base + unit) sub d

/-- Debug objects with plain values (R480, R481). -/
def State.debugValue (s : State) (q : Session) (base unit sub : Nat) : Nat :=
  let c : CellNo := Fin.ofNat 128 unit
  let x := s.ownCell q c
  match base, sub with
  | 0x9000, 1 => (q.level c).toNat
  | 0x9000, 2 => (q.req c).toNat
  | 0x9000, 6 => s.stored (0x9000 + 16 * c.val) 6 0
  | 0x9000, 7 => x.dbg.ctl.toNat
  | 0x9000, 8 => (x.dbg.stat q.num).toNat
  | 0x9000, 9 => x.dbg.haltCause.toNat
  | 0x9001, 1 => q.sel c 0
  | 0x9001, 2 => q.sel c 1
  | 0x9001, 3 => q.sel c 2
  | 0x9002, n => (x.dbg.patches[n - 1]?.getD 0).toNat
  | 0x9800, 1 => b2n s.killed
  | 0x9800, 2 => s.dbgDev.fails.toNat
  | 0x9800, 3 => s.lockSeconds
  | 0x9800, 4 => s.holders
  | _, _ => 0

/-- The journal's counters (R454). -/
def State.jrOldest (s : State) : Nat := s.mc.jrSeq - 8192

/-- The value of an object whose type has a fixed size, without the effects of its read. -/
def State.objNum (s : State) (q : Session) (base unit sub d : Nat) : Nat :=
  let c : CellNo := Fin.ofNat 128 unit
  if sub = 0 then objTop base
  else if base < 0x2000 then s.capValue base sub
  else
    match base with
    | 0x2000 => if sub = 3 then s.ssOpen else s.stored 0x2000 sub d
    | 0x2100 => s.houseValue sub d
    | 0x2200 =>
      let r := s.sources[unit]?.getD {}
      if sub = 2 then r.events.toNat else if sub = 3 then r.lost.toNat else s.stored (0x2200 + unit) sub d
    | 0x2400 => s.storeValue sub
    | 0x2500 => s.linkValue sub d
    | 0x2600 => s.fieldValue base unit sub d
    | 0x2601 => s.fieldValue base unit sub d
    | 0x2700 => if sub = 7 then s.gpLevel (Fin.ofNat 128 unit) else s.stored (0x2700 + unit) sub d
    | 0x2780 => (s.banks[unit]?.getD 0).toNat
    | 0x3000 => s.keeperValue sub d
    | 0x3001 => s.unitValue q base unit sub d
    | 0x3100 => s.unitValue q base unit sub d
    | 0x3120 => s.unitValue q base unit sub d
    | 0x3130 => s.unitValue q base unit sub d
    | 0x3200 => s.unitValue q base unit sub d
    | 0x3400 => s.unitValue q base unit sub d
    | 0x4000 => s.ctlValue q c sub d
    | 0x4001 => s.memValue q c sub d
    | 0x4002 => s.outValue q c sub d
    | 0x4003 => s.slotValue q c sub
    | 0x4004 => s.audioValue q c sub d
    | 0x4005 => s.cellKpValue q c sub
    | 0x4006 => s.migValue q c sub
    | 0x4007 => s.hostValue q c sub d
    | 0x5000 => s.combValue base unit sub d
    | 0x5100 => s.combValue base unit sub d
    | 0x5400 => s.combValue base unit sub d
    | 0x6000 => s.audClk.toNat
    | 0x6100 => s.portValue unit sub d
    | 0x6210 => s.measValue base unit sub d
    | 0x6220 => s.measValue base unit sub d
    | 0x6240 => s.measValue base unit sub d
    | 0x7000 => s.swarmValue sub d
    | 0x7100 => s.lkValue unit sub d
    | 0x8000 => s.powerValue sub d
    | 0x8100 => s.measValue base unit sub d
    | 0x9000 => s.debugValue q base unit sub
    | 0x9001 => s.debugValue q base unit sub
    | 0x9002 => s.debugValue q base unit sub
    | 0x9800 => s.debugValue q base unit sub
    | 0xA000 => if sub = 1 then s.mc.jrSeq else if sub = 2 then s.jrOldest else q.jrCursor.toNat
    | 0xB000 => s.headValue base unit sub d
    | 0xB100 => s.headValue base unit sub d
    | 0xB180 => s.headValue base unit sub d
    | 0xC000 => s.rldValue base unit sub d
    | 0xC100 => s.rldValue base unit sub d
    | _ => s.stored (base + unit) sub d

/-! ## Journal entries (R453) -/

/-- The 32 bytes of an entry. -/
def JEntry.bytes (e : JEntry) : List Byte :=
  toBytes e.time.toNat 8 ++ [BitVec.ofNat 8 (e.transport.toNat + 16 * e.dev.toNat + 128 * b2n e.digest), e.node] ++
  toBytes e.session.toNat 2 ++ toBytes e.index.toNat 2 ++ [e.sub, e.result] ++ toBytes e.old.toNat 8 ++ toBytes e.new.toNat 8

/-- Entry `k`, which is still held. -/
def State.jrEntry (s : State) (k : Nat) : List Byte :=
  match s.mc.journal[s.mc.jrSeq - 1 - k]? with
  | some e => e.bytes
  | none => []

/-- Result of a read of JR_ENTRY or JR_BLOCK at `k`: GONE, NODATA or OK. -/
def State.jrCode (s : State) (k : Nat) : Byte :=
  if k < s.jrOldest then 0x0B else if s.mc.jrSeq ≤ k then 0x0C else 0

end Sys2Proof.Machine
end

