-- ==== Sys2Proof/Machine/DictWrite.lean ====
section
/-! DEFINITION. Writes of the dictionary's objects: what each is refused for, and what an accepted one does (R13, R14, R433 to
R437, R458, R460, R482, and the chapters of the objects). -/

namespace Sys2Proof.Machine

/-- An object that a request names. -/
structure Obj where
  base : Nat
  unit : Nat
  idx : Nat
  sub : Nat
  row : ObjRow
  deriving DecidableEq, Repr

/-- Cell of a cell's object. -/
def Obj.cell (o : Obj) : CellNo := Fin.ofNat 128 o.unit

/-- The object at `idx`.`sub`. -/
def State.findObj (s : State) (idx sub : Nat) : Option Obj := (s.object idx sub).map fun r => ⟨r.1, r.2.1, idx, sub, r.2.2⟩

/-- Selectors: one copy for each session, not journalled (R437, R469). -/
def isSelector (base sub : Nat) : Bool :=
  (base == 0x3200 && sub == 1) || (base == 0x4005 && sub == 9) || (base == 0xA000 && sub == 3) || (base == 0x9000 && sub == 2) ||
  (base == 0x9001 && decide (1 ≤ sub) && decide (sub ≤ 3))

/-- A debug object of a cell that a blown DBG_KILL refuses (R460). -/
def killedObj (base sub : Nat) : Bool :=
  decide (0x9000 ≤ base) && decide (base < 0x9004) && sub != 0 && !(base == 0x9000 && sub == 1)

/-! ## Swarm members -/

/-- Cells present on member `d`, as far as this device knows. -/
def State.memberCells (s : State) (d : BitVec 3) : Nat :=
  if d = s.devId then Config.cellCount s.part
  else
    match s.directLink d with
    | none => 128
    | some l => (match (s.swarmLink l).hello with | some h => h.cells | none => 128)

/-- DEV names no member, or CELL no cell of it. -/
def State.noSuchCell (s : State) (dev cell : Nat) : Bool :=
  !s.reaches (BitVec.ofNat 3 dev) || decide (s.memberCells (BitVec.ofNat 3 dev) ≤ cell)

/-- A source value with EN, DEV and CELL names a cell not present on its device (R251, R349). -/
def State.srcAbsent (s : State) (v : Nat) : Bool := v % 2 == 1 && decide (s.memberCells (BitVec.ofNat 3 (v / 2)) ≤ v / 16 % 128)

/-! ## MODE (R483, R485, R486, R488, R490) -/

/-- The mode that a value of PWR_MODE_REQ names. -/
def modeOf (v : Nat) : Mode := if v = 5 then .ready else if v = 6 then .serve else if v = 9 then .retain else if v = 10 then .diag else .off

/-- The present mode refuses the write; `boot` marks the records of a default section (R501). -/
def State.modeBad (s : State) (o : Obj) (v : Nat) (boot : Bool) : Bool :=
  let m := s.pwr.mode
  if boot then false
  else if !s.dictServed || m == .train then true
  else if o.row.acc == .rws then m != .ready
  else
    match o.base, o.sub with
    | 0x4000, 2 => (v == 1 && !(m == .serve || m == .drain)) || ((v == 3 || v == 5) && !s.cellsRun)
    | 0x4001, 4 => v == 1 && !(m == .ready || m == .serve || m == .limited)
    | 0x8000, 2 => !s.modeOk (modeOf v)
    | 0x8100, 1 => !(m == .ready || m == .serve || m == .limited || m == .drain || m == .diag)
    | 0x9000, 6 => (v == 2 || v == 3) && !s.cellsRun
    | _, _ => false

/-! ## TYPE and RANGE (R14, R432) -/

/-- Lengths that an object's value may have. -/
def Obj.lenOk (o : Obj) (q : Session) (n : Nat) : Bool :=
  match o.base, o.sub with
  | 0x9000, 4 => n == 16
  | 0x9001, 4 => n == q.sel o.cell 2
  | 0x9003, 2 => decide (1 ≤ n) && decide (n ≤ 64)
  | _, _ => n == tySize o.row.ty

/-- Functions that pin `p` has (R535). -/
def pinFuncs (p : Nat) : Nat :=
  3 + (if p < 4 then 4 else 0) + (if 16 ≤ p ∧ p < 34 then 8 else 0) + (if 64 ≤ p ∧ p < 88 then 16 else 0) +
  (if 96 ≤ p ∧ p < 101 then 32 else 0)

/-- A scale or ratio byte: both fields 1 to 8. -/
def nibbles18 (v : Nat) : Bool := decide (1 ≤ v % 16) && decide (v % 16 ≤ 8) && decide (1 ≤ v / 16) && decide (v / 16 ≤ 8)

/-- HB_LINES × HB_RATE with XS_LINE_EN at 1 exceeds the line rate of R37. -/
def State.linesBad (s : State) (rate lines en : Nat) : Bool := en != 0 && decide (200000 * 1000 < lines * rate)

/-- The value is out of range, or a reserved field is not 0. -/
def State.rangeBad (s : State) (q : Session) (o : Obj) (v : Nat) : Bool :=
  decide (v < o.row.lo) || decide (o.row.hi < v) ||
  match o.base, o.sub with
  | 0x2100, 2 => s.linesBad v (s.objOr 0x2100 4 1125) (s.objOr 0x2101 3 0)
  | 0x2100, 4 => s.linesBad (s.objOr 0x2100 2 60000) v (s.objOr 0x2101 3 0)
  | 0x2101, 3 => s.linesBad (s.objOr 0x2100 2 60000) (s.objOr 0x2100 4 1125) v
  | 0x2200, 1 =>
    decide (v / 16384 % 4 ≠ 0) || decide (16777216 ≤ v) || (v % 4 == 1 && s.noSuchCell (v / 4 % 8) (v / 32 % 128))
  | 0x2600, 9 => v != 0 && v == s.objOr 0x2600 3 0x88B5
  | 0x2601, 5 => v % 2 == 1
  | 0x2700, 1 => (Nat.land v (255 - pinFuncs o.unit)) != 0
  | 0x2700, 2 => v / 16 % 4 == 3
  | 0x2700, 4 => decide (32768 ≤ v) || (v % 2 == 1 && s.noSuchCell (v / 2 % 8) (v / 16 % 128))
  | 0x3400, 1 => (List.range 32).any fun r => r != o.unit && s.objOr (0x3400 + r) 2 0 != 0 && s.objOr (0x3400 + r) 1 0 == v
  | 0x4004, 2 => !(v == 16 || v == 24)
  | 0x6100, 1 => v % 4 == 3 || v / 8 % 4 == 3
  | 0x6100, 3 => s.srcAbsent v
  | 0x6100, 4 => s.srcAbsent v
  | 0x6240, 4 => decide (s.objOr (0x6240 + o.unit) 5 4095 < v)
  | 0x6240, 5 => decide (v < s.objOr (0x6240 + o.unit) 4 0)
  | 0x8000, 0x0A => v != 0 && (decide (v < 100) || decide (600000 < v))
  | 0x9002, _ => !(s.ownCell q o.cell).patchOk (BitVec.ofNat 64 v)
  | 0xB000, 2 => !nibbles18 v
  | 0xB000, 4 => v % 4 != 0
  | 0xB000, 9 => decide (s.house.frameClks * (s.headGeom o.unit).den ≤ v)
  | 0xB000, 0x0C => !(v == 1 || v == 2 || v == 4)
  | 0xB100, 1 => s.srcAbsent v
  | 0xB100, 4 => !nibbles18 v
  | 0xB180, 3 => v % 65536 == 0 || decide (4096 < v % 65536) || v / 65536 == 0 || decide (4096 < v / 65536)
  | _, _ => false

/-! ## STATE and BUSY -/

/-- CELL_CMD `v` is one that the table of R97 does not allow. -/
def cmdBad (st : CState) (v : Nat) : Bool :=
  match v with
  | 1 => st != .loaded
  | 2 => !(st == .running || st == .sleep)
  | 3 => st != .paused
  | 4 => !st.started
  | 5 => !(st == .running || st == .paused || st == .sleep || st == .halted)
  | _ => st != .loaded

/-- Another of this device's pins or routes holds the same target. -/
def State.routeTaken (s : State) (unit v : Nat) : Bool :=
  v % 4 == 1 && (List.range 153).any fun n => n != unit && s.objOr (0x2200 + n) 1 0 % 16384 == v % 16384
def State.ownerTaken (s : State) (unit v : Nat) : Bool :=
  v % 2 == 1 && (List.range 128).any fun p => p != unit && s.gp p 4 % 32768 == v % 32768

/-- The present state of the cell or unit refuses the write. -/
def State.stateBad (s : State) (q : Session) (o : Obj) (v : Nat) : Bool :=
  let x := s.ownCell q o.cell
  match o.base, o.sub with
  | 0x2200, 1 => s.routeTaken o.unit v
  | 0x2700, 1 => v != 0 && s.bankOf o.unit == 0
  | 0x2700, 4 => s.ownerTaken o.unit v
  | 0x2700, 5 => s.gp o.unit 4 % 2 == 1
  | 0x3001, n => !s.fenceOk n v
  | 0x4000, 2 => cmdBad x.ctl.st v
  | 0x4000, 3 => !(x.ctl.st == .empty || (x.ctl.st == .loaded && v == x.img.profile.toNat))
  | 0x4001, 4 => v == 1 && x.ctl.st != .empty
  | 0x4001, 9 => !(x.ctl.st == .empty || x.ctl.st == .loaded)
  | 0x8100, 1 => v == 0 && s.pdRefused o.unit
  | 0x9000, 6 => if v = 1 then !(x.ctl.st == .halted || haltOk x.ctl.st) else x.ctl.st != .halted
  | 0xB000, 1 => v == 1 && !headGeomOk (s.headGeom o.unit) s.house.frameClks s.house.rate.toNat
  | 0xB000, n => (decide (2 ≤ n) && decide (n ≤ 9) || n == 0x0B || n == 0x0C) && s.hd o.unit 1 0 != 0
  | _, _ => false

/-- Refused for now. -/
def State.busyBad (s : State) (o : Obj) (v : Nat) : Bool :=
  match o.base, o.sub with
  | 0x4001, n => decide (1 ≤ n) && decide (n ≤ 4) && (s.cell o.cell).img.stat == 1
  | 0x8100, 1 => v == 0 && (s.dom o.unit).st == 1
  | _, _ => false

/-! ## Result of a write (R436, R482) -/

/-- Level of a session for a cell; a home device's requests for its guest come with the home's own judgement (R459). -/
def State.levelFor (s : State) (q : Session) (c : CellNo) : Byte :=
  if q.transport = 6 && (s.cell c).kp.guest == some q.dev then 2 else q.level c

/-- Codes 01h to 07h of a write. -/
def State.earlyCode (s : State) (q : Session) (o : Obj) (ty : Nat) (bytes : List Byte) (boot : Bool) : Byte :=
  let v := ofBytes bytes
  if killedObj o.base o.sub && s.killed then 0x10
  else if o.row.acc = .ro then 2
  else if s.modeBad o v boot then 4
  else if o.row.acc = .rwk && s.levelFor q o.cell != 2 then 5
  else if ty ≠ o.row.ty || !o.lenOk q bytes.length then 6
  else if o.base = 0x9001 && o.sub == 4 then (if s.dbgRange o.cell (q.sel o.cell 0) (q.sel o.cell 1) bytes.length true then 0 else 7)
  else if o.row.ty = 10 then 0
  else if s.rangeBad q o v then 7
  else 0

/-- The result of a write. -/
def State.writeCode (s : State) (q : Session) (o : Obj) (ty : Nat) (bytes : List Byte) (boot : Bool) : Byte :=
  let v := ofBytes bytes
  let e := s.earlyCode q o ty bytes boot
  if e ≠ 0 then e
  else if s.stateBad q o v then 8
  else if s.busyBad o v then 9
  else if o.base = 0x9000 && o.sub == 4 then s.respCode q o.cell bytes
  else if o.base = 0x9001 && o.sub == 4 then (if dbgAllowed (s.ownCell q o.cell).ctl.st (q.sel o.cell 0) true then 0 else 0x12)
  else 0

/-! ## Closing sessions (R439) -/

/-- A session closes with `cause`: its number rests, its levels are lost, SESSION_CLOSE and SESSION_END (R455, R457). -/
def State.closeSession (s : State) (q : Session) (cause : Nat) : State :=
  let s := s.modMc fun m => { m with
    sessions := m.sessions.filter fun k => !k.same q
    retired := (q.num, s.devTime.toNat) :: m.retired.filter fun r => decide (s.devTime.toNat < r.2 + 60000000000) }
  let s := s.event 0x8003 0 (q.num.setWidth 64) (BitVec.ofNat 64 cause)
  let s := s.raise 0x51 0 false (q.num.toNat + 65536 * cause)
  allCells.foldl (fun s c => if q.level c = 2 then s.releaseDebug c else s) s

/-- The sessions of a transport close: it has left its operating state. -/
def State.closeTransport (s : State) (t : Fin 7) : State :=
  (s.mc.sessions.filter fun q => q.transport == t && q.dev == s.devId).foldl (fun s q => s.closeSession q 2) s

/-! ## Effects -/

/-- A cell's own copies of pages that its scope no longer lets it share (R175): each takes the first free entry and frame. -/
def State.unshare (s : State) (c : CellNo) : State :=
  let pages := (s.cell c).kp.pmap
  (List.range pages.length).foldl
    (fun s k =>
      let i := pages.getD k 0
      let e := s.pte i
      if pteShare e < 2 || (s.sharers i).all (fun d => d == c || s.mayShare c d) then s
      else
        match (List.range s.areaBase).find? (fun j => pteState (s.pte j) == 0),
              ((List.range 131072).map (BitVec.ofNat 17)).find? s.frameFree with
        | some j, some f =>
          let s := s.modKp c fun p => { p with pmap := p.pmap.map fun n => if n = i then j else n }
          let low := (s.sharers i).foldl (fun m d => min m d.val) 127
          let place : Place := match pteLoc e with
            | 1 => .wax (Fin.ofNat 1536 (pteOslot e))
            | 2 => .sram (Fin.ofNat 16 (pteOslot e / 32)) (Fin.ofNat 32 (pteOslot e))
            | _ => .rld (pteFrame e)
          (s.setPte i (mkPte 1 place (pteFrame e) (pteHeat e) (pteShare e - 1) low (pteCat e))).setPte j
            (mkPte 1 (.rld f) f (pteHeat e) 1 c.val (pteCat e))
        | _, _ => s) s

/-- A write of IMG_LOAD 1 (R178, R387, R502). -/
def State.startLoad (s : State) (c : CellNo) : State :=
  if s.objOr (0x4001 + 16 * c.val) 1 0 = 1 && s.pwr.bootSrc == 0 then s.modCell c fun x => { x with img := { stat := 6 } }
  else s.modCell c fun x => { x with img := { stat := 1 }, kp := { x.kp with loadWaits := x.kp.guest.isSome } }

/-- The view bits of a new owner's slot start at 0 (R539). -/
def State.clearSlot (s : State) (v : Nat) : State :=
  let c : CellNo := Fin.ofNat 128 (v / 16)
  if v % 2 = 1 && s.homeOf c == BitVec.ofNat 3 (v / 2) then
    let k := v / 2048 % 16
    let clear (x : Cell) (a : Nat) : Cell := x.putReg a (putBit (x.reg8 a) (k % 8) false)
    s.modCell c fun x => clear (clear x (0x0E90 + k / 8)) (0x0E92 + k / 8)
  else s

/-- A code of CELL_CMD. -/
def cellCmd (v : Nat) : CellCmd :=
  match v with
  | 1 => .start | 2 => .pause | 3 => .resume | 4 => .stop | 5 => .reset | _ => .unload

/-- The effect of an accepted write of a plain value on the units; the value of the object itself is stored by the caller. -/
def State.unitEffect (s : State) (o : Obj) (old v : Nat) : State :=
  let c := o.cell
  let p : Fin 4 := Fin.ofNat 4 o.unit
  let l : Fin 7 := Fin.ofNat 7 o.unit
  match o.base, o.sub with
  | 0x2100, 1 => { s with house := { s.house with srcDue := true } }
  | 0x2600, 1 => if v = 0 then s.closeTransport 3 else s
  | 0x2601, 1 =>
    let k : Fin 2 := Fin.ofNat 2 o.unit
    let s := s.modMc fun m => { m with can := m.can.set k { m.can.get k with state := if v = 0 then 0 else 1, parts := [] } }
    if v = 0 then s.closeTransport (if o.unit = 0 then 4 else 5) else s
  | 0x2700, 4 => s.clearSlot v
  | 0x3001, _ => s.fenceCheck
  | 0x4001, 0x0A => if v < old then s.unshare c else s
  | 0x4004, 3 => s.modCell c fun x => { x with snd := { x.snd with
      gainL := x.snd.gainL.write (BitVec.ofNat 8 v), gainR := x.snd.gainR.write (BitVec.ofNat 8 v) } }
  | 0x6100, 3 => s.modPort p fun k => k.writeSrc (BitVec.ofNat 32 old) (BitVec.ofNat 32 v)
  | 0x6100, 5 => s.modPort p fun k => k.writeEar (BitVec.ofNat 16 v)
  | 0x6100, 6 => s.modPort p fun k => { k with side := k.side.write (BitVec.ofNat 8 v) }
  | 0x6100, 7 => s.modPort p fun k => { k with mic := k.mic.write (BitVec.ofNat 8 v) }
  | 0x7100, 1 =>
    if v = 0 then (s.dropLink l).linksChanged
    else if s.linkOn l && (s.swarmLink l).signal && (s.swarmLink l).state == lkDown then s.startTrain l else s
  | 0xB000, 1 => s.headEnable p (v == 1)
  | _, _ => s

/-- LK_RETRAIN 1 (R375, R395). -/
def State.lkRetrain (s : State) (l : Fin 7) : State :=
  let k := s.swarmLink l
  if !s.linkOn l || !s.lkEn l || !k.signal then s
  else if k.state = lkUp then (s.retrain l (s.lkRateMax l)).linksChanged
  else if k.state = lkDown then s.startTrain l
  else s

/-- The effect of an accepted write of a value of fixed size. -/
def State.numEffect (s : State) (q : Session) (o : Obj) (v : Nat) : State :=
  let c := o.cell
  match o.base, o.sub with
  | 0x3200, 1 => s.modSession q fun k => { k with ptIndex := BitVec.ofNat 32 v }
  | 0x4005, 9 => s.modSession q fun k => { k with pmapIdx := BitVec.ofNat 16 v }
  | 0xA000, 3 => s.modSession q fun k => { k with jrCursor := BitVec.ofNat 64 v }
  | 0x9000, 2 => s.modSession q fun k => { k with dbgReq := Table.write (fun _ => 0) k.dbgReq c.val (BitVec.ofNat 8 v) }
  | 0x9001, n => s.modSession q fun k => k.setSel c (n - 1) (BitVec.ofNat 32 v)
  | 0x4000, 2 => s.modCtl c fun k => { k with cmds := k.cmds ++ [cellCmd v] }
  | 0x4000, 3 => s.modCell c fun x => { x with prof := BitVec.ofNat 8 v }
  | 0x4001, 4 => if v = 1 then s.startLoad c else s
  | 0x7000, 6 => if v = 1 then s.elect else s
  | 0x7100, 7 => if v = 1 then s.lkRetrain (Fin.ofNat 7 o.unit) else s
  | 0x8000, 2 => s.takeMode (modeOf v)
  | 0x8000, 0x0A => s.modPwr fun p => { p with fhAuto := BitVec.ofNat 32 v }
  | 0x8000, 0x12 => s.deviceReset 4
  | 0x8100, 1 => s.writePdEn o.unit (v == 1)
  | 0x9000, 5 => s.dropLevel q c (BitVec.ofNat 8 v)
  | 0x9000, 6 => (s.objPut o.idx 6 0 v).dbgCmd c v
  | 0x9000, 7 => if s.hidden q c then s else s.modDbg c fun d => { d with ctl := BitVec.ofNat 8 v }
  | 0x9002, n => s.modDbg c fun d => { d with patches := d.patches.setIfInBounds (n - 1) (BitVec.ofNat 64 v) }
  | _, _ =>
    let old := s.objOr o.idx o.sub o.row.dflt
    (s.objPut o.idx o.sub o.row.dflt v).unitEffect o old v

/-- DBG_VT_IN (R476, R480). -/
def State.vtIn (s : State) (q : Session) (c : CellNo) (bytes : List Byte) : State :=
  if !s.hidden q c && (s.cell c).dbg.vt then s.vtRxWrite c bytes else s

/-- What a write with result `code` does. -/
def State.writeEffect (s : State) (q : Session) (o : Obj) (bytes : List Byte) (code : Byte) : State :=
  let c := o.cell
  if o.base = 0x9000 && o.sub == 4 then
    (if code = 0 || code == 0x13 || code == 0x14 then s.respEffect q c code else s)
  else if code ≠ 0 then s
  else if o.base = 0x9001 && o.sub == 4 then s.dbgWrite q c bytes
  else if o.base = 0x9003 then s.vtIn q c bytes
  else s.numEffect q o (ofBytes bytes)

/-! ## The journal entry of a write (R453) -/

/-- A value as an entry stores it. -/
def jrValue (ty : Nat) (l : List Byte) : Long :=
  let n := ofBytes (l.take 8)
  if ty = 6 then (BitVec.ofNat 16 n).signExtend 64 else if ty = 7 then (BitVec.ofNat 32 n).signExtend 64 else BitVec.ofNat 64 n

/-- The digest of a value. -/
def jrDigest (l : List Byte) : Long := BitVec.ofNat 64 ((crc32c l).toNat + l.length * 4294967296)

/-- The present value of an object, as OLD takes it. -/
def State.oldBytes (s : State) (q : Session) (o : Obj) : List Byte :=
  if o.row.acc = .wo then []
  else if o.row.ty < 9 then toBytes (s.objNum q o.base o.unit o.sub o.row.dflt) (tySize o.row.ty)
  else
    match o.base, o.sub with
    | 0x1000, _ => partName s.part
    | 0x2600, _ => s.mc.t1sRx
    | 0x2601, _ => (s.mc.can[o.unit]?.getD {}).appRx
    | 0x8000, _ => toBytes s.pwr.drainPaused.toNat 16
    | 0x9001, _ =>
      if s.dbgRange o.cell (q.sel o.cell 0) (q.sel o.cell 1) (q.sel o.cell 2) false && !s.hidden q o.cell then
        let x := s.cell o.cell
        (s.setCell o.cell { x with dbg := { x.dbg with ctl := 0 } }).dbgRead q o.cell |>.2
      else []
    | 0xA000, 4 => if s.jrCode q.jrCursor.toNat = 0 then s.jrEntry q.jrCursor.toNat else []
    | _, _ => []

/-- The entry of a write of `o`, or of an object that is not present. -/
def State.writeEntry (s : State) (q : Session) (idx sub : Nat) (o : Option Obj) (ty : Nat) (new : List Byte) (code : Byte) : JEntry :=
  let old := match o with | some k => s.oldBytes q k | none => []
  let dig := decide (8 < old.length) || decide (8 < new.length)
  let oty := match o with | some k => k.row.ty | none => 0
  let wo : Bool := match o with | some k => k.row.acc == .wo | none => true
  { time := s.devTime, transport := BitVec.ofNat 4 q.transport.val, dev := q.dev, digest := dig, node := q.node, session := q.num
    index := BitVec.ofNat 16 idx, sub := BitVec.ofNat 8 sub, result := code
    old := if wo then 0 else if dig then jrDigest old else jrValue oty old
    new := if dig then jrDigest new else jrValue (if ty = oty then ty else 0) new }

/-! ## Objects of a cell that runs away from home (R388) -/

/-- Objects whose state lies on the run device. -/
def awayObj (base sub : Nat) : Bool :=
  match base with
  | 0x4000 => sub == 1 || sub == 2 || decide (5 ≤ sub)
  | 0x4001 => sub == 6 || sub == 7 || sub == 0x0B || sub == 0x0C
  | 0x4002 => sub == 3 || sub == 4
  | 0x4003 => sub != 0
  | 0x4004 => decide (4 ≤ sub)
  | 0x4005 => sub != 0 && sub != 3 && sub != 9
  | 0x9000 => decide (6 ≤ sub)
  | 0x9001 => sub == 4
  | 0x9002 => sub != 0
  | 0x9003 => sub != 0
  | _ => false

/-- The run device of an object's state, where it is not this device. -/
def State.awayAt (s : State) (o : Obj) : Option (BitVec 3) :=
  match objCell o.base o.unit with
  | none => none
  | some c => if awayObj o.base o.sub then (s.cell c).kp.away else none

/-- A message body with one item, as a member sends it on. -/
def oneItem (op : Byte) (session : Half) (idx sub ty : Nat) (bytes : List Byte) : List Byte :=
  [1, op, 0, 0] ++ wordBytes session ++ [0, 0, 1, 0, 0, 0] ++
  toBytes idx 2 ++ [BitVec.ofNat 8 sub, BitVec.ofNat 8 ty, 0, 0] ++ toBytes bytes.length 2 ++ bytes ++
  List.replicate ((4 - bytes.length % 4) % 4) 0

/-- A DICT frame with a body for member `d`. -/
def State.sendDict (s : State) (d : BitVec 3) (session : Half) (body : List Byte) : State :=
  s.sendParts d 8 (BitVec.ofNat 32 (session.toNat * 1024)) body

/-- The next free value. -/
def State.draw (s : State) : State := { s with freeCtr := s.freeCtr + 1 }

/-- A write forwarded to the run device: its judgement is a free value, OK or STATE (assumption 45). -/
def State.writeAway (s : State) (q : Session) (o : Obj) (d : BitVec 3) (ty : Nat) (bytes : List Byte) (early : Byte) : State × Byte :=
  if early ≠ 0 then (s, early)
  else if !s.reaches d then (s, 0x0A)
  else ((s.draw).sendDict d q.num (oneItem 4 q.num o.idx o.sub ty bytes), if Config.freeByte s.freeCtr < 128 then 0 else 8)

/-! ## One write item (R435) -/

/-- The session as it stands now. -/
def State.again (s : State) (q : Session) : Session :=
  if q.transport = 0 then q else (s.mc.sessions.find? fun k => k.same q).getD q

/-- Write the entry of a write item. A DICT frame does not carry the transport and the node at which a request of another
member entered the swarm: the two are free values (R440, assumption 46). -/
def State.journalFor (s : State) (q : Session) (e : JEntry) : State :=
  if q.transport = 6 then
    { s with freeCtr := s.freeCtr + 2 }.journal
      { e with transport := (Config.freeByte s.freeCtr).setWidth 4, node := Config.freeByte (s.freeCtr + 1) }
  else s.journal e

/-- A write item: its journal entry, then its effect; answers the result. -/
def State.writeItem (s : State) (q : Session) (idx sub ty : Nat) (bytes : List Byte) (boot : Bool) : State × Byte :=
  let q := s.again q
  match s.findObj idx sub with
  | none => (s.journalFor q (s.writeEntry q idx sub none ty bytes 1), 1)
  | some o =>
    match s.awayAt o with
    | some d =>
      let r := s.writeAway q o d ty bytes (s.earlyCode q o ty bytes boot)
      let e := s.writeEntry q idx sub (some o) ty bytes r.2
      let e := { e with old := if o.row.acc = .wo then 0 else (Config.freeWord r.1.freeCtr).setWidth 64 }
      (r.1.draw.journalFor q e, r.2)
    | none =>
      let code := s.writeCode q o ty bytes boot
      let t := if boot || isSelector o.base o.sub then s else s.journalFor q (s.writeEntry q idx sub (some o) ty bytes code)
      (t.writeEffect q o bytes code, code)

end Sys2Proof.Machine
end

