-- ==== Sys2Proof/Machine/Dict.lean ====
section
/-! DEFINITION. The dictionary's service: reads of objects, message bodies, sessions, and the bounds of the transports (R434 to
R449, R454). -/

namespace Sys2Proof.Machine

/-! ## One read item -/

/-- A debug object that needs OBSERVE for reading (R480). -/
def needsObserve (base sub : Nat) : Bool :=
  decide (0x9000 ≤ base) && decide (base < 0x9004) && sub != 0 && !(base == 0x9000 && decide (sub ≤ 4))

/-- The result of a read (R436, R458, R460, R463, R469, R482). -/
def State.readCode (s : State) (q : Session) (o : Obj) : Byte :=
  if killedObj o.base o.sub && s.killed then 0x10
  else if o.row.acc = .wo then 3
  else if o.base = 0x9000 && o.sub == 3 then (if q.req o.cell = 0 then 7 else if s.dbgDev.until_.isSome then 0x15 else 0)
  else
    let data := o.base == 0x9001 && o.sub == 4
    if data && !s.dbgRange o.cell (q.sel o.cell 0) (q.sel o.cell 1) (q.sel o.cell 2) false then 7
    else if needsObserve o.base o.sub && s.levelFor q o.cell == 0 then 0x11
    else if data && !dbgAllowed (s.ownCell q o.cell).ctl.st (q.sel o.cell 0) false then 0x12
    else if o.base = 0xA000 && decide (4 ≤ o.sub) then s.jrCode q.jrCursor.toNat
    else 0

/-- Entries that a read of JR_BLOCK returns in `room` bytes. -/
def State.jrCount (s : State) (q : Session) (room : Nat) : Nat := min (min 16 (room / 32)) (s.mc.jrSeq - q.jrCursor.toNat)

/-- The bytes that a read returns and the state after it, where nothing refuses it; `none` where they exceed `room`. -/
def State.readBytes (s : State) (q : Session) (o : Obj) (room : Nat) : Option (State × List Byte) :=
  let c := o.cell
  let fit (t : State) (l : List Byte) : Option (State × List Byte) := if l.length ≤ room then some (t, l) else none
  if o.sub = 0 || decide (o.row.ty < 9) then
    let l := toBytes (s.objNum q o.base o.unit o.sub o.row.dflt) (tySize o.row.ty)
    fit (if o.base = 0x9000 && o.sub == 8 then s.dbgStatRead c q.num else s) l
  else
    match o.base, o.sub with
    | 0x2600, _ => fit (s.modMc fun m => { m with t1sRx := [] }) s.mc.t1sRx
    | 0x2601, _ =>
      let k : Fin 2 := Fin.ofNat 2 o.unit
      fit (s.modMc fun m => { m with can := m.can.set k { m.can.get k with appRx := [] } }) (s.mc.can.get k).appRx
    | 0x9000, _ => if room < 16 then none else some (s.newChallenge q c)
    | 0x9001, _ => if room < q.sel c 2 then none else some (s.dbgRead q c)
    | 0x9003, 1 =>
      let l := if (s.ownCell q c).dbg.vt then ((s.cell c).dbg.vtTx).take (min 64 room) else []
      some (s.vtTxTake c l.length, l)
    | 0x9003, _ => some (s, [])
    | 0xA000, 4 => fit s (s.jrEntry q.jrCursor.toNat)
    | 0xA000, _ =>
      let n := s.jrCount q room
      if n = 0 then none
      else
        let k := q.jrCursor.toNat
        some (s.modSession q fun p => { p with jrCursor := BitVec.ofNat 64 (k + n) }, (List.range n).flatMap fun i => s.jrEntry (k + i))
    | _, _ => fit s (s.oldBytes q o)

/-- A read forwarded to the run device: the bytes it answers are free (assumption 45). -/
def State.readAway (s : State) (q : Session) (o : Obj) (d : BitVec 3) : State × Byte × List Byte :=
  if killedObj o.base o.sub && s.killed then (s, 0x10, [])
  else if o.row.acc = .wo then (s, 3, [])
  else if needsObserve o.base o.sub && s.levelFor q o.cell == 0 then (s, 0x11, [])
  else if !s.reaches d then (s, 0x0A, [])
  else
    let n := if o.base = 0x9001 then q.sel o.cell 2 else tySize o.row.ty
    let l := (List.range n).map fun i => Config.freeByte (s.freeCtr + i)
    ({ s with freeCtr := s.freeCtr + n }.sendDict d q.num (oneItem 3 q.num o.idx o.sub 0 []), 0, l)

/-- A read item: the state after it, its result, the type of the object and its value. -/
def State.readItem (s : State) (q : Session) (idx sub room : Nat) : State × Byte × Nat × List Byte :=
  let q := s.again q
  match s.findObj idx sub with
  | none => (s, 1, 0, [])
  | some o =>
    match s.awayAt o with
    | some d =>
      let r := s.readAway q o d
      (r.1, r.2.1, o.row.ty, r.2.2)
    | none =>
      let code := s.readCode q o
      if code ≠ 0 then (s, code, o.row.ty, [])
      else
        match s.readBytes q o room with
        | none => (s, 0x0D, o.row.ty, [])
        | some (t, l) => (t, 0, o.row.ty, l)

/-! ## Message bodies (R441, R442) -/

/-- The header of a message. -/
structure MsgHead where
  op : Nat
  flags : Byte
  status : Byte
  session : Half
  tid : Half
  count : Nat
  target : Byte
  zero : Byte
  deriving DecidableEq, Repr

/-- The 12 bytes at the start of a body. -/
def msgHead (l : List Byte) : MsgHead :=
  let g (i : Nat) : Byte := l.getD i 0
  { op := (g 1).toNat, flags := g 2, status := g 3, session := g 5 ++ g 4, tid := g 7 ++ g 6
    count := (g 9 ++ g 8).toNat, target := g 10, zero := g 11 }

/-- An item of a request. -/
structure Item where
  idx : Nat
  sub : Nat
  ty : Nat
  status : Byte
  zero : Byte
  bytes : List Byte
  deriving DecidableEq, Repr

/-- `n` items at the front of a body's rest, and what follows them; `none` where the body ends too soon. -/
def parseItems (l : List Byte) : Nat → Option (List Item × List Byte)
  | 0 => some ([], l)
  | n + 1 =>
    let g (i : Nat) : Byte := l.getD i 0
    let len := (g 7 ++ g 6).toNat
    let all := 8 + (len + 3) / 4 * 4
    if l.length < all then none
    else
      match parseItems (l.drop all) n with
      | none => none
      | some (r, rest) =>
        some ({ idx := (g 1 ++ g 0).toNat, sub := (g 2).toNat, ty := (g 3).toNat, status := g 4, zero := g 5
                bytes := (l.drop 8).take len } :: r, rest)

/-- The body of a request breaks R441 or R442; `exact` where nothing may follow the items. -/
def msgBad (h : MsgHead) (l : List Byte) (exact_ : Bool) : Bool :=
  decide (h.op = 0) || decide (5 < h.op) ||
  (if h.op = 1 then h.flags &&& 0xFE != 0 else h.flags != 0) ||
  h.status != 0 || h.target &&& 0xF0 != 0 || h.zero != 0 ||
  (if h.op = 3 ∨ h.op = 4 then decide (h.count = 0) || decide (64 < h.count) else h.count != 0) ||
  match parseItems (l.drop 12) h.count with
  | none => true
  | some (r, rest) =>
    (exact_ && !rest.isEmpty) || r.any fun i => i.status != 0 || i.zero != 0 || (h.op == 3 && i.ty != 0)

/-- The items of a request that is not refused as a whole. -/
def msgItems (h : MsgHead) (l : List Byte) : List Item :=
  match parseItems (l.drop 12) h.count with
  | some (r, _) => r
  | none => []

/-- A response's first 12 bytes. -/
def rspHead (h : MsgHead) (status : Byte) (session : Half) (count : Nat) : List Byte :=
  [1, BitVec.ofNat 8 h.op, 2, status] ++ wordBytes session ++ wordBytes h.tid ++ toBytes count 2 ++ [h.target, 0]

/-- A response that no item follows. -/
def rspBare (h : MsgHead) (status : Byte) : List Byte := rspHead h status h.session 0

/-- An item of a response. -/
def rspItem (i : Item) (ty : Nat) (status : Byte) (l : List Byte) : List Byte :=
  toBytes i.idx 2 ++ [BitVec.ofNat 8 i.sub, BitVec.ofNat 8 ty, status, 0] ++ toBytes l.length 2 ++ l ++
  List.replicate ((4 - l.length % 4) % 4) 0

/-! ## Execution (R434) -/

/-- The items of a READ, with `room` bytes left in the response for them. -/
def State.readItems (s : State) (q : Session) (room : Nat) : List Item → State × List Byte
  | [] => (s, [])
  | i :: r =>
    let r1 := s.readItem q i.idx i.sub ((room - 8 * (r.length + 1)) / 4 * 4)
    let out := rspItem i r1.2.2.1 r1.2.1 r1.2.2.2
    let t := r1.1.modMc fun m => { m with result := r1.2.1, value := r1.2.2.2 }
    let r2 := t.readItems q (room - out.length) r
    (r2.1, out ++ r2.2)

/-- The items of a WRITE. -/
def State.writeItems (s : State) (q : Session) : List Item → State × List Byte
  | [] => (s, [])
  | i :: r =>
    let r1 := s.writeItem q i.idx i.sub i.ty i.bytes false
    let t := r1.1.modMc fun m => { m with result := r1.2, value := [] }
    let r2 := t.writeItems q r
    (r2.1, rspItem i i.ty r1.2 [] ++ r2.2)

/-- The request is for a member that cannot be reached: every item is answered UNREACHABLE (R441). -/
def unreachableItems (l : List Item) : List Byte := l.flatMap fun i => rspItem i i.ty 0x0A []

/-- The request is one for another member. -/
def State.foreign (s : State) (h : MsgHead) : Option (BitVec 3) :=
  let d := BitVec.ofNat 3 h.target.toNat
  if h.target.getLsbD 3 && d != s.devId then some d else none

/-- What serving a request answers: nothing yet, where another member owns it, or a response. -/
inductive Served where
  | later
  | now (rsp : List Byte)

/-- READ and WRITE of session `q` with a response of at most `limit` bytes. -/
def State.execItems (s : State) (q : Session) (h : MsgHead) (l : List Byte) (limit : Nat) : State × Served :=
  let items := msgItems h l
  let head := rspHead h 0 h.session h.count
  match s.foreign h with
  | some d =>
    if s.reaches d then ((s.modSession q fun k => { k with fwd := l }).sendDict d q.num l, .later) else (s, .now (head ++ unreachableItems items))
  | none =>
    let r := if h.op = 3 then s.readItems q (limit - 12) items else s.writeItems q items
    (r.1, .now (head ++ r.2))

/-- As `execItems`, but a response beyond `limit` is not produced: then nothing is executed and the STATUS is TOOBIG (R448,
R449). -/
def State.execBounded (s : State) (q : Session) (h : MsgHead) (l : List Byte) (limit : Nat) : State × Served :=
  let r := s.execItems q h l limit
  match r.2 with
  | .later => r
  | .now b => if limit < b.length then (s, .now (rspBare h 0x0D)) else r

/-! ## Sessions of HDP and CAN clients (R439, R443, R444) -/

/-- The open session `n` of transport `t` that entered here. -/
def State.sessionOn (s : State) (t : Fin 7) (n : Half) : Option Session :=
  s.mc.sessions.find? fun q => q.num == n && q.transport == t && q.dev == s.devId

/-- A number that OPEN may give: not in use, and not one that closed within the last 60 s. -/
def State.numberFree (s : State) (n : Half) : Bool :=
  !(s.mc.sessions.any fun q => q.num == n && q.dev == s.devId) &&
  !(s.mc.retired.any fun r => r.1 == n && decide (s.devTime.toNat < r.2 + 60000000000))

/-- The number for a new session: the device's free choice among those allowed, taken from a free value (assumption 44). -/
def State.newNumber (s : State) : Option Half :=
  let k := (Config.freeWord s.freeCtr).toNat
  ((List.range 65519).map fun i => BitVec.ofNat 16 (0x10 + (k + i) % 65519)).find? s.numberFree

/-- OPEN (R439, R443): BUSY beyond SS_MAX. -/
def State.open (s : State) (t : Fin 7) (node : Byte) (mac : Long) (h : MsgHead) (l : List Byte) : State × List Byte :=
  if s.objOr 0x2000 1 16 ≤ s.ssOpen then (s, rspHead h 9 0 0)
  else
    match s.newNumber with
    | none => (s, rspHead h 9 0 0)
    | some n =>
      let rsp := rspHead h 0 n 0
      let q : Session := { num := n, transport := t, dev := s.devId, node := node, mac := mac, notify := h.flags.getLsbD 0
                           lastReq := l, lastRsp := rsp }
      let s := (s.draw).modMc fun m => { m with sessions := m.sessions ++ [q] }
      (s.event 0x8002 0 (if t = 3 then mac else node.setWidth 64) (n.setWidth 64), rsp)

/-- The response of a session is kept with its request. -/
def State.keep (s : State) (q : Session) (l rsp : List Byte) : State :=
  s.modSession q fun k => { k with lastReq := l, lastRsp := rsp }

/-- One message of an HDP or CAN client (R441 to R444): the response, if there is one. -/
def State.serveClient (s : State) (t : Fin 7) (node : Byte) (mac : Long) (l : List Byte) (exact_ : Bool) (limit : Nat) :
    State × Option (List Byte) :=
  let h := msgHead l
  if !s.dictServed || decide (l.length < 12) || l.getD 0 0 != 1 then (s, none)
  else
    let bad := msgBad h l exact_
    if h.op = 1 then
      (if h.session = 1 || h.session == 2 then (s, some (rspBare h 0x0E))
       else if bad || h.session != 0 then (s, some (rspBare h 6))
       else
         let r := s.open t node mac h l
         (r.1, some r.2))
    else
      match s.sessionOn t h.session with
      | none => (s, some (rspBare h 0x0E))
      | some q =>
        if q.lastReq = l then (s, some q.lastRsp)
        else if bad then
          let rsp := rspBare h 6
          (s.keep q l rsp, some rsp)
        else if h.op = 2 then (s.closeSession q 0, some (rspBare h 0))
        else if h.op = 5 then
          let rsp := rspBare h 0
          (s.keep q l rsp, some rsp)
        else
          let r := if t = 3 then s.execBounded q h l limit else s.execItems q h l limit
          match r.2 with
          | .later => (r.1, none)
          | .now b => (r.1.keep q l b, if r.1.pwr.mode = .hold then none else some b)

/-! ## The mailbox and the command queue (R448, R449) -/

/-- A request of session 1 or 2: a body whose VER is 01h. -/
def State.serveFixed (s : State) (n : Half) (t : Fin 7) (l : List Byte) (exact_ : Bool) (limit : Nat) : State × Served :=
  let h := msgHead l
  match s.sessionOn t n with
  | none => (s, .now (rspBare h 0x0E))
  | some q =>
    if h.session ≠ n || !(h.op == 3 || h.op == 4) then (s, .now (rspBare h 0x0E))
    else if q.lastReq = l then (s, .now q.lastRsp)
    else if msgBad h l exact_ then (s.keep q l (rspBare h 6), .now (rspBare h 6))
    else
      let r := s.execBounded q h l limit
      match r.2 with
      | .later => r
      | .now b => (r.1.keep q l b, .now b)

/-! ## One object, as the rows for single objects name it -/

/-- The session of an origin; a request that entered at another member has a record of its own (assumption 46). -/
def State.originSession (s : State) (o : Origin) : Option Session :=
  let d := BitVec.ofNat 3 o.dev.val
  match s.mc.sessions.find? fun q => q.num == o.session && q.transport == o.transport && q.dev == d && q.node == o.node with
  | some q => some q
  | none => if o.transport = 6 && d != s.devId then some { num := o.session, transport := 6, dev := d, node := o.node } else none

/-- The record of a session of another member is held from its first request on. -/
def State.noteSession (s : State) (q : Session) : State :=
  if s.mc.sessions.any (·.same q) then s else s.modMc fun m => { m with sessions := m.sessions ++ [q] }

/-- A write of one object by origin `o`: of a value of its own type. -/
def State.writeOne (s : State) (o : Origin) (idx sub : Nat) (bytes : List Byte) : State :=
  match s.originSession o with
  | none => s
  | some q =>
    let ty := match s.findObj idx sub with | some b => b.row.ty | none => 0
    let r := (s.noteSession q).writeItem q idx sub ty bytes false
    r.1.modMc fun m => { m with result := r.2, value := [] }

/-- The command of a single-object write: nothing happens outside the modes that serve the dictionary, or without the
session (assumption 3). -/
def dictWriteOne (o : Origin) (idx sub : Nat) (bytes : List Byte) (s : State) : Res :=
  .next (if s.dictServed then s.writeOne o idx sub bytes else s)

/-- A plain value written by a single-object command, in the size of its object; 8 bytes where it does not fit in that. -/
def dictPut (o : Origin) (idx sub v : Nat) (s : State) : Res :=
  let n := match s.findObj idx sub with | some b => tySize b.row.ty | none => 8
  dictWriteOne o idx sub (toBytes v (if v < 256 ^ n then n else 8)) s

/-- A read of one object by origin `o`: its result and value stand in the management controller's last answer. -/
def State.readOne (s : State) (o : Origin) (idx sub : Nat) : State :=
  match s.originSession o with
  | none => s
  | some q =>
    let r := (s.noteSession q).readItem q idx sub 512
    r.1.modMc fun m => { m with result := r.2.1, value := r.2.2.2 }

/-- The command of a single-object read. -/
def dictReadOne (o : Origin) (idx sub : Nat) (s : State) : Res := .next (if s.dictServed then s.readOne o idx sub else s)

end Sys2Proof.Machine
end

