-- ==== Sys2Proof/Machine/HostCmd.lean ====
section
/-! DEFINITION. The commands of the host: functions, queue blocks, mailboxes, event queues and the host's side of the
terminal (R397 to R420, R476). -/

namespace Sys2Proof.Machine

/-- The host link logic is powered (R490). -/
def State.hostUp (s : State) : Bool := s.domOn 49

/-- A host access to a function: PF0 while the link logic is powered, a VF while VFs are enabled (R398, R399). -/
def State.fnUp (s : State) (q : QueueId) : Bool := s.hostUp && s.fnOn q

/-- The host link queues move: the link is up, and the device is not in FAULT-HOLD (R397, R504). -/
def State.queuesMove (s : State) (q : QueueId) : Bool :=
  s.hostUp && s.queueOn q && s.link.speed != 0 && s.pwr.mode != .faultHold

/-! ## Functions and the link -/

/-- VF_FLR (R398). -/
def execVfFlr (c : CellNo) (s : State) : Res := onCell c s (.next (if s.hostUp && s.vfOn then s.vfReset c else s))

/-- PF0_FLR (R398). -/
def execPf0Flr (s : State) : Res :=
  .next (if s.hostUp then
    s.vfsOff.modLink fun l => { l with notice := l.notice.disable, command := l.command.disable, serving := none } else s)

/-- VF_ENABLE_WRITE (R398): only PF0 is offered until READY (R497). -/
def execVfEnableWrite (on : Bool) (s : State) : Res :=
  .next (if !s.hostUp then s
    else if !on then s.vfsOff
    else if s.dictServed && s.pwr.mode != .train then s.modLink fun l => { l with vfEnable := true } else s)

/-- HL_PAYLOAD in Gbit/s: R31 at x16, in proportion to the width (R397); R31 gives no figure for 2.5 and 5 GT/s, so there
the event brings it. -/
def linkPayload (gen width given : Nat) : Nat :=
  if gen = 5 then 440 * width / 16 else if gen = 4 then 220 * width / 16 else if gen = 3 then 110 * width / 16 else given

/-- HOST_LINK_CHANGE (R397, R398): queues and cells are unaffected. -/
def execHostLinkChange (k : LinkChange) (s : State) : Res :=
  let set (gen width given : Nat) (s : State) : State := s.modLink fun l =>
    { l with speed := BitVec.ofNat 8 gen, width := BitVec.ofNat 8 width, payload := BitVec.ofNat 16 (linkPayload gen width given) }
  let ok (gen : Nat) : Bool := decide (gen ≤ s.objOr 0x2500 5 5)
  .next (if !s.hostUp then s
    else
      match k with
      | .up g w n => if ok g.val then set g.val w n s else s
      | .down => set 0 0 0 s
      | .retrain g w n =>
        if ok g.val && s.link.speed != 0 then (set g.val w n s).modLink fun l => { l with retrains := satInc l.retrains } else s
      | .reset => set 0 0 0 s
      | .corrected => s.modLink fun l => { l with aerCorr := satInc l.aerCorr })

/-! ## Queue blocks (R402 to R409) -/

/-- QUEUE_CTL_WRITE (R409): disabling a queue of a cell may give the event queue room. -/
def execQueueCtlWrite (q : QueueId) (off : Nat) (v : Long) (s : State) : Res :=
  onQueue q s <| .next <|
    if s.fnUp q then (s.modQueue q fun k => k.writeReg q off v).afterTake q (s.queue q) else s

/-- QUEUE_HEAD_WRITE (R403): HEAD of a queue that the host writes is RO. -/
def execQueueHeadWrite (q : QueueId) (v : Word) (s : State) : Res :=
  onQueue q s <| .next <| if s.fnUp q && !qFromHost q then s.modQueue q fun k => k.writeHead v else s

/-- QUEUE_POP (R404): a read of fewer than 16 bytes removes nothing. -/
def execQueuePop (q : QueueId) (bytes : Nat) (s : State) : Res :=
  onQueue q s <| .next <|
    if s.fnUp q && (s.queue q).en && (s.queue q).pop && bytes == 16 && s.pwr.mode != .faultHold then s.popWord q else s

/-- QUEUE_WINDOW_WRITE (R405): whole, or the data word and then the tag. -/
def execQueueWindowWrite (q : QueueId) (part : WinPart) (data tag : Long) (s : State) : Res :=
  onQueue q s <| .next <|
    if !(s.fnUp q && (s.queue q).en && qFromHost q && s.pwr.mode != .faultHold) then s
    else
      match part with
      | .whole => s.windowWord q data tag
      | .low => s.modQueue q fun k => { k with staged := data }
      | .high => s.windowWord q (s.queue q).staged tag

/-- QUEUE_DROP (R408): the rest of the packet being popped, or the open packet of a host-written queue. -/
def execQueueDrop (q : QueueId) (s : State) : Res :=
  onQueue q s <| .next <|
    if !s.fnUp q then s
    else if qFromHost q then s.modQueue q fun k => { k with opened := [], spoiled := false }
    else if (s.queue q).pop && decide (0 < (s.queue q).popped) then (s.modQueue q Queue.popEnd).afterTake q (s.queue q)
    else s

/-- PACKET_DELIVER (R402, R403, R411): the oldest packet of a ring, with a credit. -/
def execPacketDeliver (q : QueueId) (s : State) : Res :=
  onQueue q s <| .next <|
    let k := s.queue q
    if s.queuesMove q && !qFromHost q && !k.pop && k.credit then s.deliverPacket q else s

/-- QUEUE_STALL (R407). -/
def execQueueStall (q : QueueId) (s : State) : Res :=
  onQueue q s <| .next <| if s.hostUp && s.queueOn q then s.stallQueue q else s

/-- The next command packet by priority, then by commit (R406). -/
def nextCommand (l : List Packet) : Option Packet :=
  l.foldl (fun b p => match b with | none => some p | some q => if q.prio.toNat < p.prio.toNat then some p else some q) none

/-! ## Mailbox and event queue (R418, R419) -/

/-- HOST_MAILBOX_WRITE (R418): a write of MB_DATA, whole or by halves, or of MB_STAT. -/
def execHostMailboxWrite (c : CellNo) (part : WinPart) (stat : Bool) (v : Long) (s : State) : Res :=
  onCell c s <| .next <|
    if !(s.hostUp && s.vfOn) then s
    else if stat then s.modHost c fun h => { h with mbRej := h.mbRej && !v.getLsbD 1 }
    else
      match part with
      | .whole => s.mailboxWrite c v
      | .low => s.modHost c fun h => { h with mbLow := v.setWidth 32 }
      | .high => s.mailboxWrite c (v.setWidth 32 ++ (s.cell c).host.mbLow)

/-- MB_ACK_WRITE (R418). -/
def execMbAckWrite (c : CellNo) (v : Byte) (s : State) : Res := onStarted c s (.next (s.ioWriteAs c .core false 0x0F09 v))

/-- EVENT_PUSH (R419): a write of a byte of EV_DATA. -/
def execEventPush (c : CellNo) (by_ : Agent) (i : Fin 8) (v : Byte) (s : State) : Res :=
  onStarted c s (.next (s.ioWriteAs c by_ false (0x0F10 + i.val) v))

/-- EVENT_DROP (R408, R420): a write of EV_CTL.DROP. -/
def execEventDrop (c : CellNo) (s : State) : Res := onStarted c s (.next (s.ioWriteAs c .core false 0x0F18 2))

/-! ## Virtual terminal (R476 to R478) -/

/-- VT_TX_WRITE. -/
def execVtTxWrite (c : CellNo) (v : Byte) (s : State) : Res := onStarted c s (.next (s.ioWriteAs c .core false 0x03C0 v))

/-- VT_RX_READ. -/
def execVtRxRead (c : CellNo) (s : State) : Res := onStarted c s (.next (s.coreRead c 0x03C1))

/-- VT_HOST_RX_READ. -/
def execVtHostRxRead (c : CellNo) (s : State) : Res :=
  onCell c s <| .next <| if s.hostUp && s.vfOn then s.vtHostRead c else s

/-- VT_HOST_TX_WRITE: VT_HOST_TX, or VT_HOST_STAT. -/
def execVtHostTxWrite (c : CellNo) (stat : Bool) (v : Word) (s : State) : Res :=
  onCell c s <| .next <| if s.hostUp && s.vfOn then s.vtHostWrite c stat v else s

end Sys2Proof.Machine
end

