-- ==== Sys2Proof/Machine/DictCmd.lean ====
section
/-! DEFINITION. The commands of the object dictionary: messages on its transports, sessions, and the writes and reads of single
objects that have rows of their own (R434 to R457). -/

namespace Sys2Proof.Machine

/-! ## Answers -/

/-- DONE of the mailbox with the response in MBX_BUF, and PF0 vector 2 (R448). -/
def State.mbxEnd (s : State) (rsp : List Byte) : State :=
  (s.modMc fun m => { m with
    mbxBusy := false, mbxDone := true, mbxRspLen := BitVec.ofNat 32 rsp.length, mbxBuf := patchList m.mbxBuf 0 rsp }).msi 0 2

/-- CMD_DONE of the command packet that is being served (R406, R449). -/
def State.cmdEnd (s : State) (rsp : List Byte) : State :=
  match s.link.serving with
  | none => s
  | some p =>
    let pad := rsp ++ List.replicate (48 - rsp.length) 0
    (s.modLink fun l => { l with serving := none }).raise 0x17 0 false (p.pseq.toNat + 65536 * (rsp.getD 3 0).toNat) (packWords pad)

/-- A 10BASE-T1S frame goes out: destination, source, EtherType, payload (R445). -/
def State.t1sSend (s : State) (mac : Long) (payload : List Byte) : State :=
  let be (n : Nat) (k : Nat) : List Byte := (toBytes n k).reverse
  s.modMc fun m => { m with t1sTx := be mac.toNat 6 ++ be (s.objOr 0x2600 2 0) 6 ++ be (s.objOr 0x2600 3 0x88B5) 2 ++ payload }

/-- Frames of a message on a CAN bus: NODE, SEG and LAST, the next part (R446). -/
def canFrames (node : Byte) (parts : List (List Byte)) : List (List Byte) :=
  (List.range parts.length).map fun i =>
    [node, BitVec.ofNat 8 (i % 64 + 64 * b2n (i + 1 == parts.length))] ++ parts.getD i []

/-- A message in segments of at most `n` bytes. -/
def canSegments (n : Nat) (l : List Byte) : List (List Byte) :=
  (List.range ((l.length + n - 1) / n)).map fun i => (l.drop (n * i)).take n

/-- A response goes out on CAN `k`; beyond 64 segments, STATUS TOOBIG goes in its place. -/
def State.canSend (s : State) (k : Fin 2) (fd : Bool) (node : Byte) (rsp : List Byte) : State :=
  let parts := canSegments (if fd then 62 else 6) rsp
  let small := (rsp.take 3) ++ [0x0D] ++ (rsp.drop 4).take 4 ++ [0, 0] ++ (rsp.drop 10).take 2
  let parts := if 64 < parts.length then canSegments (if fd then 62 else 6) small else parts
  s.modMc fun m => { m with can := m.can.set k { m.can.get k with tx := canFrames node parts } }

/-- The response to a request that went on to another member reaches its client. -/
def State.answer (s : State) (q : Session) (rsp : List Byte) : State :=
  let s := (s.keep q q.fwd rsp).modSession q fun k => { k with fwd := [] }
  match q.transport with
  | 1 => s.mbxEnd rsp
  | 2 => s.cmdEnd rsp
  | 3 => s.t1sSend q.mac rsp
  | 4 => s.canSend 0 (s.objOr 0x2601 2 2 != 0) q.node rsp
  | 5 => s.canSend 1 (s.objOr 0x2602 2 2 != 0) q.node rsp
  | _ => s

/-! ## Messages named by their origin (R439 to R444) -/

/-- A message of origin `o` whose operation must be `op`, with the response kept by its session; `mac` is an HDP client's
address. -/
def dictMessage (o : Origin) (op : Nat) (mac : Long) (body : List Byte) (s : State) : Res :=
  if !s.dictServed || (msgHead body).op != op then .next s
  else
    match o.transport with
    | 1 => .next (s.serveFixed 1 1 body true 240).1
    | 2 => .next (s.serveFixed 2 2 body false 48).1
    | 3 => .next (match s.serveClient 3 0 mac body false 1500 with
      | (t, some r) => if t.pwr.mode = .hold then t else t.t1sSend mac r
      | (t, none) => t)
    | 4 => .next (match s.serveClient 4 o.node 0 body true 3968 with
      | (t, some r) => t.canSend 0 (s.objOr 0x2601 2 2 != 0) o.node r
      | (t, none) => t)
    | 5 => .next (match s.serveClient 5 o.node 0 body true 3968 with
      | (t, some r) => t.canSend 1 (s.objOr 0x2602 2 2 != 0) o.node r
      | (t, none) => t)
    | _ => .next s

/-- DICT_OPEN (R439). -/
def execDictOpen (o : Origin) (mac : Long) (body : List Byte) (s : State) : Res := dictMessage o 1 mac body s
/-- DICT_CLOSE (R439). -/
def execDictClose (o : Origin) (body : List Byte) (s : State) : Res :=
  dictMessage o 2 (match s.originSession o with | some q => q.mac | none => 0) body s
/-- DICT_READ (R435). -/
def execDictRead (o : Origin) (body : List Byte) (s : State) : Res :=
  dictMessage o 3 (match s.originSession o with | some q => q.mac | none => 0) body s
/-- DICT_WRITE (R435). -/
def execDictWrite (o : Origin) (body : List Byte) (s : State) : Res :=
  dictMessage o 4 (match s.originSession o with | some q => q.mac | none => 0) body s
/-- DICT_KEEP (R443). -/
def execDictKeep (o : Origin) (body : List Byte) (s : State) : Res :=
  dictMessage o 5 (match s.originSession o with | some q => q.mac | none => 0) body s

/-- SESSION_IDLE_TIMEOUT (R439). -/
def execSessionIdleTimeout (session : Half) (s : State) : Res :=
  match s.mc.sessions.find? fun q => q.num == session && q.dev == s.devId && decide (3 ≤ q.transport.val) with
  | none => .next s
  | some q => .next (if s.dictServed then s.closeSession q 1 else s)

/-! ## PF0 mailbox and command queue -/

/-- MBX_GO (R448): the request length and the buffer as the host has written them. -/
def execMbxGo (len : Nat) (buf : List Byte) (s : State) : Res :=
  if !s.hostUp || !s.dictServed || s.mc.mbxBusy then .next s
  else
    let buf := (buf ++ List.replicate 240 0).take 240
    let s := s.modMc fun m => { m with mbxBuf := buf, mbxReqLen := BitVec.ofNat 32 len, mbxBusy := true, mbxDone := false }
    if len < 12 || decide (240 < len) then .next (s.mbxEnd (buf.take 2 ++ [2, 6] ++ (buf.drop 4).take 4 ++ [0, 0] ++ (buf.drop 10).take 2))
    else if buf.getD 0 0 != 1 then .next (s.mbxEnd [])
    else
      match s.serveFixed 1 1 (buf.take len) true 240 with
      | (t, .later) => .next t
      | (t, .now r) => .next (if t.pwr.mode = .hold then t else t.mbxEnd r)

/-- COMMAND_PACKET_TAKE (R406, R449). -/
def execCommandPacketTake (s : State) : Res :=
  if !s.queueOn .command || !s.dictServed || s.link.serving.isSome || s.mc.mbxBusy then .next s
  else
    match nextCommand s.link.command.waiting with
    | none => .next s
    | some p =>
      let s := s.modLink fun l => { l with command := { l.command with waiting := l.command.waiting.erase p }, serving := some p }
      let s := s.roomBack .command
      let body := p.words.flatMap fun w => toBytes w.toNat 8
      if body.getD 0 0 != 1 then .next (s.modLink fun l => { l with serving := none })
      else
        match s.serveFixed 2 2 body false 48 with
        | (t, .later) => .next t
        | (t, .now r) => .next (if t.pwr.mode = .hold then t else t.cmdEnd r)

/-! ## The swarm (R388, R440, R441) -/

/-- A body that another member sends on, whole: a response for a session of this device, or a request that this device owns. -/
def State.dictIn (s : State) (src : BitVec 3) (body : List Byte) : State :=
  let h := msgHead body
  if !s.dictServed || decide (body.length < 12) || body.getD 0 0 != 1 then s
  else if h.flags.getLsbD 1 then
    match s.mc.sessions.find? fun q => q.num == h.session && q.dev == s.devId && !q.fwd.isEmpty && (msgHead q.fwd).tid == h.tid with
    | some q => s.answer q body
    | none => s
  else
    match s.originSession { transport := 6, dev := src.toFin, node := 0, session := h.session } with
    | none => s
    | some q =>
      if msgBad h body false || !(h.op == 3 || h.op == 4) then s.sendDict src h.session (rspBare h 6)
      else
        match (s.noteSession q).execItems q { h with target := 0 } body 1500 with
        | (t, .later) => t
        | (t, .now r) => if t.pwr.mode = .hold then t else t.sendDict src h.session r

/-- JAJAN_DICT (R376, R388). -/
def execJajanDict (l : Fin 7) (bytes : List Byte) (s : State) : Res :=
  receive l 8 bytes (fun j s =>
    match s.gather l j with
    | (t, some body) => t.dictIn j.src body
    | (t, none) => t) s

/-! ## 10BASE-T1S (R445) -/

/-- The receive signals of the MII reach the MC: F3 is enabled on RX_CLK, RX_DV and RXD0 to RXD3 (R535). -/
def State.miiOpen (s : State) : Bool := (List.range 6).all fun k => s.fnOpen (23 + k) 3

/-- T1S_FRAME: a frame from its destination address on; `ok` where it has no error. -/
def execT1sFrame (ok : Bool) (bytes : List Byte) (s : State) : Res :=
  let be (k n : Nat) : Nat := ofBytes ((bytes.drop k).take n).reverse
  if !s.dictServed || s.objOr 0x2600 1 1 == 0 || !s.miiOpen then .next s
  else if !ok then .next (s.modMc fun m => { m with t1sRxErr := satInc m.t1sRxErr })
  else if bytes.length < 14 || !(be 0 6 == s.objOr 0x2600 2 0 || be 0 6 == 2 ^ 48 - 1) then .next s
  else if be 12 2 = s.objOr 0x2600 3 0x88B5 then
    let mac := BitVec.ofNat 64 (be 6 6)
    match s.serveClient 3 0 mac ((bytes.drop 14).take 1500) false 1500 with
    | (t, some r) => .next (t.t1sSend mac r)
    | (t, none) => .next t
  else if s.objOr 0x2600 9 0 ≠ 0 && be 12 2 == s.objOr 0x2600 9 0 then
    if s.mc.t1sRx.isEmpty then .next ((s.modMc fun m => { m with t1sRx := bytes.take 512 }).fireShared 0x92)
    else .next (s.modMc fun m => { m with t1sLost := satInc m.t1sLost })
  else .next s

/-- T1S_APP_RX_READ (R445). -/
def execT1sAppRxRead (o : Origin) (s : State) : Res := dictReadOne o 0x2600 0x0A s

/-! ## CAN (R446, R447) -/

/-- The controller runs. -/
def State.canOn (s : State) (k : Fin 2) : Bool :=
  s.dictServed && s.objOr (0x2601 + k.val) 1 0 != 0 && ((s.mc.can.get k).state == 1 || (s.mc.can.get k).state == 2)

/-- An unfinished message of a node is discarded and counted. -/
def Can.drop (k : Can) (node : Byte) : Can :=
  { k with parts := k.parts.filter fun p => p.node != node, segErr := satInc k.segErr }

/-- One segment of a message; the whole body at its last. -/
def Can.segment (k : Can) (node : Byte) (seg : Nat) (last : Bool) (data : List Byte) : Can × Option (List Byte) :=
  let rest := k.parts.filter fun p => p.node != node
  let body : Option (List Byte) :=
    if seg = 0 then some data
    else
      match k.parts.find? (·.node == node) with
      | none => none
      | some p => if p.nextSeg = seg then some (p.body ++ data) else none
  match body with
  | none => (k.drop node, none)
  | some b =>
    if last then ({ k with parts := rest }, some b)
    else if seg = 63 then (k.drop node, none)
    else ({ k with parts := { node := node, nextSeg := seg + 1, body := b } :: rest }, none)

/-- Give CAN controller `k` the value `v`. -/
def State.setCan (s : State) (k : Fin 2) (v : Can) : State := s.modMc fun m => { m with can := m.can.set k v }

/-- CAN_FRAME: format, identifier and data bytes; nothing is received without F2 on the pin of CANk_RX (R535). -/
def execCanFrame (k : Fin 2) (fd : Bool) (id : BitVec 11) (data : List Byte) (s : State) : Res :=
  let n := 0x2601 + k.val
  let c := s.mc.can.get k
  if !s.canOn k || !s.fnOpen (1 + 2 * k.val) 2 || (fd && s.objOr n 2 2 == 0) then .next s
  else if id.toNat = s.objOr n 5 0 then
    let node := data.getD 0 0
    let ctl := data.getD 1 0
    if data.length < 2 || node == 0 || decide (127 < node.toNat) || ctl.getLsbD 7 then .next s
    else
      match c.segment node (ctl.toNat % 64) (ctl.getLsbD 6) (data.drop 2) with
      | (c, none) => .next (s.setCan k c)
      | (c, some body) =>
        match (s.setCan k c).serveClient (if k.val = 0 then 4 else 5) node 0 body (!fd) 3968 with
        | (t, some r) => .next (t.canSend k fd node r)
        | (t, none) => .next t
  else
    let mask := s.objOr n 7 0
    if mask ≠ 0 && Nat.land id.toNat mask == Nat.land (s.objOr n 6 0x7FF) mask && c.appRx.isEmpty then
      .next ((s.setCan k { c with appRx := toBytes id.toNat 2 ++ [BitVec.ofNat 8 data.length] ++ data }).fireShared
        (if k.val = 0 then 0x90 else 0x91))
    else .next s

/-- CAN_SEG_TIMEOUT. -/
def execCanSegTimeout (k : Fin 2) (node : Byte) (s : State) : Res :=
  .next (if (s.mc.can.get k).parts.any (·.node == node) then s.setCan k ((s.mc.can.get k).drop node) else s)

/-- CAN_APP_RX_READ (R447). -/
def execCanAppRxRead (k : Fin 2) (o : Origin) (s : State) : Res := dictReadOne o (0x2601 + k.val) 8 s

/-- CAN_CONTROLLER_STATE_CHANGE (R446, R447): 1 error-active, 2 error-passive, 3 bus-off. -/
def execCanControllerStateChange (k : Fin 2) (st : Fin 4) (s : State) : Res :=
  let c := s.mc.can.get k
  if !s.dictServed || c.state == 0 || st.val == 0 || c.state.toNat == st.val then .next s
  else
    let s := (s.setCan k { c with state := BitVec.ofNat 8 st.val }).raiseEvent 0x50 k.val false st.val
    .next (if st.val = 3 then s.closeTransport (if k.val = 0 then 4 else 5) else s)

/-- JR_BLOCK_READ (R454). -/
def execJrBlockRead (o : Origin) (s : State) : Res := dictReadOne o 0xA000 5 s

/-! ## Writes of single objects -/

/-- CELL_PROFILE_WRITE (R21). -/
def execCellProfileWrite (c : CellNo) (o : Origin) (v : Byte) (s : State) : Res := dictPut o (0x4000 + 16 * c.val) 3 v.toNat s
/-- SH_ROUTE_WRITE (R158, R159). -/
def execShRouteWrite (n : Fin 153) (o : Origin) (v : Word) (s : State) : Res := dictPut o (0x2200 + n.val) 1 v.toNat s
/-- IMG_LOAD (R178). -/
def execImgLoad (c : CellNo) (o : Origin) (v : Byte) (s : State) : Res := dictPut o (0x4001 + 16 * c.val) 4 v.toNat s
/-- SHARE_SCOPE_WRITE (R175). -/
def execShareScopeWrite (c : CellNo) (o : Origin) (v : Byte) (s : State) : Res := dictPut o (0x4001 + 16 * c.val) 0x0A v.toNat s
/-- WINDOW_WRITE (R242). -/
def execWindowWrite (h : Fin 4) (w : Fin 16) (sub : Byte) (o : Origin) (v : Long) (s : State) : Res :=
  dictPut o (0xB100 + 16 * h.val + w.val) sub.toNat v.toNat s
/-- HS_SRC_WRITE (R339). -/
def execHsSrcWrite (n : Fin 4) (o : Origin) (v : Word) (s : State) : Res := dictPut o (0x6100 + n.val) 3 v.toNat s
/-- GAIN_WRITE (R340, R341). -/
def execGainWrite (g : GainId) (o : Origin) (v : Half) (s : State) : Res :=
  match g with
  | .host c => dictPut o (0x4004 + 16 * c.val) 3 v.toNat s
  | .ear n => dictPut o (0x6100 + n.val) 5 v.toNat s
  | .side n => dictPut o (0x6100 + n.val) 6 v.toNat s
  | .mic n => dictPut o (0x6100 + n.val) 7 v.toNat s
/-- FENCE_WRITE (R365). -/
def execFenceWrite (sub : Byte) (o : Origin) (v : Long) (s : State) : Res := dictPut o 0x3001 sub.toNat v.toNat s
/-- CAP_RECORD_WRITE (R367). -/
def execCapRecordWrite (r : Fin 32) (sub : Byte) (o : Origin) (v : Long) (s : State) : Res :=
  dictPut o (0x3400 + r.val) sub.toNat v.toNat s
/-- LK_RETRAIN_WRITE (R375). -/
def execLkRetrainWrite (l : Fin 7) (o : Origin) (v : Byte) (s : State) : Res := dictPut o (0x7100 + l.val) 7 v.toNat s
/-- SW_ELECT_WRITE (R383). -/
def execSwElectWrite (o : Origin) (v : Byte) (s : State) : Res := dictPut o 0x7000 6 v.toNat s
/-- HD_EN_WRITE (R426). -/
def execHdEnWrite (h : Fin 4) (o : Origin) (v : Byte) (s : State) : Res := dictPut o (0xB000 + h.val) 1 v.toNat s
/-- GP_OWNER_WRITE (R539). -/
def execGpOwnerWrite (p : Fin 128) (o : Origin) (v : Word) (s : State) : Res := dictPut o (0x2700 + p.val) 4 v.toNat s
/-- PD_EN_WRITE (R490, R492). -/
def execPdEnWrite (d : Fin 63) (o : Origin) (v : Byte) (s : State) : Res := dictPut o (0x8100 + d.val) 1 v.toNat s
/-- MODE_REQ_READY (R485). -/
def execModeReqReady (o : Origin) (s : State) : Res := dictPut o 0x8000 2 5 s
/-- MODE_REQ_SERVE (R485). -/
def execModeReqServe (o : Origin) (s : State) : Res := dictPut o 0x8000 2 6 s
/-- MODE_REQ_RETAIN (R485, R494). -/
def execModeReqRetain (o : Origin) (s : State) : Res := dictPut o 0x8000 2 9 s
/-- MODE_REQ_DIAG (R485). -/
def execModeReqDiag (o : Origin) (s : State) : Res := dictPut o 0x8000 2 10 s
/-- DEV_RESET_WRITE (R496, R505): the object, or with no origin the PF0 word, which the host link serves while PD49 is on. -/
def execDevResetWrite (o : Option Origin) (v : Byte) (s : State) : Res :=
  match o with
  | some o => dictPut o 0x8000 0x12 v.toNat s
  | none => .next (if v = 0xA5 && s.domOn 49 then s.deviceReset 4 else s)

end Sys2Proof.Machine
end

