-- ==== Sys2Proof/Machine/DebugCmd.lean ====
section
/-! DEFINITION. The commands of debug and access control, and the TAP (R458 to R482). -/

namespace Sys2Proof.Machine

/-- DBG_CHAL_READ (R461). -/
def execDbgChalRead (c : CellNo) (o : Origin) (s : State) : Res := dictReadOne o (0x9000 + 16 * c.val) 3 s

/-- DBG_RESP_WRITE (R462). -/
def execDbgRespWrite (c : CellNo) (o : Origin) (resp : List Byte) (s : State) : Res :=
  dictWriteOne o (0x9000 + 16 * c.val) 4 resp s

/-- CHALLENGE_EXPIRE (R461): 10 s have passed. -/
def execChallengeExpire (session : Half) (s : State) : Res :=
  .next (s.modMc fun m => { m with sessions := m.sessions.map fun q => if q.num = session then { q with challenges := [] } else q })

/-- DBG_LOCKOUT_END (R463). -/
def execDbgLockoutEnd (s : State) : Res := .next { s with dbgDev := { s.dbgDev with until_ := none } }

/-- DBG_DROP_WRITE (R459, R467). -/
def execDbgDropWrite (c : CellNo) (o : Origin) (v : Byte) (s : State) : Res :=
  dictPut o (0x9000 + 16 * c.val) 5 v.toNat s

/-- DBG_HALT (R464, R465): an asked halt that is due is taken; with none asked, session `o` asks, and it is taken if due. -/
def execDbgHalt (c : CellNo) (o : Origin) (s : State) : Res :=
  if (s.cell c).dbg.haltReq then .next (s.takeHalt c)
  else
    match dictPut o (0x9000 + 16 * c.val) 6 1 s with
    | .next t => .next (t.takeHalt c)
    | .fault f => .fault f
    | .refused r => .refused r

/-- The cell's first accepted command is `k`. -/
def Cell.cmdFirst (x : Cell) (k : CellCmd) : Bool := match x.ctl.cmds with | q :: _ => q == k | [] => false

/-- DBG_STEP (R466): an accepted STEP is taken; with none accepted, session `o` asks for one. -/
def execDbgStep (c : CellNo) (o : Origin) (s : State) : Res :=
  if (s.cell c).cmdFirst .step then s.takeStep c
  else
    match dictPut o (0x9000 + 16 * c.val) 6 2 s with
    | .next t => t.takeStep c
    | .fault f => .fault f
    | .refused r => .refused r

/-- DBG_RESUME (R467), with the program beam at pixel clock `pix`. -/
def execDbgResume (c : CellNo) (o : Origin) (pix : Nat) (s : State) : Res :=
  if (s.cell c).cmdFirst .dbgResume then s.takeResume c pix
  else
    match dictPut o (0x9000 + 16 * c.val) 6 3 s with
    | .next t => t.takeResume c pix
    | .fault f => .fault f
    | .refused r => .refused r

/-- DBG_DATA_READ (R469, R471). -/
def execDbgDataRead (c : CellNo) (o : Origin) (s : State) : Res := dictReadOne o (0x9001 + 16 * c.val) 4 s

/-- DBG_DATA_WRITE (R469, R472). -/
def execDbgDataWrite (c : CellNo) (o : Origin) (bytes : List Byte) (s : State) : Res :=
  dictWriteOne o (0x9001 + 16 * c.val) 4 bytes s

/-- DBG_VT_OUT_READ (R476, R480). -/
def execDbgVtOutRead (c : CellNo) (o : Origin) (s : State) : Res := dictReadOne o (0x9003 + 16 * c.val) 1 s

/-- DBG_VT_IN_WRITE (R476, R480). -/
def execDbgVtInWrite (c : CellNo) (o : Origin) (bytes : List Byte) (s : State) : Res :=
  dictWriteOne o (0x9003 + 16 * c.val) 2 bytes s

/-! ## The TAP (R479, IEEE 1149.1) -/

/-- The next state of the TAP controller for TMS: 0 Test-Logic-Reset, 1 Run-Test/Idle, 2 to 8 Select, Capture, Shift, Exit1,
Pause, Exit2 and Update of the data registers, 9 to 15 of the instruction register. -/
def tapNext (st : Nat) (tms : Bool) : Nat :=
  match st with
  | 0 => if tms then 0 else 1
  | 1 => if tms then 2 else 1
  | 2 => if tms then 9 else 3
  | 3 => if tms then 5 else 4
  | 4 => if tms then 5 else 4
  | 5 => if tms then 8 else 6
  | 6 => if tms then 7 else 6
  | 7 => if tms then 8 else 4
  | 8 => if tms then 2 else 1
  | 9 => if tms then 0 else 10
  | 10 => if tms then 12 else 11
  | 11 => if tms then 12 else 11
  | 12 => if tms then 15 else 13
  | 13 => if tms then 14 else 13
  | 14 => if tms then 15 else 11
  | _ => if tms then 2 else 1

/-- IDCODE of the part. -/
def tapId : Part → BitVec 32
  | .ak6440fc => 0x164405A7 | .ak6440sc => 0x164405A7 | .ak6424fc => 0x164245A7 | .ak6424sc => 0x164245A7

/-- Bits of a word, least significant first. -/
def bitsOf (v : BitVec 32) : List Bool := (List.range 32).map v.getLsbD

/-- The boundary cells as the register captures them: each general-purpose pin's level, in pin order (assumption 47). -/
def State.boundary (s : State) : List Bool := (List.finRange 128).map s.pinLevel

/-- What the selected data register captures. -/
def State.tapCapture (s : State) : List Bool :=
  match s.tap.ir with
  | .idcode => bitsOf (tapId s.part)
  | .sample => s.boundary
  | .extest => if s.pwr.mode == .hold || s.pwr.mode == .diag then s.boundary else [false]
  | .bypass => [false] | .clamp => [false] | .highz => [false] | .vendor => [false]

/-- A shift register after one bit. -/
def shiftIn (l : List Bool) (b : Bool) : List Bool := l.tail ++ [b]

/-- TAP_CLOCK_EDGE: TRST_N low resets; a rising edge captures, shifts and moves on; a falling edge drives TDO and updates the
instruction register, with the instruction that its bits name as an operand (assumption 47). -/
def execTapClockEdge (trst rising tms tdi : Bool) (ir : TapInstr) (s : State) : Res :=
  let t := s.tap
  if s.pwr.mode = .off then .next s
  else if trst = false then .next { s with tap := { st := 0, ir := .idcode } }
  else if rising then
    let sh :=
      if t.st = 3 then s.tapCapture
      else if t.st = 4 || t.st == 11 then shiftIn t.shift tdi
      else if t.st = 10 then [true, false]
      else t.shift
    let n := tapNext t.st tms
    .next { s with tap := { t with st := n, shift := sh, ir := if n = 0 then .idcode else t.ir } }
  else
    .next { s with tap := { t with
      tdo := if t.st = 4 || t.st == 11 then t.shift.headD false else t.tdo
      ir := if t.st = 15 then ir else t.ir } }

end Sys2Proof.Machine
end

