-- ==== Sys2Proof/Machine/EkBranch.lean ====
section
/-! DEFINITION. Meanings of the EK8 branches, jumps and calls (R79, R80): each is its encoding, its micro-cycles and its body
within the common frame of an instruction. -/

namespace Sys2Proof.Machine

/-- BRA (R79). -/
def execBra (c : CellNo) (d8 : Byte) (s : State) : Res :=
  runInstr c [0x80, d8] 2 3 (bodyBr .ra d8) s

/-- BEQ (R79). -/
def execBeq (c : CellNo) (d8 : Byte) (s : State) : Res :=
  runInstr c [0x81, d8] 2 3 (bodyBr .eq d8) s

/-- BNE (R79). -/
def execBne (c : CellNo) (d8 : Byte) (s : State) : Res :=
  runInstr c [0x82, d8] 2 3 (bodyBr .ne d8) s

/-- BCS (R79). -/
def execBcs (c : CellNo) (d8 : Byte) (s : State) : Res :=
  runInstr c [0x83, d8] 2 3 (bodyBr .cs d8) s

/-- BCC (R79). -/
def execBcc (c : CellNo) (d8 : Byte) (s : State) : Res :=
  runInstr c [0x84, d8] 2 3 (bodyBr .cc d8) s

/-- BMI (R79). -/
def execBmi (c : CellNo) (d8 : Byte) (s : State) : Res :=
  runInstr c [0x85, d8] 2 3 (bodyBr .mi d8) s

/-- BPL (R79). -/
def execBpl (c : CellNo) (d8 : Byte) (s : State) : Res :=
  runInstr c [0x86, d8] 2 3 (bodyBr .pl d8) s

/-- BVS (R79). -/
def execBvs (c : CellNo) (d8 : Byte) (s : State) : Res :=
  runInstr c [0x87, d8] 2 3 (bodyBr .vs d8) s

/-- BVC (R79). -/
def execBvc (c : CellNo) (d8 : Byte) (s : State) : Res :=
  runInstr c [0x88, d8] 2 3 (bodyBr .vc d8) s

/-- BHI (R79). -/
def execBhi (c : CellNo) (d8 : Byte) (s : State) : Res :=
  runInstr c [0x89, d8] 2 3 (bodyBr .hi d8) s

/-- BLS (R79). -/
def execBls (c : CellNo) (d8 : Byte) (s : State) : Res :=
  runInstr c [0x8A, d8] 2 3 (bodyBr .ls d8) s

/-- BGE (R79). -/
def execBge (c : CellNo) (d8 : Byte) (s : State) : Res :=
  runInstr c [0x8B, d8] 2 3 (bodyBr .ge d8) s

/-- BLT (R79). -/
def execBlt (c : CellNo) (d8 : Byte) (s : State) : Res :=
  runInstr c [0x8C, d8] 2 3 (bodyBr .lt d8) s

/-- BGT (R79). -/
def execBgt (c : CellNo) (d8 : Byte) (s : State) : Res :=
  runInstr c [0x8D, d8] 2 3 (bodyBr .gt d8) s

/-- BLE (R79). -/
def execBle (c : CellNo) (d8 : Byte) (s : State) : Res :=
  runInstr c [0x8E, d8] 2 3 (bodyBr .le d8) s

/-- BSR (R79): pushes Next and branches. -/
def execBsr (c : CellNo) (d8 : Byte) (s : State) : Res :=
  runInstr c [0x8F, d8] 5 5 (bodyBsr d8) s

/-- JMP (R80). -/
def execJmp (c : CellNo) (t : Target) (s : State) : Res :=
  runInstr c (jmpBytes t) (jmpCycles t) (jmpCycles t) (bodyJmp t) s

/-- CALL (R80): pushes Next. -/
def execCall (c : CellNo) (t : Target) (s : State) : Res :=
  runInstr c (callBytes t) (jmpCycles t + 2) (jmpCycles t + 2) (bodyCall t) s

/-- DJNZ (R80). -/
def execDjnz (c : CellNo) (d : Fin 16) (d8 : Byte) (s : State) : Res :=
  runInstr c [0x94, r1 d, d8] 3 4 (bodyDjnz d d8) s

/-- TRAP #n (R80, R90): the entry through vector n with Next as return address; it counts once (R103). -/
def execTrap (c : CellNo) (n : Fin 4) (s : State) : Res :=
  runInstr c [0x95, BitVec.ofNat 8 n.val] 7 7 (fun _ _ => .enter n.val) s

end Sys2Proof.Machine
end

