-- ==== Sys2Proof/Machine/EkByte.lean ====
section
/-! DEFINITION. Meanings of the EK8 byte instructions (R70 to R72): each is its encoding, its micro-cycles and its body
within the common frame of an instruction. -/

namespace Sys2Proof.Machine

/-- ADD bd,bs and bd,#i8 (R70, R71). -/
def execAdd (c : CellNo) (d : Fin 16) (x : ByteSrc) (s : State) : Res :=
  runInstr c (aluBytes .add d x) (aluCycles x) (aluCycles x) (bodyAlu .add d x) s

/-- ADC bd,bs and bd,#i8 (R70, R71). -/
def execAdc (c : CellNo) (d : Fin 16) (x : ByteSrc) (s : State) : Res :=
  runInstr c (aluBytes .adc d x) (aluCycles x) (aluCycles x) (bodyAlu .adc d x) s

/-- SUB bd,bs and bd,#i8 (R70, R71). -/
def execSub (c : CellNo) (d : Fin 16) (x : ByteSrc) (s : State) : Res :=
  runInstr c (aluBytes .sub d x) (aluCycles x) (aluCycles x) (bodyAlu .sub d x) s

/-- SBC bd,bs and bd,#i8 (R70, R71). -/
def execSbc (c : CellNo) (d : Fin 16) (x : ByteSrc) (s : State) : Res :=
  runInstr c (aluBytes .sbc d x) (aluCycles x) (aluCycles x) (bodyAlu .sbc d x) s

/-- AND bd,bs and bd,#i8 (R70, R71). -/
def execAnd (c : CellNo) (d : Fin 16) (x : ByteSrc) (s : State) : Res :=
  runInstr c (aluBytes .and d x) (aluCycles x) (aluCycles x) (bodyAlu .and d x) s

/-- OR bd,bs and bd,#i8 (R70, R71). -/
def execOr (c : CellNo) (d : Fin 16) (x : ByteSrc) (s : State) : Res :=
  runInstr c (aluBytes .or d x) (aluCycles x) (aluCycles x) (bodyAlu .or d x) s

/-- XOR bd,bs and bd,#i8 (R70, R71). -/
def execXor (c : CellNo) (d : Fin 16) (x : ByteSrc) (s : State) : Res :=
  runInstr c (aluBytes .xor d x) (aluCycles x) (aluCycles x) (bodyAlu .xor d x) s

/-- CMP bd,bs and bd,#i8 (R70, R71). -/
def execCmp (c : CellNo) (d : Fin 16) (x : ByteSrc) (s : State) : Res :=
  runInstr c (aluBytes .cmp d x) (aluCycles x) (aluCycles x) (bodyAlu .cmp d x) s

/-- MOV bd,bs and bd,#i8 (R70, R71). -/
def execMov (c : CellNo) (d : Fin 16) (x : ByteSrc) (s : State) : Res :=
  runInstr c (aluBytes .mov d x) (aluCycles x) (aluCycles x) (bodyAlu .mov d x) s

/-- TST bd,bs and bd,#i8 (R70, R71). -/
def execTst (c : CellNo) (d : Fin 16) (x : ByteSrc) (s : State) : Res :=
  runInstr c (aluBytes .tst d x) (aluCycles x) (aluCycles x) (bodyAlu .tst d x) s

/-- MUL (R70, R87): the unsigned product. -/
def execMul (c : CellNo) (d r : Fin 16) (s : State) : Res :=
  runInstr c [0x1A, rr d r] 2 2 (bodyMul false d r) s

/-- MULS (R70, R87): the signed product. -/
def execMuls (c : CellNo) (d r : Fin 16) (s : State) : Res :=
  runInstr c [0x1B, rr d r] 2 2 (bodyMul true d r) s

/-- XCH (R70, R65). -/
def execXch (c : CellNo) (d r : Fin 16) (s : State) : Res :=
  runInstr c [0x1C, rr d r] 3 3 (coreBody (xchCore d r)) s

/-- CLZ (R70). -/
def execClz (c : CellNo) (d r : Fin 16) (s : State) : Res :=
  runInstr c [0x1D, rr d r] 2 2 (coreBody (clzCore d r)) s

/-- INC (R72). -/
def execInc (c : CellNo) (d : Fin 16) (s : State) : Res :=
  runInstr c [0x30, r1 d] 2 2 (bodyUn .inc d) s

/-- DEC (R72). -/
def execDec (c : CellNo) (d : Fin 16) (s : State) : Res :=
  runInstr c [0x31, r1 d] 2 2 (bodyUn .dec d) s

/-- NEG (R72). -/
def execNeg (c : CellNo) (d : Fin 16) (s : State) : Res :=
  runInstr c [0x32, r1 d] 2 2 (bodyUn .neg d) s

/-- NOT (R72). -/
def execNot (c : CellNo) (d : Fin 16) (s : State) : Res :=
  runInstr c [0x33, r1 d] 2 2 (bodyUn .not d) s

/-- SHL (R72). -/
def execShl (c : CellNo) (d : Fin 16) (s : State) : Res :=
  runInstr c [0x34, r1 d] 2 2 (bodyUn .shl d) s

/-- SHR (R72). -/
def execShr (c : CellNo) (d : Fin 16) (s : State) : Res :=
  runInstr c [0x35, r1 d] 2 2 (bodyUn .shr d) s

/-- SAR (R72). -/
def execSar (c : CellNo) (d : Fin 16) (s : State) : Res :=
  runInstr c [0x36, r1 d] 2 2 (bodyUn .sar d) s

/-- ROL (R72). -/
def execRol (c : CellNo) (d : Fin 16) (s : State) : Res :=
  runInstr c [0x37, r1 d] 2 2 (bodyUn .rol d) s

/-- ROR (R72). -/
def execRor (c : CellNo) (d : Fin 16) (s : State) : Res :=
  runInstr c [0x38, r1 d] 2 2 (bodyUn .ror d) s

/-- SWAP (R72). -/
def execSwap (c : CellNo) (d : Fin 16) (s : State) : Res :=
  runInstr c [0x39, r1 d] 2 2 (bodyUn .swap d) s

/-- PUSH (R72). -/
def execPush (c : CellNo) (r : Fin 16) (s : State) : Res :=
  runInstr c [0x3A, r1 r] 3 3 (bodyPush fun k => [k.rb r]) s

/-- POP (R72). -/
def execPop (c : CellNo) (d : Fin 16) (s : State) : Res :=
  runInstr c [0x3B, r1 d] 3 3 (bodyPop 1 (popB d)) s

/-- MFF (R72): bd becomes F. -/
def execMff (c : CellNo) (d : Fin 16) (s : State) : Res :=
  runInstr c [0x3C, r1 d] 2 2 (coreBody fun k => k.setB d k.f) s

/-- MTF (R72): F becomes bs, I included. -/
def execMtf (c : CellNo) (r : Fin 16) (s : State) : Res :=
  runInstr c [0x3D, r1 r] 2 2 (coreBody fun k => { k with f := loadF (k.rb r) }) s

/-- MUL_PRODUCT_LAND (R87, R107): the micro-cycles of waits or of a pace hold let the product in flight land. -/
def execMulProductLand (c : CellNo) (s : State) : Res := onCell c s (.next (s.modCore c Core.land))

end Sys2Proof.Machine
end

