-- ==== Sys2Proof/Machine/EkControl.lean ====
section
/-! DEFINITION. Meanings of the EK8 control instructions (R69): each is its encoding, its micro-cycles and its body
within the common frame of an instruction. -/

namespace Sys2Proof.Machine

/-- EI (R69): I becomes 1. -/
def execEi (c : CellNo) (s : State) : Res :=
  runInstr c [0x02] 1 1 (coreBody fun k => { k with f := k.f ||| fI }) s

/-- DI (R69): I becomes 0. -/
def execDi (c : CellNo) (s : State) : Res :=
  runInstr c [0x03] 1 1 (coreBody fun k => { k with f := k.f &&& ~~~fI }) s

/-- RET (R69): pops PC. -/
def execRet (c : CellNo) (s : State) : Res :=
  runInstr c [0x04] 5 5 bodyRet s

/-- RETT (R69, R93). -/
def execRett (c : CellNo) (s : State) : Res :=
  runInstr c [0x06] 6 6 bodyRett s

/-- SCF (R69): C becomes 1. -/
def execScf (c : CellNo) (s : State) : Res :=
  runInstr c [0x07] 1 1 (coreBody fun k => { k with f := k.f ||| fC }) s

/-- CLC (R69): C becomes 0. -/
def execClc (c : CellNo) (s : State) : Res :=
  runInstr c [0x08] 1 1 (coreBody fun k => { k with f := k.f &&& ~~~fC }) s

/-- CCF (R69): C is complemented. -/
def execCcf (c : CellNo) (s : State) : Res :=
  runInstr c [0x09] 1 1 (coreBody fun k => { k with f := k.f ^^^ fC }) s

/-- PUSHF (R69): pushes F. -/
def execPushf (c : CellNo) (s : State) : Res :=
  runInstr c [0x0A] 3 3 (bodyPush fun k => [k.f]) s

/-- POPF (R69): pops F, I included. -/
def execPopf (c : CellNo) (s : State) : Res :=
  runInstr c [0x0B] 3 3 (bodyPop 1 popFCore) s

/-- NOP (R69). `err` is a microword error that the core meets in it (R136). -/
def execNop (c : CellNo) (err : Option MicroErr) (s : State) : Res :=
  match err with
  | none => runInstr c [0x00] 1 1 (fun _ s => .seq s) s
  | some e => onCell c s (if s.canIssue c then .next (s.coreCheck c e) else .next s)

/-- SLEEP (R69, R113). -/
def execSleep (c : CellNo) (s : State) : Res := runInstr c [0x01] 2 2 bodySleep s

/-- RETI (R69, R93, R154). -/
def execReti (c : CellNo) (s : State) : Res := runInstr c [0x05] 6 6 bodyRetiOr s

end Sys2Proof.Machine
end

