-- ==== Sys2Proof/Machine/EkField.lean ====
section
/-! DEFINITION. Meanings of the EK8 bit, field and permute instructions (R76 to R78): each is its encoding, its micro-cycles and its body
within the common frame of an instruction. -/

namespace Sys2Proof.Machine

/-- INS (R76, R78); `w` is the field width less 1. -/
def execIns (c : CellNo) (d r : Fin 16) (w o : Fin 8) (s : State) : Res :=
  runInstr c [0x70, rr d r, fo w o] 3 3 (coreBody (insCore d r (w.val + 1) o.val)) s

/-- EXT (R76, R78); `w` is the field width less 1. -/
def execExt (c : CellNo) (d r : Fin 16) (w o : Fin 8) (s : State) : Res :=
  runInstr c [0x71, rr d r, fo w o] 3 3 (coreBody (extCore d r (w.val + 1) o.val)) s

/-- EXTS (R76, R78); `w` is the field width less 1. -/
def execExts (c : CellNo) (d r : Fin 16) (w o : Fin 8) (s : State) : Res :=
  runInstr c [0x72, rr d r, fo w o] 3 3 (coreBody (extsCore d r (w.val + 1) o.val)) s

/-- PERM (R76, R77). -/
def execPerm (c : CellNo) (d q : Fin 4) (x : ByteSrc) (s : State) : Res :=
  runInstr c (permBytes d q x) 3 3 (coreBody (permCore d q x)) s

/-- BIT (R76): Z becomes not bit n. -/
def execBit (c : CellNo) (r : Fin 16) (n : Fin 8) (s : State) : Res :=
  runInstr c [0x75, bn n r] 2 2 (coreBody (bitCore r n)) s

/-- SETB (R76). -/
def execSetb (c : CellNo) (d : Fin 16) (n : Fin 8) (s : State) : Res :=
  runInstr c [0x76, bn n d] 2 2 (coreBody (setbCore d n)) s

/-- CLRB (R76). -/
def execClrb (c : CellNo) (d : Fin 16) (n : Fin 8) (s : State) : Res :=
  runInstr c [0x77, bn n d] 2 2 (coreBody (clrbCore d n)) s

end Sys2Proof.Machine
end

