-- ==== Sys2Proof/Machine/EkLoop.lean ====
section
/-! DEFINITION. Meanings of the EK8 loop instructions (R81 to R86): each is its encoding, its micro-cycles and its body
within the common frame of an instruction. -/

namespace Sys2Proof.Machine

/-- LOOP (R81, R82). -/
def execLoop (c : CellNo) (x : LoopSrc) (len : Byte) (s : State) : Res :=
  runInstr c (loopBytes x len) 3 3 (fun c s => bodyLoop (loopBytes x len).length (x.val (s.cell c).core) len c s) s

/-- LEAVE (R81). -/
def execLeave (c : CellNo) (s : State) : Res :=
  runInstr c [0xA2] 2 2 (coreBody leaveCore) s

/-- PUSHL (R81, R86). -/
def execPushl (c : CellNo) (s : State) : Res :=
  runInstr c [0xA3] 6 6 bodyPushl s

/-- POPL (R81, R86). -/
def execPopl (c : CellNo) (s : State) : Res :=
  runInstr c [0xA4] 6 6 bodyPopl s

/-- MFLC (R81). -/
def execMflc (c : CellNo) (d : Fin 8) (s : State) : Res :=
  runInstr c [0xA5, w1 d] 2 2 (coreBody (mflcCore d)) s

end Sys2Proof.Machine
end

