-- ==== Sys2Proof/Machine/EkMemory.lean ====
section
/-! DEFINITION. Meanings of the EK8 loads, stores and I/O (R74, R75): each is its encoding, its micro-cycles and its body
within the common frame of an instruction. -/

namespace Sys2Proof.Machine

/-- LD (R74). -/
def execLd (c : CellNo) (d : Fin 16) (m : LdMode) (ecc : EccState) (s : State) : Res :=
  runInstr c (ldBytes d m) (ldCycles m) (ldCycles m) (bodyLd d m ecc) s

/-- ST (R74). -/
def execSt (c : CellNo) (r : Fin 16) (m : LdMode) (s : State) : Res :=
  runInstr c (stBytes r m) (ldCycles m) (ldCycles m) (bodySt r m) s

/-- LDW (R74). -/
def execLdw (c : CellNo) (d b : Fin 8) (inc : Bool) (s : State) : Res :=
  runInstr c [if inc then 0x59 else 0x58, ww d b] 4 4 (bodyLdw d b inc) s

/-- STW (R74). -/
def execStw (c : CellNo) (r b : Fin 8) (inc : Bool) (s : State) : Res :=
  runInstr c [if inc then 0x5B else 0x5A, ww r b] 4 4 (bodyStw r b inc) s

/-- LDC (R75). -/
def execLdc (c : CellNo) (d : Fin 16) (b : Fin 8) (inc : Bool) (s : State) : Res :=
  runInstr c [if inc then 0x61 else 0x60, bw d b] 4 4 (bodyLdc d b inc) s

/-- LDCW (R75). -/
def execLdcw (c : CellNo) (d b : Fin 8) (inc : Bool) (s : State) : Res :=
  runInstr c [if inc then 0x63 else 0x62, ww d b] 5 5 (bodyLdcw d b inc) s

/-- IN (R75, R57, R58). -/
def execIn (c : CellNo) (d : Fin 16) (m : IoMode) (s : State) : Res :=
  runInstr c (inBytes d m) (ioCycles m) (ioCycles m) (bodyIn d m) s

/-- OUT (R75, R57, R58). -/
def execOut (c : CellNo) (r : Fin 16) (m : IoMode) (s : State) : Res :=
  runInstr c (outBytes r m) (ioCycles m) (ioCycles m) (bodyOut r m) s

end Sys2Proof.Machine
end

