-- ==== Sys2Proof/Machine/EkWord.lean ====
section
/-! DEFINITION. Meanings of the EK8 word instructions (R71, R73): each is its encoding, its micro-cycles and its body
within the common frame of an instruction. -/

namespace Sys2Proof.Machine

/-- MOVW (R71, R73). -/
def execMovw (c : CellNo) (d : Fin 8) (x : WordSrc) (s : State) : Res :=
  runInstr c (movwBytes d x) (wordCycles x) (wordCycles x) (coreBody (movwCore d x)) s

/-- ADDW (R71, R73). -/
def execAddw (c : CellNo) (d : Fin 8) (x : AddwSrc) (s : State) : Res :=
  runInstr c (addwBytes d x) (addwCycles x) (addwCycles x) (coreBody (addwCore d x)) s

/-- SUBW (R73). -/
def execSubw (c : CellNo) (d r : Fin 8) (s : State) : Res :=
  runInstr c [0x41, ww d r] 2 2 (coreBody (subwCore d r)) s

/-- CMPW (R71, R73). -/
def execCmpw (c : CellNo) (d : Fin 8) (x : WordSrc) (s : State) : Res :=
  runInstr c (cmpwBytes d x) (wordCycles x) (wordCycles x) (coreBody (cmpwCore d x)) s

/-- INCW (R73). -/
def execIncw (c : CellNo) (d : Fin 8) (s : State) : Res :=
  runInstr c [0x44, w1 d] 2 2 (coreBody (stepwCore d 1)) s

/-- DECW (R73). -/
def execDecw (c : CellNo) (d : Fin 8) (s : State) : Res :=
  runInstr c [0x45, w1 d] 2 2 (coreBody (stepwCore d 0xFFFF)) s

/-- PUSHW (R73). -/
def execPushw (c : CellNo) (r : Fin 8) (s : State) : Res :=
  runInstr c [0x46, w1 r] 4 4 (bodyPush fun k => wordBytes (k.rw r)) s

/-- POPW (R73). -/
def execPopw (c : CellNo) (d : Fin 8) (s : State) : Res :=
  runInstr c [0x47, w1 d] 4 4 (bodyPop 2 (popW d)) s

/-- LDSP (R73): SP becomes ws. -/
def execLdsp (c : CellNo) (r : Fin 8) (s : State) : Res :=
  runInstr c [0x48, w1 r] 2 2 (coreBody fun k => { k with sp := k.rw r }) s

/-- STSP (R73): wd becomes SP. -/
def execStsp (c : CellNo) (d : Fin 8) (s : State) : Res :=
  runInstr c [0x49, w1 d] 2 2 (coreBody fun k => k.setW d k.sp) s

/-- MFM (R73, R87). -/
def execMfm (c : CellNo) (d : Fin 8) (s : State) : Res :=
  runInstr c [0x4A, w1 d] 2 2 (coreBody (mfmCore d)) s

/-- MTM (R73, R87). -/
def execMtm (c : CellNo) (r : Fin 8) (s : State) : Res :=
  runInstr c [0x4B, w1 r] 2 2 (coreBody (mtmCore r)) s

end Sys2Proof.Machine
end

