-- ==== Sys2Proof/Machine/EngineCmd.lean ====
section
/-! DEFINITION. The commands of the blitter, the foragers and the check unit (R270 to R296). -/

namespace Sys2Proof.Machine

/-! ## Blitter (R276 to R281) -/

/-- BLIT_START (R276). -/
def execBlitStart (c : CellNo) (s : State) : Res := coreWrite c 0x0326 1 s

/-- BLIT_CANCEL (R277). -/
def execBlitCancel (c : CellNo) (s : State) : Res := coreWrite c 0x0326 2 s

/-- BLIT_OP_BEGIN (R270, R275, R281): not while the cell is paused, moves, or is halted with FRZ at 1. -/
def execBlitOpBegin (c : CellNo) (s : State) : Res :=
  onLive c s <|
    let x := s.cell c
    match x.blit.run with
    | none => .next s
    | some o =>
      .next (if x.blit.begun || x.actual == .paused || x.inTransit || (x.ctl.st == .halted && x.regBit 0x0303 7) then s
        else s.setCell c (x.blitBegin o))

/-- Cells whose core lies in cluster `g` and whose blitter context the engine may work on. -/
def State.blitCells (s : State) (g : Fin 16) : List CellNo :=
  allCells.filter fun c =>
    let x := s.cell c
    x.blitRuns && (match x.kp.core with | some k => k.val / 8 == g.val | none => false)

/-- The context that the engine of cluster `g` serves next: they take turns in order of cell number (R279). -/
def State.blitNext (s : State) (g : Fin 16) : Option CellNo :=
  let l := s.blitCells g
  match l.find? fun c => decide (s.blitTurn.get g < c.val) with
  | some c => some c
  | none => l.head?

/-- BLIT_BURST_DONE (R137, R278, R279). -/
def execBlitBurstDone (g : Fin 16) (err : Option MicroErr) (s : State) : Res :=
  if !s.cellsRun || !s.domOn (1 + g.val) then .next s
  else
    match s.blitNext g with
    | none => .next s
    | some c =>
      let s := { s with blitTurn := s.blitTurn.set g c.val }
      match err, (s.cell c).blit.run with
      | some e, _ => .next (((s.modCell c Cell.blitEnd).microError (.cluster g) e).cellFault c 1)
      | none, some o =>
        .next { s.modCell c (fun x => x.blitBurst o s.freeCtr) with
          freeCtr := if (s.cell c).blit.selfOver then s.freeCtr + 64 else s.freeCtr }
      | none, none => .next s

/-! ## Foragers (R283 to R292) -/

/-- FG_START (R283). -/
def execFgStart (c : CellNo) (k : Fin 4) (s : State) : Res := coreWrite c (fgBase k) 1 s

/-- FG_CANCEL (R290). -/
def execFgCancel (c : CellNo) (k : Fin 4) (s : State) : Res := coreWrite c (fgBase k) 2 s

/-- FG_DESC_FETCH (R283, R284). -/
def execFgDescFetch (c : CellNo) (k : Fin 4) (s : State) : Res := onStarted c s (.next (s.modCell c fun x => x.fgFetch k))

/-- A forager read of consecutive I/O addresses, lowest first (R286). -/
def State.fgIoRead (s : State) (c : CellNo) (a : Nat) : Nat → State × List Byte
  | 0 => (s, [])
  | n + 1 =>
    let r := s.ioRead c .forager a
    let q := r.1.fgIoRead c (a + 1) n
    (q.1, r.2 :: q.2)

/-- A forager write of consecutive I/O addresses, lowest first. -/
def State.fgIoWrite (s : State) (c : CellNo) (a : Nat) : List Byte → State
  | [] => s
  | v :: r => (s.ioWriteAs c .forager false a v).fgIoWrite c (a + 1) r

/-- A beat of the source side: its bytes enter the holding register, and U of them leave it swapped (R285). -/
def State.fgSource (s : State) (c : CellNo) (k : Fin 4) (w0 w1 w2 : Nat) : State :=
  let f := (s.cell c).fg.get k
  let d := fgSide w0
  let a := d.beat f.srcBeats
  let u := fgUnit w0 w1
  let put (s : State) (bs : List Byte) : State :=
    s.modCell c fun x => x.modFg k fun f =>
      let h := f.hold ++ bs
      if u ≤ h.length then { f with srcBeats := f.srcBeats + 1, hold := [], out := fgSwap (w2 / 2 ^ 24 % 4) h }
      else { f with srcBeats := f.srcBeats + 1, hold := h }
  if d.io then
    match (List.range d.width).find? fun i => fgRefused (a + i) with
    | some i => s.modCell c fun x => x.fgFail k 4 (a + i) true
    | none => let r := s.fgIoRead c a d.width; put r.1 r.2
  else
    match (s.cell c).span a d.width with
    | none => s.modCell c fun x => x.fgFail k 3 a false
    | some bs => put s bs

/-- A beat of the destination side: bytes of the unit are written and delivered (R287). -/
def State.fgDest (s : State) (c : CellNo) (k : Fin 4) (w1 w2 w3 : Nat) : State :=
  let f := (s.cell c).fg.get k
  let d := fgSide w1
  let a := d.beat f.dstBeats
  let bs := f.out.take d.width
  let done (s : State) : State :=
    s.modCell c fun x =>
      (x.modFg k fun f => { f with dstBeats := f.dstBeats + 1, out := f.out.drop d.width }).fgDelivered k bs.length w2 w3
  if d.io then
    match (List.range d.width).find? fun i => fgRefused (a + i) with
    | some i => s.modCell c fun x => x.fgFail k 4 (a + i) true
    | none => done (s.fgIoWrite c a bs)
  else if (List.range d.width).all fun i => (s.cell c).writable (a + i) then
    done (s.modCell c fun x => x.writeMemList a bs)
  else s.modCell c fun x => x.fgFail k 3 a false

/-- FG_BEAT (R285 to R289): the next beat of a channel, of the destination while bytes wait to leave. -/
def execFgBeat (c : CellNo) (k : Fin 4) (busyDomain : Bool) (s : State) : Res :=
  onStarted c s <|
    let x := s.cell c
    let f := x.fg.get k
    if !f.busy || x.fgHeld k then .next s
    else
      match f.desc with
      | none => .next s
      | some (w0, w1, w2, w3) =>
        .next (if busyDomain then s.setCell c (x.fgEnd k 7)
          else if f.out.isEmpty then s.fgSource c k w0 w1 w2 else s.fgDest c k w1 w2 w3)

/-! ## Check unit (R295, R296) -/

/-- CK_START. -/
def execCkStart (c : CellNo) (s : State) : Res := coreWrite c 0x0381 1 s

/-- CK_FINISH. -/
def execCkFinish (c : CellNo) (s : State) : Res := coreWrite c 0x0381 2 s

/-- CK_ABORT. -/
def execCkAbort (c : CellNo) (s : State) : Res := coreWrite c 0x0381 4 s

/-- CK_FEED (R296): a write of byte `i` of CK_FEED. -/
def execCkFeed (c : CellNo) (by_ : Agent) (i : Fin 4) (v : Byte) (s : State) : Res :=
  onStarted c s (.next (s.ioWriteAs c by_ false (0x0390 + i.val) v))

/-- CK_RESULT_READY (R295). -/
def execCkResultReady (c : CellNo) (s : State) : Res := onStarted c s (.next (s.modCell c Cell.ckReady))

end Sys2Proof.Machine
end

