-- ==== Sys2Proof/Machine/HeadCmd.lean ====
section
/-! DEFINITION. The commands of the heads and their overlays, dictionary writes aside (R248, R249, R421 to R431). -/

namespace Sys2Proof.Machine

/-- A head acts while its domain is on (R483, R490). -/
def State.headUp (s : State) (h : Fin 4) : Bool := s.domOn (50 + h.val)

/-- HEAD_LINE_START (R425 to R429). -/
def execHeadLineStart (h : Fin 4) (s : State) : Res := .next (if s.headUp h then s.headLineStart h else s)

/-- OVERLAY_ROW_ARRIVE (R246, R428). -/
def execOverlayRowArrive (h : Fin 4) (l : Fin 2) (line : Nat) (dir : Word) (bytes : List Byte) (s : State) : Res :=
  .next (if s.headUp h then s.rowArrive h l line dir bytes else s)

/-- HOTPLUG (R424): the sink is remembered; an enabled head trains, or reads NOSINK. -/
def execHotplug (h : Fin 4) (sink : Option SinkCaps) (s : State) : Res :=
  let s := s.modHead h fun k => { k with sink := sink }
  .next (if s.headUp h && (s.heads.get h).on then s.trainHead h else s)

/-- HEAD_TRAIN_DONE (R424). -/
def execHeadTrainDone (h : Fin 4) (ok : Bool) (s : State) : Res :=
  .next (if s.headUp h && (s.heads.get h).link == 2 then s.headTrained h ok else s)

/-- HEAD_TRAIN_RETRY (R424): a FAILED link starts again. -/
def execHeadTrainRetry (h : Fin 4) (s : State) : Res :=
  .next (if s.headUp h && (s.heads.get h).link == 4 then s.trainHead h else s)

/-- FLIP_SEAL_WRITE (R248, R249): the block lies in PF0 and the head's domain. -/
def execFlipSealWrite (h : Fin 4) (l : Fin 2) (off : Nat) (wide : Bool) (v : Long) (s : State) : Res :=
  .next (if s.headUp h then
    s.modHead h fun k => { k with layers := k.layers.set l ((k.layers.get l).write off wide v) } else s)

/-- SEAL_WRITE (R421). -/
def execSealWrite (h : Fin 4) (l : Fin 2) (high wide : Bool) (v : Long) (s : State) : Res :=
  .next (if s.headUp h then
    s.modHead h fun k => { k with layers := k.layers.set l ((k.layers.get l).writeSeal high wide v) } else s)

end Sys2Proof.Machine
end

