-- ==== Sys2Proof/Machine/KeeperCmd.lean ====
section
/-! DEFINITION. The keeper's decisions, which the environment makes within the keeper's rules (R351 to R360). -/

namespace Sys2Proof.Machine

/-- A cell whose core the keeper may change now (R353, R360, R361). -/
def State.mayMoveCore (s : State) (c : CellNo) (core : Fin 128) (forced : Bool) : Bool :=
  let x := s.cell c
  let live := x.ctl.st == .running || x.ctl.st == .paused || x.ctl.st == .sleep ||
    (forced && (x.ctl.st == .halted || x.ctl.st == .faulted))
  let dwell := match x.kp.coreSince with
    | none => true
    | some f => decide (f + 64 ≤ s.keeper.frames)
  live && x.beam.on && !x.kp.moving && x.kp.core != some core && s.coreOk c core &&
  (forced || x.kp.core.isNone ||
    (s.keeper.frames % 16 == 0 && dwell && !s.leftLately (131072 + c.val) (core.val / 8)))

/-- KEEPER_CORE_DECISION (R351, R360): the core for the cell's next program frame start. -/
def execKeeperCoreDecision (c : CellNo) (core : Fin 128) (forced : Bool) (s : State) : Res :=
  onLive c s (.next (if s.mayMoveCore c core forced then s.modKp c fun k => { k with nextCore := some core } else s))

/-- HEAT of an entry after `n` more accesses (R356). -/
def addHeat (e : Long) (n : Nat) : Long :=
  BitVec.ofNat 64 (e.toNat - pteHeat e * 2 ^ 32 + min 4095 (pteHeat e + n) * 2 ^ 32)

/-- HEAT halved, rounded down. -/
def halfHeat (e : Long) : Long := BitVec.ofNat 64 (e.toNat - pteHeat e * 2 ^ 32 + pteHeat e / 2 * 2 ^ 32)

/-- KEEPER_PAGE_DECISION (R351, R356): once at the start of each page decision period. -/
def execKeeperPageDecision (heat : List (PageNo × Nat)) (s : State) : Res :=
  if !s.keeperOn || s.keeper.halved || s.keeper.frames % 4 != 0 then .next s
  else
    let s := heat.foldl
      (fun s h => if pteState (s.pte h.1.val) = 1 || pteState (s.pte h.1.val) = 2 then s.setPte h.1.val (addHeat (s.pte h.1.val) h.2) else s) s
    let s := s.keeper.pt.foldl (fun s e => s.setPte e.1 (halfHeat (s.pte e.1))) s
    .next (s.modKeeper fun k => { k with halved := true })

/-- CORE_MOVE_DONE (R360): the new core takes the cell; its timers make up the move. -/
def execCoreMoveDone (c : CellNo) (s : State) : Res :=
  onLive c s <|
    let x := s.cell c
    match x.kp.moving, x.kp.nextCore with
    | true, some k =>
      let s := match x.kp.core with
        | some o => s.modKeeper fun q => { q with
            left := { object := 131072 + c.val, unit := o.val / 8, frame := q.frames } :: q.left }
        | none => s
      let s := s.modKp c fun q => { q with nextCore := none, moving := false, coreMoves := satInc q.coreMoves }
      let s := (s.giveCore c k).modKeeper fun q => { q with coreMoves := satInc q.coreMoves }
      .next ((s.modCell c fun x => x.resumeCount s.devTime).fenceCheck)
    | _, _ => .next s

end Sys2Proof.Machine
end

