-- ==== Sys2Proof/Machine/MemoryCmd.lean ====
section
/-! DEFINITION. The commands of the memory channels (R503, R515 to R521). -/

namespace Sys2Proof.Machine

/-- RLD_REFRESH (R517): RL_REF16 takes effect; the bank that it holds is timing alone. -/
def execRldRefresh (ch : Fin 8) (_rank : Fin 2) (_bank : Fin 32) (s : State) : Res :=
  .next (if (s.memu.chans.get ch).st = 2 then
    s.modChan ch fun r => { r with refreshes := r.refreshes + 1, ref16 := s.objOr 0xC000 4 0 != 0 } else s)

/-- RLD_DRIFT_TRACK (R515). -/
def execRldDriftTrack (ch : Fin 8) (s : State) : Res :=
  .next (if (s.memu.chans.get ch).st = 2 then s.modChan ch fun r => { r with drifts := r.drifts + 1 } else s)

/-- PATROL_SCRUB (R521). -/
def execPatrolScrub (u : ScrubUnit) (page : Option PageNo) (word : Fin 4096) (ecc : EccState) (s : State) : Res :=
  .next (if s.scrubOn u then s.scrub u (page.map (·.val)) word.val ecc else s)

/-- CHANNEL_TRAIN_DONE (R503, R515): a channel that was switched on again outside TRAIN. -/
def execChannelTrainDone (ch : Fin 8) (t : ChanTrain) (s : State) : Res :=
  .next (if (s.memu.chans.get ch).st == 1 && s.pwr.mode != .train && s.pwr.mode != .load && t != .unpowered then
    s.chanTrained ch t else s)

end Sys2Proof.Machine
end

