-- ==== Sys2Proof/Machine/BootOps.lean ====
section
/-! DEFINITION. Boot: the boot image, the control-store sections, the boot defaults, and the micro-trap of a privileged
sequencer (R135, R140 to R142, R498 to R502). -/

namespace Sys2Proof.Machine

/-- The `n`-byte number at offset `o`, least significant byte first. -/
def leAt (l : List Byte) (o n : Nat) : Nat := ofBytes ((l.drop o).take n)

/-! ## Control-store sections (R140 to R142) -/

/-- What a record writes: words, dispatch entries or extension I/O entries, from an address. -/
structure CsRec where
  ty : Nat
  first : Nat
  vals : List Nat

/-- Bytes of one item of a record. -/
def csItem (ty : Nat) : Nat := if ty = 1 then 18 else 2

/-- The records of a section; `none` where they do not fill its length. -/
def csRecords : Nat → List Byte → Option (List CsRec)
  | 0, l => if l.isEmpty then some [] else none
  | n + 1, l =>
    let ty := leAt l 0 1
    let count := leAt l 4 2
    let size := 8 + csItem ty * count
    if l.length < size then none
    else
      (csRecords n (l.drop size)).map fun r =>
        ⟨ty, leAt l 2 2, (List.range count).map fun k => leAt l (8 + csItem ty * k) (csItem ty)⟩ :: r

/-- A control-store section: target, version, CRC found in its records, and the records where the header's CRC matches. -/
structure CsSect where
  target : Nat
  version : Word
  crc : Word
  recs : Option (List CsRec)

/-- Read a section; target 0 where the header is not that of a section of version 01h. -/
def csSection (l : List Byte) : CsSect :=
  let body := (l.drop 32).take (leAt l 8 4)
  let crc := crc32c body
  let ok := leAt l 0 4 == 0x31495343 && leAt l 5 1 == 1 && decide (32 ≤ l.length)
  { target := if ok then leAt l 4 1 else 0
    version := BitVec.ofNat 32 (leAt l 16 4)
    crc := crc
    recs := if crc.toNat == leAt l 12 4 && body.length == leAt l 8 4 then csRecords (leAt l 6 2) body else none }

/-- Addresses that a record of a target may write: type, lowest and highest. -/
def csSpan (target ty : Nat) : Option (Nat × Nat) :=
  match target, ty with
  | 1, 1 => some (0, 0x17FF)
  | 2, 1 => some (0, 0x07FF)
  | 3, 1 => some (0, 0x1FFF)
  | 4, 1 => some (0, 0x1FFF)
  | 5, 1 => some (0, 0x0FFF)
  | 6, 2 => some (0, 255)
  | 7, 1 => some (0x1800, 0x1FFF)
  | 7, 2 => some (0xC0, 0xDF)
  | 7, 3 => some (0, 31)
  | _, _ => none

/-- A record keeps the checks of R142. -/
def CsRec.ok (target : Nat) (r : CsRec) : Bool :=
  match csSpan target r.ty with
  | none => false
  | some (lo, hi) =>
    decide (lo ≤ r.first) && decide (r.first + r.vals.length ≤ hi + 1) &&
    !(target == 6 && decide (r.first ≤ 0xDF) && decide (0xC0 < r.first + r.vals.length)) &&
    (r.ty != 1 || (List.range r.vals.length).all fun k =>
      let w := BitVec.ofNat 144 (r.vals.getD k 0)
      evenQuarters w == 0 && (target != 7 || extKeeps (r.first + k) w))

/-- A section passes its CRC, word and address checks. -/
def CsSect.ok (x : CsSect) : Bool := match x.recs with | none => false | some l => l.all (CsRec.ok x.target)

/-- Write the records of an extension section. -/
def Stores.writeExt (t : Stores) (l : List CsRec) : Stores :=
  l.foldl
    (fun t r =>
      match r.ty with
      | 1 => { t with extWords := Table.writeList (fun _ => 0) t.extWords r.first (r.vals.map (BitVec.ofNat 144)) }
      | 2 => { t with extDisp := Table.writeList (fun _ => 0) t.extDisp r.first (r.vals.map (BitVec.ofNat 16)) }
      | _ => { t with extIo := Table.writeList (fun _ => 0) t.extIo r.first (r.vals.map (BitVec.ofNat 16)) }) t

/-! ## The boot image (R499, R500) -/

/-- The section table: offset, length and type. -/
def bootTable (l : List Byte) : List (Nat × Nat × Nat) :=
  (List.range (leAt l 5 1)).map fun k => (leAt l (32 + 16 * k) 4, leAt l (36 + 16 * k) 4, leAt l (40 + 16 * k) 1)

/-- Two sections share a byte. -/
def overlaps (a b : Nat × Nat × Nat) : Bool :=
  decide (a.1 < b.1 + b.2.1) && decide (b.1 < a.1 + a.2.1)

/-- No section lies over a later one of the table. -/
def apart : List (Nat × Nat × Nat) → Bool
  | [] => true
  | a :: r => !r.any (overlaps a) && apart r

/-- The control-store sections of an image. -/
def imgStores (l : List Byte) : List CsSect :=
  ((bootTable l).filter fun e => e.2.2 == 1).map fun e => csSection ((l.drop e.1).take e.2.1)

/-- The vendor sections: each target once, of one base version. -/
def vendorComplete (l : List CsSect) : Bool :=
  let v := l.filter fun x => decide (1 ≤ x.target) && decide (x.target ≤ 6)
  ([1, 2, 3, 4, 5, 6].all fun t => (v.filter fun x => x.target == t).length == 1) &&
  v.all fun x => x.version == (v.map (·.version)).headD 0

/-- The error code of an image, in the order of R500; 0 where none is fatal. -/
def imgError (img : Option (List Byte)) : Byte :=
  match img with
  | none => 5
  | some l =>
    let n := leAt l 5 1
    let t := bootTable l
    let size := leAt l 8 4
    if leAt l 0 4 ≠ 0x31494248 || leAt l 4 1 ≠ 1 || n = 0 || decide (32 < n) || decide (l.length < 32 + 16 * n) ||
        (crc32c (l.take 28 ++ (l.drop 32).take (16 * n))).toNat ≠ leAt l 28 4 then 1
    else if !(t.all fun e => e.1 % 4 == 0 && decide (e.1 + e.2.1 ≤ size)) || !apart t then 2
    else if l.length < size then 5
    else if !vendorComplete (imgStores l) then 3
    else if !(imgStores l).all (fun x => x.target == 0 || decide (7 ≤ x.target) || x.ok) then 4
    else 0

/-! ## Boot defaults (R501) -/

/-- The records of a default section. -/
def bootRecs : Nat → List Byte → List BootRec
  | 0, _ => []
  | n + 1, l =>
    let len := leAt l 4 2
    if l.length < 8 + len then []
    else
      { index := BitVec.ofNat 16 (leAt l 0 2), sub := BitVec.ofNat 8 (leAt l 2 1), ty := BitVec.ofNat 8 (leAt l 3 1)
        value := (l.drop 8).take len } :: bootRecs n (l.drop (8 + (len + 3) / 4 * 4))

/-- The origin of the boot defaults: the device itself (R501). -/
def State.bootSession (s : State) : Session := { num := 0, transport := 0, dev := s.devId }

/-- One more record is skipped. -/
def State.skip (s : State) : State := s.modPwr fun p => { p with defSkip := p.defSkip + 1 }

/-- A record waits for READY: it names a WO object, or PWR_MODE_REQ. -/
def State.heldRec (s : State) (r : BootRec) : Bool :=
  (r.index == 0x8000 && r.sub == 2) ||
  (match s.findObj r.index.toNat r.sub.toNat with | some o => o.row.acc == .wo | none => false)

/-- Apply one record at the end of LOAD, as if in READY. -/
def State.applyRec (s : State) (r : BootRec) : State :=
  if s.heldRec r then s.modPwr fun p => { p with held := p.held ++ [r] }
  else if (s.findObj r.index.toNat r.sub.toNat).isNone then s.skip
  else
    let w := s.writeItem s.bootSession r.index.toNat r.sub.toNat r.ty.toNat r.value true
    if w.2 = 0 then w.1 else w.1.skip

/-- A default section. -/
def State.defaults (s : State) (l : List Byte) : State :=
  let body := l.drop 16
  let crc := crc32c body
  if leAt l 0 4 ≠ 0x314C4644 || crc.toNat ≠ leAt l 8 4 then s.event 0x8014 0 0 (crc.setWidth 64)
  else
    let recs := bootRecs (leAt l 4 2) body
    let given := (recs.map fun r => (r.index, r.sub)).eraseDups.length
    (recs.foldl State.applyRec s).event 0x8004 0 0 (BitVec.ofNat 64 (crc.toNat + 4294967296 * (given % 65536)))

/-- The records held back are written on the first entry to READY. -/
def State.applyHeld (s : State) : State :=
  let recs := s.pwr.held
  recs.foldl
    (fun s r =>
      let w := s.writeItem s.bootSession r.index.toNat r.sub.toNat r.ty.toNat r.value false
      if w.2 = 0 then w.1 else w.1.skip)
    (s.modPwr fun p => { p with held := [] })

/-! ## LOAD (R498 to R502) -/

/-- The extension sections of an accepted image (R142). -/
def State.loadExt (s : State) (l : List CsSect) : State :=
  match l.filter fun x => x.target == 7 with
  | [] => s
  | [x] =>
    if x.ok then
      { s with stores := { (s.stores.writeExt (x.recs.getD [])) with extStat := 1, extId := x.crc, extVer := x.version } }
    else { s with stores := { s.stores with extStat := 2 } }.event 0x8005 0 0 (x.crc.setWidth 64)
  | x :: _ => { s with stores := { s.stores with extStat := 2 } }.event 0x8005 0 0 (x.crc.setWidth 64)

/-- An accepted image: the stores, the defaults, and TRAIN. -/
def State.acceptImage (s : State) (image : Byte) (mode us : Nat) (l : List Byte) : State :=
  let cs := imgStores l
  let base := ((cs.filter fun x => x.target == 1).map (·.version)).headD 0
  let s := { s with stores := { baseVer := base } }.loadExt cs
  let s := ((bootTable l).filter fun e => e.2.2 == 2).foldl (fun s e => s.defaults ((l.drop e.1).take e.2.1)) s
  let s := s.modPwr fun p => { p with
    bootImage := image, spiMode := BitVec.ofNat 8 mode, loadUs := BitVec.ofNat 32 us, boot := {} }
  (s.setMode .train).trainStart

/-- The read of a boot image ends, in LOAD. -/
def State.bootRead (s : State) (r : BootRead) : State :=
  let take (image : Byte) (mode : Nat) (img : Option (List Byte)) : State := s.acceptImage image mode r.us (img.getD [])
  if s.pwr.bootSrc = 0 then
    let img := r.primary.map (·.take s.pwr.boot.len.toNat)
    let e := imgError img
    if e = 0 then take 2 0 img
    else s.modPwr fun p => { p with boot := { p.boot with busy := false, done := true, err := true, code := e } }
  else
    let e := imgError r.primary
    if e = 0 then take 0 r.spiMode.val r.primary
    else
      match r.alternate with
      | none => s.faultHold 2
      | some img =>
        let s := s.event 0x8013 0 (e.setWidth 64) 1
        if imgError img = 0 then s.acceptImage 1 r.spiMode.val r.us (img.getD []) else s.faultHold 2

/-! ## The fuses (R497) -/

/-- LOAD begins with the fuses copied: every domain present is powered, and the defaults that follow from the fuses and the
straps are set (R446, R483, R497). -/
def State.enterLoad (s : State) (f : FuseData) : State :=
  let s := (s.modPwr fun p => { p with fuses := some f }).setMode .load
  let s := (List.range 63).foldl (fun s d => if s.domPresent d then s.setDom d 2 else s) s
  let node : Nat := 0x700 + 2 * s.devId.toNat
  let s := ((s.objPut 0x2600 2 0 f.mac.toNat).objPut 0x2601 5 0 node).objPut 0x2602 5 0 node
  if s.pwr.bootSrc = 3 then s.faultHold 2 else s

/-! ## Micro-traps (R135) -/

/-- A request enters its routine: the frame is pushed. -/
def Sequencer.enter (q : Sequencer) (entry : BitVec 13) : Sequencer :=
  { q with saved := q.ctx :: q.saved, ctx := { q.ctx with addr := entry } }

/-- A request of higher class: it waits while the save stack is full. -/
def Sequencer.request (q : Sequencer) (entry : BitVec 13) : Sequencer :=
  if q.saved.length < 4 then q.enter entry else { q with waiting := q.waiting ++ [entry] }

/-- MRET: the frame is resumed; a waiting request is then taken. -/
def Sequencer.mret (q : Sequencer) : Sequencer :=
  match q.saved with
  | [] => q
  | c :: r =>
    let q := { q with ctx := c, saved := r }
    match q.waiting with
    | [] => q
    | e :: w => { q with waiting := w }.enter e

/-- Update a privileged sequencer. -/
def State.modSeq (s : State) (q : SeqUnit) (f : Sequencer → Sequencer) : State :=
  { s with stores :=
    match q with
    | .mc => { s.stores with mc := f s.stores.mc }
    | .placement => { s.stores with placement := f s.stores.placement }
    | .migration => { s.stores with migration := f s.stores.migration } }

/-- The privileged sequencers run: the management region is powered and clocked (R483, R494, R504). -/
def State.seqRuns (s : State) : Bool :=
  match s.pwr.mode with
  | .sense => true | .load => true
  | .train => true | .ready => true | .serve => true | .limited => true | .drain => true | .diag => true
  | .off => false | .hold => false | .retain => false | .faultHold => false

end Sys2Proof.Machine
end

