-- ==== Sys2Proof/Machine/PowerCmd.lean ====
section
/-! DEFINITION. The commands of modes, domains, reset, boot and measurement, and the micro-trap (R135, R483 to R509). -/

namespace Sys2Proof.Machine

/-! ## Privileged sequencers -/

/-- MICRO_TRAP (R135, R137). -/
def execMicroTrap (q : SeqUnit) (e : MicroEvent) (s : State) : Res :=
  .next (if !s.seqRuns then s
    else
      match e with
      | .request a => s.modSeq q fun k => k.request a
      | .mret => s.modSeq q Sequencer.mret
      | .error x => s.seqError q x)

/-! ## From OFF to READY -/

/-- POWER_ON (R484). -/
def execPowerOn (s : State) : Res := .next s.aonUp

/-- RAILS_GOOD (R484, R497): the straps ID are read once in a power cycle (R372); a standing trip holds the device. -/
def execRailsGood (id : BitVec 3) (boot : BitVec 2) (s : State) : Res :=
  .next (if s.pwr.mode = .hold then
    let s := s.modPwr fun p => { p with id := if p.idIn then p.id else id, idIn := true, bootSrc := boot.setWidth 8 }
    let s := (s.setMode .sense).setDom 49 2
    if s.pwr.trips = 0 then s else s.faultHold 6
  else s)

/-- FUSES_READ (R497): `none` is an uncorrectable fuse error. -/
def execFusesRead (f : Option FuseData) (s : State) : Res :=
  .next (if s.pwr.mode = .sense then (match f with | none => s.faultHold 1 | some f => s.enterLoad f) else s)

/-- A boot image is being read: from flash throughout LOAD, from the host after GO (R498, R502). -/
def State.bootReading (s : State) : Bool := s.pwr.mode == .load && (s.pwr.bootSrc != 0 || s.pwr.boot.busy)

/-- BOOT_IMAGE_DONE (R500). -/
def execBootImageDone (r : BootRead) (s : State) : Res := .next (if s.bootReading then s.bootRead r else s)

/-- BOOT_GO (R502). -/
def execBootGo (addr : Long) (len : Word) (s : State) : Res :=
  .next (if s.pwr.mode == .load && s.pwr.bootSrc == 0 && !s.pwr.boot.busy then
    s.modPwr fun p => { p with boot := { busy := true, addr := addr, len := len } }
  else s)

/-- TRAIN_DONE (R503): on the first entry to READY the records held back are written (R501). Results or frames that the
rules do not allow leave the device in TRAIN. -/
def execTrainDone (ch : List ChanTrain) (area : List (BitVec 17)) (s : State) : Res :=
  .next (if s.pwr.mode = .train then
    match s.trainEnd ch area with
    | none => s
    | some t => if t.pwr.mode = .faultHold then t else t.applyHeld
  else s)

/-! ## Modes and domains -/

/-- DRAIN_COMPLETE (R487). -/
def execDrainComplete (s : State) : Res := .next (if s.pwr.mode = .drain then s.drainDone else s)

/-- The converter works: PD61 is powered and clocked (R490, R494, R506). -/
def State.convOn (s : State) : Bool := s.domOn 61 && s.pwr.mode != .retain

/-- THROTTLE_STEP (R488). -/
def execThrottleStep (t : Fin 8) (s : State) : Res := .next (if s.convOn then s.throttlePair t else s)

/-- PD_DRAIN_END (R491). -/
def execPdDrainEnd (d : Fin 63) (left : Nat) (s : State) : Res := .next (s.drainEnd d.val left)

/-- PD_RAMP_DOWN_END (R492). -/
def execPdRampDownEnd (d : Fin 63) (s : State) : Res := .next (s.rampDownEnd d.val)

/-- PD_RAMP_UP_END (R493). -/
def execPdRampUpEnd (d : Fin 63) (s : State) : Res := .next (if (s.dom d.val).st = 1 then s.domOnNow d.val else s)

/-! ## Wake events (R495) -/

/-- WAKE_N_LOW. -/
def execWakeNLow (s : State) : Res := .next (s.wake 0)

/-- PAD_WAKE_EDGE (R543). -/
def execPadWakeEdge (p : Fin 128) (rising : Bool) (s : State) : Res := .next (if s.padWakes p rising then s.wake 1 else s)

/-- WAKE_WORD_WRITE (R505). -/
def execWakeWordWrite (s : State) : Res := .next (if s.domOn 49 then s.wake 2 else s)

/-- FIELD_WAKE_FRAME. -/
def execFieldWakeFrame (s : State) : Res := .next (s.wake 3)

/-- WAKE_TIME_ALARM. -/
def execWakeTimeAlarm (s : State) : Res := .next (if s.objOr 0x8000 0x10 0 ≤ s.devTime.toNat then s.wake 4 else s)

/-! ## Reset and FAULT-HOLD -/

/-- RESET_N_LOW (R496). -/
def execResetNLow (s : State) : Res := .next (s.deviceReset 2)

/-- MC_WDOG_EXPIRE (R504): the MC signals while it runs. -/
def execMcWdogExpire (s : State) : Res := .next (if s.seqRuns then s.faultHold 8 else s)

/-- FH_AUTO_RESET (R504). -/
def execFhAutoReset (s : State) : Res :=
  .next (if s.pwr.mode == .faultHold && s.pwr.fhAuto != 0 then s.deviceReset 8 else s)

/-- THERMAL_TRIP (R507): the comparators are powered from VDD_AON. -/
def execThermalTrip (t : Fin 16) (s : State) : Res :=
  .next (if s.pwr.mode = .off then s else (s.modPwr fun p => { p with trips := putBit p.trips t.val true }).faultHold 6)

/-- THERMAL_TRIP_RELEASE (R507). -/
def execThermalTripRelease (t : Fin 16) (s : State) : Res := .next (s.modPwr fun p => { p with trips := putBit p.trips t.val false })

/-- SUPPLIES_REMOVED (R484). -/
def execSuppliesRemoved (s : State) : Res := .next s.aonDown

/-! ## Measurement -/

/-- CONVERTER_FRAME (R506 to R509). -/
def execConverterFrame (temps : List Int) (taps : List Nat) (ain : List (List Nat)) (s : State) : Res :=
  .next (if s.convOn then s.convFrame temps taps ain else s)

end Sys2Proof.Machine
end

