-- ==== Sys2Proof/Machine/PinCmd.lean ====
section
/-! DEFINITION. The commands of the general-purpose pins (R534 to R544). -/

namespace Sys2Proof.Machine

/-- GV_SET_WRITE (R541). -/
def execGvSetWrite (c : CellNo) (by_ : Agent) (high : Bool) (v : Byte) (s : State) : Res :=
  onStarted c s (.next (s.ioWriteAs c by_ false (if high then 0x0E95 else 0x0E94) v))

/-- GV_CLR_WRITE (R541). -/
def execGvClrWrite (c : CellNo) (by_ : Agent) (high : Bool) (v : Byte) (s : State) : Res :=
  onStarted c s (.next (s.ioWriteAs c by_ false (if high then 0x0E97 else 0x0E96) v))

/-- PIN_FILTER_SETTLE (R538): the core logic of the pins lies in PD61 (R490). -/
def execPinFilterSettle (p : Fin 128) (level : Bool) (s : State) : Res :=
  .next (if s.convOn then s.pinSettle p level else s)

/-- BANK_VOLTAGE_CHANGE (R534). -/
def execBankVoltageChange (b : Fin 8) (v : Fin 3) (s : State) : Res :=
  let n : Byte := BitVec.ofNat 8 v.val
  .next (if s.banks.get b = n then s
    else ({ s with banks := s.banks.set b n } : State).raise 0x90 b.val false v.val)

end Sys2Proof.Machine
end

