-- ==== Sys2Proof/Machine/SoundCmd.lean ====
section
/-! DEFINITION. The commands of cell sound (R319 to R333). -/

namespace Sys2Proof.Machine

/-- A sample of a guest cell travels to its home device (R388): stream 0, index, two 24-bit samples in 32-bit words. -/
def State.guestSample (s : State) (c : CellNo) : State :=
  let x := s.cell c
  match x.kp.guest with
  | none => s
  | some home =>
    let w (v : Int) : List Byte := toBytes ((BitVec.ofInt 32 v).toNat) 4
    let s := s.sendTo home 5 true (jtag c.val home (4 * (x.snd.frames0.toNat % 2 ^ 20))) (w x.snd.mixL ++ w x.snd.mixR)
    s.modCell c fun x => { x with snd := { x.snd with frames0 := x.snd.frames0 + 1 } }

/-- SAMPLE_POINT (R319, R320): the next sample point of the present cell beam line. -/
def execSamplePoint (c : CellNo) (late : BitVec 16) (s : State) : Res :=
  onLive c s <|
    let x := s.cell c
    let b := x.beam
    let n := x.snd
    if !b.on || !b.started || n.keff ≤ n.idx || (decide (1 < n.div) && b.line % n.div != 0) then .next s
    else
      let y := x.soundPoint (n.idx * b.geom.htotal / n.keff) late
      .next ((s.setCell c { y with snd := { y.snd with idx := n.idx + 1 } }).guestSample c)

/-- SOUND_REG_WRITE (R321): with the beam at pixel clock `pix`. -/
def execSoundRegWrite (c : CellNo) (by_ : Agent) (addr : Half) (v : Byte) (pix : Nat) (s : State) : Res :=
  onStarted c s <|
    let a := addr.toNat
    .next (if 0x0C00 ≤ a && a < 0x0E00 then (s.atPixel c pix).ioWriteAs c by_ false a v else s)

/-- VC_FIFO_PUSH (R327): a write of VC_FIFO of voice 14 or 15. -/
def execVcFifoPush (c : CellNo) (v : Fin 2) (b : Byte) (s : State) : Res := coreWrite c (0x0DC8 + 0x20 * v.val) b s

/-- VC_FLUSH (R327): FLUSH of voice 14 or 15 is written, its other control bits as they stand. -/
def execVcFlush (c : CellNo) (v : Fin 2) (s : State) : Res :=
  let a := 0x0DC0 + 0x20 * v.val
  coreWrite c a ((s.cell c).reg8 a ||| 0x40) s

/-- WAVE_FETCH (R330): the prefetched read for the voice's present sample arrives. -/
def execWaveFetch (c : CellNo) (v : Fin 8) (s : State) : Res :=
  onLive c s <|
    let x := s.cell c
    let n : Fin 16 := v.castLE (by decide)
    let k := x.snd.voices.get n
    .next (if k.active && k.pre.isNone then
      s.setCell c (x.modVoice n fun k => { k with pre := some (k.phase / 4096, x.wavePair n (k.phase / 4096)) }) else s)

end Sys2Proof.Machine
end

