-- ==== Sys2Proof/Machine/SwarmCmd.lean ====
section
/-! DEFINITION. The commands of the swarm links and of migration, dictionary traffic aside (R369, R372 to R394). -/

namespace Sys2Proof.Machine

/-! ## Links (R375, R379, R384) -/

/-- LINK_SIGNAL (R375). -/
def execLinkSignal (l : Fin 7) (present : Bool) (s : State) : Res :=
  if !s.linkOn l then .next s
  else
    let s := s.modLinkL l fun k => { k with signal := present }
    let k := s.swarmLink l
    .next (if !present then (if k.state = lkDown then s else (s.dropLink l).linksChanged)
      else if k.state = lkDown && s.lkEn l && !k.failed then s.startTrain l else s)

/-- LINK_TRAIN_RATE_DONE (R375). -/
def execLinkTrainRateDone (l : Fin 7) (accepted : Bool) (s : State) : Res :=
  let k := s.swarmLink l
  if !s.linkOn l || (k.state != lkTrain && k.state != lkRetrain) then .next s
  else if accepted then
    let t := s.setLink l lkHello fun k =>
      { k.send { kind := 2, last := true, src := s.devId, dst := k.peer.setWidth 3, seq := 0, ack := none
                 tag := BitVec.ofNat 32 l.val, payload := (List.range 64).map fun i => Config.freeByte (s.freeCtr + i) } with
        rate := k.trying }
    .next { t with freeCtr := s.freeCtr + 64 }
  else if 1 < k.trying.toNat then .next (s.modLinkL l fun k => { k with trying := k.trying - 1 })
  else .next ((s.setLink l lkDown fun k => { k.fresh with failed := true }).linksChanged)

/-- LINK_RETRY_TIMEOUT (R375). -/
def execLinkRetryTimeout (l : Fin 7) (s : State) : Res :=
  let k := s.swarmLink l
  .next (if s.linkOn l && k.state == lkDown && k.failed && s.lkEn l then
    (if k.signal then s.startTrain l else s.modLinkL l fun k => { k with failed := false }) else s)

/-- JAJAN_HELLO (R375): while the link is in HELLO, or held in CONFLICT or FOREIGN. -/
def execJajanHello (l : Fin 7) (h : HelloInfo) (s : State) : Res :=
  let k := s.swarmLink l
  .next (if s.linkOn l && (k.state == lkHello || k.state == lkConflict || k.state == lkForeign) then s.hello l h
    else if s.linkOn l && k.state == lkUp && h.id.val == k.peer.toNat then s.modLinkL l fun k => { k with hello := some h } else s)

/-- JAJAN_CTRL (R377, R380): credits return. -/
def execJajanCtrl (l : Fin 7) (bytes : List Byte) (s : State) : Res :=
  receive l 0 bytes (fun j s => s.modLinkL l fun k =>
    { k with credit := Vector.ofFn fun c => k.credit.get c + j.tag.toNat / 256 ^ c.val % 256 }) s

/-- JAJAN_NAK (R379). -/
def execJajanNak (l : Fin 7) (bytes : List Byte) (s : State) : Res :=
  receive l 1 bytes (fun j s => s.resend l (j.tag.setWidth 12)) s

/-- JAJAN_BEAM (R383 to R386): a BEAM frame of the master on a direct link. -/
def execJajanBeam (l : Fin 7) (bytes : List Byte) (m : PulseMeas) (s : State) : Res :=
  receive l 3 bytes (fun j s =>
    let src := j.src.toNat
    let better := match s.keyOf src, s.keyOf s.swarm.master.toNat with
      | some a, some b => keyBeats a src b s.swarm.master.toNat
      | some _, none => true
      | none, _ => false
    let s := if s.swarm.master.toNat != src && better then s.setMaster (BitVec.ofNat 8 src) else s
    if s.swarm.master.toNat = src && (s.swarmLink l).peer.toNat == src then
      let s := s.modSwarm fun w => { w with
        beamAge := 0, masterFrame := some (BitVec.ofNat 64 (ofBytes (j.payload.take 8))) }
      let s := s.takeTime (BitVec.ofNat 64 (ofBytes ((j.payload.drop 8).take 8)))
      if s.followsSwarm then s.beamPulse m else s
    else s) s

/-- REPLAY_TIMEOUT (R379). -/
def execReplayTimeout (l : Fin 7) (s : State) : Res :=
  match (s.swarmLink l).replay with
  | [] => .next s
  | f :: _ => .next (if s.linkOn l && (s.swarmLink l).state == lkUp then s.resend l f.seq else s)

/-- IDLE_CTRL_TIMER (R379, R380): CTRL returns the credits freed. -/
def execIdleCtrlTimer (l : Fin 7) (s : State) : Res :=
  if !s.linkOn l || (s.swarmLink l).state != lkUp then .next s
  else .next <| s.modLinkL l fun k =>
    let give (c : Fin 4) : Nat := min 255 (k.freed.get c)
    { k.send { kind := 0, last := true, src := s.devId, dst := k.peer.setWidth 3, seq := 0, ack := none
               tag := BitVec.ofNat 32 (give 0 + 256 * give 1 + 65536 * give 2 + 16777216 * give 3), payload := [] } with
      freed := Vector.ofFn fun c => k.freed.get c - give c }

/-- DELAY_MEASURE (R384). -/
def execDelayMeasure (l : Fin 7) (ns : Half) (s : State) : Res :=
  .next (if s.linkOn l && (s.swarmLink l).state == lkUp then s.modLinkL l fun k => { k with delay := ns } else s)

/-- LINK_UNCORRECTABLE_CODEWORDS (R375): more than 10 in 1 ms. -/
def execLinkUncorrectableCodewords (l : Fin 7) (s : State) : Res :=
  .next (if s.linkOn l && (s.swarmLink l).state == lkUp then (s.retrain l (s.swarmLink l).rate).linksChanged else s)

/-- MASTER_LOST (R383): no BEAM of the master for 4 house frames. -/
def execMasterLost (s : State) : Res :=
  .next (if s.pwr.mode.beamRuns && s.swarm.master != 0xFF && s.swarm.master != s.devId.setWidth 8 && decide (4 ≤ s.swarm.beamAge)
    then s.elect else s)

/-! ## Traffic of cells away from home (R388) -/

/-- JAJAN_SLICE (R240, R388): a line of a cell of this device goes to its slice queue and its head ring. -/
def execJajanSlice (l : Fin 7) (bytes : List Byte) (s : State) : Res :=
  receive l 4 bytes (fun j s =>
    let c := j.cell
    match s.gather l j with
    | (s, none) => s
    | (s, some all) =>
      if j.home ≠ s.devId || (s.cell c).kp.away.isNone then s
      else
        let rec px : List Byte → Pixels
          | a :: b :: d :: r => (d ++ b ++ a) :: px r
          | _ => []
        let line := j.tag.toNat / 1024 % 2048
        let s := s.modVid c fun v => { v with ring := if v.heads = 0 then [] else ((line, px (all.drop 16)) :: v.ring).take 64 }
        if s.objOr (0x4002 + 16 * c.val) 1 1 = 0 then s else s.sliceEnqueue c (packWords all)) s

/-- JAJAN_AUDIO (R388): samples of a cell of this device reach its host path. -/
def execJajanAudio (l : Fin 7) (bytes : List Byte) (s : State) : Res :=
  receive l 5 bytes (fun j s =>
    let c := j.cell
    let w (i : Nat) : Int := (BitVec.ofNat 32 (ofBytes ((j.payload.drop (j.payload.length - 8 + 4 * i)).take 4))).toInt
    if j.home = s.devId && (s.cell c).kp.away.isSome && decide (8 ≤ j.payload.length) then
      s.modCell c fun x => { x with snd := { x.snd with mixL := w 0, mixR := w 1 } }
    else s) s

/-- JAJAN_EVENT (R160): the run device holds the pending bit. -/
def execJajanEvent (l : Fin 7) (bytes : List Byte) (input : Fin 4) (s : State) : Res :=
  receive l 6 bytes (fun j s =>
    let c := j.cell
    let x := s.cell c
    if s.homeOf c = j.home && x.kp.away.isNone && x.ctl.st.started then s.shInput c input.val else s) s

/-- JAJAN_CELLIO (R388): queue words of a cell between its home device and its run device. -/
def execJajanCellio (l : Fin 7) (bytes : List Byte) (s : State) : Res :=
  receive l 7 bytes (fun j s =>
    match s.gather l j with
    | (s, none) => s
    | (s, some all) =>
      let c := j.cell
      let x := s.cell c
      let ws := packWords all
      let here := x.kp.guestOn && x.kp.guest == some j.home
      let home := j.home == s.devId && x.kp.away.isSome
      match j.tag.toNat / 1024 % 16 with
      | 0 => if here then s.modHost c fun h => { h with input := { h.input with waiting := h.input.waiting ++ [{ words := ws }] } } else s
      | 1 =>
        if here then (match ws with | w :: _ => s.mailboxIn c w | [] => s)
        else if home && ws.isEmpty then (s.modHost c fun h => { h with mbFull := false }).msiVf c 4
        else s
      | 2 => if home then s.evCommit c ws else s
      | 3 => if home then all.foldl (fun s b => s.vtTxIn c b) s else s
      | 4 => if here then s.vtRxIn c all else s
      | _ => s) s

/-! ## Migration (R390 to R394) -/

/-- KEEPER_RUNDEV_DECISION (R351, R369, R390): `accepted` is the new device's answer to START. -/
def execKeeperRundevDecision (c : CellNo) (dev : Fin 8) (accepted forced : Bool) (s : State) : Res :=
  onLive c s (.next (if accepted && s.mayMigrate c (BitVec.ofFin dev) forced then s.startMigration c (BitVec.ofFin dev) else s))

/-- PRECOPY_PASS_DONE (R390). -/
def execPrecopyPassDone (c : CellNo) (s : State) : Res :=
  onLive c s (.next (if (s.cell c).kp.migState = 1 && (s.cell c).dirty.isSome then s.nextPass c else s))

/-- SWITCH_WINDOW_OPEN (R391): at cell beam line VB_VACTIVE + 2, after the first pass. -/
def execSwitchWindowOpen (c : CellNo) (s : State) : Res :=
  onLive c s <|
    let x := s.cell c
    .next (if x.kp.migState = 1 && x.dirty.isSome && decide (1 ≤ x.kp.passes) && x.beam.line == x.beam.geom.vactive + 2 &&
      x.vid.snap.isNone then s.openWindow c else s)

/-- SWITCH_DEADLINE (R392): the switch cannot finish, and the old device sends CANCEL. -/
def execSwitchDeadline (c : CellNo) (s : State) : Res :=
  onLive c s <|
    let x := s.cell c
    .next (if x.kp.migState = 2 && !x.kp.gone then (s.sendMigc (x.kp.migTarget.setWidth 3) c 4).cancelSwitch c else s)

/-- A MIGC frame with the code `code`. -/
def migc (code : Nat) (l : Fin 7) (bytes : List Byte) (f : JFrame → CellNo → State → State) (s : State) : Res :=
  receive l 9 bytes (fun j s => if j.tag.toNat / 1024 % 8 = code then f j j.cell s else s) s

/-- MIGC_START (R390): accepted or refused by the new device. -/
def execMigcStart (l : Fin 7) (bytes : List Byte) (n : MigNeeds) (s : State) : Res :=
  migc 0 l bytes (fun j c s =>
    if s.canHost c j.home (s.swarmLink l).hello n then s.takeGuest c j.home n
    else s.sendTo j.src 9 true (jtag c.val j.home 4) []) s

/-- JAJAN_PAGE (R377, R390): blocks of an arriving cell. -/
def execJajanPage (l : Fin 7) (bytes : List Byte) (s : State) : Res :=
  receive l 10 bytes (fun j s =>
    let k := j.tag.toNat / 1024 % 1024
    if s.arriving j.cell j.home && decide (k < (s.cell j.cell).map.pages) then s.modCell j.cell fun x => x.putBlocks k j.payload
    else s) s

/-- JAJAN_STATE (R392, R393): the last part of the switch state is answered with READY, and the cell is HELD until GO. -/
def execJajanState (l : Fin 7) (bytes : List Byte) (s : State) : Res :=
  receive l 11 bytes (fun j s =>
    let c := j.cell
    if !s.arriving c j.home then s
    else
      let s := s.modKp c fun k => { k with stateIn := (k.stateIn ++ j.payload).take 32768 }
      if j.last then (s.modKp c fun k => { k with migState := 3 }).sendTo j.src 9 true (jtag c.val j.home 1) [] else s) s

/-- MIGC_READY (R393): GO commits the migration. -/
def execMigcReady (l : Fin 7) (bytes : List Byte) (s : State) : Res :=
  migc 1 l bytes (fun j c s =>
    let k := (s.cell c).kp
    if k.migState = 2 && s.homeOf c == j.home && k.migTarget.toNat == j.src.toNat && !k.gone then
      (s.sendMigc j.src c 2).modKp c fun k => { k with gone := true }
    else s) s

/-- MIGC_GO (R393): the new device starts the cell on `core` and answers ACK. -/
def execMigcGo (l : Fin 7) (bytes : List Byte) (core : Fin 128) (s : State) : Res :=
  migc 2 l bytes (fun j c s =>
    if s.arriving c j.home && (s.cell c).kp.migState == 3 && s.coreOk c core then
      (s.startGuest c core).sendTo j.src 9 true (jtag c.val j.home 3) []
    else s) s

/-- MIGC_ACK (R393): the old device releases the cell. -/
def execMigcAck (l : Fin 7) (bytes : List Byte) (s : State) : Res :=
  migc 3 l bytes (fun j c s =>
    let k := (s.cell c).kp
    if k.gone && s.homeOf c == j.home && k.migTarget.toNat == j.src.toNat then s.releaseMigrated c else s) s

/-- MIGC_CANCEL (R392, R394): on the new device copying goes on, or everything taken is released when the migration is
over; on the old device a refusal ends the migration. -/
def execMigcCancel (l : Fin 7) (bytes : List Byte) (exceeded : Bool) (s : State) : Res :=
  migc 4 l bytes (fun j c s =>
    if s.arriving c j.home then
      (if exceeded then s.dropGuest c else s.modKp c fun k => { k with migState := 1, stateIn := [] })
    else
      let k := (s.cell c).kp
      if k.migState != 0 && k.migTarget.toNat == j.src.toNat && !k.gone then s.abandonMigration c else s) s

end Sys2Proof.Machine
end

