-- ==== Sys2Proof/Machine/TimerCmd.lean ====
section
/-! DEFINITION. The commands of the timers and the watchdog (R298 to R317). -/

namespace Sys2Proof.Machine

/-- The timers of `who` whose clock is the cluster cycle or the slow clock: line clocks count at program line starts. -/
def Cell.tmTicking (x : Cell) (who : BitVec 4) : BitVec 4 := who &&& ~~~x.tmLineSet

/-- TIMER_COUNT (R298, R303 to R305). -/
def execTimerCount (c : CellNo) (who : BitVec 4) (s : State) : Res :=
  onLive c s <|
    let x := s.cell c
    .next (if x.tmHeld then s else s.setCell c (x.tmCycle (x.tmTicking who) 0).1)

/-- TG_START_TIMERS (R299): TG_START is written with START bits. -/
def execTgStartTimers (c : CellNo) (who : BitVec 4) (s : State) : Res := coreWrite c 0x01C0 (who.setWidth 8) s

/-- TG_STOP_TIMERS (R299): TG_START is written with STOP bits. -/
def execTgStopTimers (c : CellNo) (who : BitVec 4) (s : State) : Res := coreWrite c 0x01C0 ((who.setWidth 8) <<< 4) s

/-- TIMER_CAPTURE_CMD (R308). -/
def execTimerCaptureCmd (c : CellNo) (n : Fin 4) (s : State) : Res := coreWrite c (tmBase n + 5) 1 s

/-- TIMER_CAP_READ (R309). -/
def execTimerCapRead (c : CellNo) (n : Fin 4) (s : State) : Res := coreReadAt c (tmBase n + 0x0C) s

/-- TIMER_CMP_WRITE (R306). -/
def execTimerCmpWrite (c : CellNo) (n : Fin 4) (high : Bool) (v : Byte) (s : State) : Res :=
  coreWrite c (tmBase n + 0x0A + b2n high) v s

/-- TIMER_CNT_READ (R307). -/
def execTimerCntRead (c : CellNo) (n : Fin 4) (s : State) : Res := coreReadAt c (tmBase n + 8) s

/-- WD_TICK (R313): one slow-clock cycle. -/
def execWdTick (c : CellNo) (s : State) : Res := onLive c s (.next (s.modCell c Cell.wdTick))

/-- WD_WARN_REACHED (R313, R317): WARN is set and WDW becomes pending. -/
def execWdWarnReached (c : CellNo) (s : State) : Res :=
  onLive c s <|
    .next (if (s.cell c).wd.warnDue then
      s.modCell c fun x => { x with wd := { x.wd with warnDue := false, warn := true, wdw := true } } else s)

/-- WD_EXPIRE (R313): EN is cleared, and the cell is reset in place or enters FAULTED with code 3. -/
def execWdExpire (c : CellNo) (s : State) : Res :=
  onLive c s <|
    let x := s.cell c
    if !x.wd.expireDue || x.ctl.st == .faulted then .next s
    else
      let fault := x.regBit 0x01D0 1
      let s := s.setCell c ({ x with wd := { x.wd with expireDue := false, warnDue := false } }.putReg 0x01D0 (x.reg8 0x01D0 &&& 0xFE))
      .next (if fault then s.cellFault c 3 else s.resetInPlace c 4)

/-- WD_KICK_WRITE (R314). -/
def execWdKickWrite (c : CellNo) (v : Byte) (s : State) : Res := coreWrite c 0x01D3 v s

/-- WD_KEY_WRITE (R315). -/
def execWdKeyWrite (c : CellNo) (v : Byte) (s : State) : Res := coreWrite c 0x01D2 v s

/-- WD_CTL_WRITE (R315). -/
def execWdCtlWrite (c : CellNo) (v : Byte) (s : State) : Res := coreWrite c 0x01D0 v s

/-- WD_CONFIG_WRITE (R315): a byte of WD_PERIOD or WD_WARN. -/
def execWdConfigWrite (c : CellNo) (warn high : Bool) (v : Byte) (s : State) : Res :=
  coreWrite c (0x01D4 + 2 * b2n warn + b2n high) v s

end Sys2Proof.Machine
end

