-- ==== Sys2Proof/Machine/VideoCmd.lean ====
section
/-! DEFINITION. The commands of line slots, prefills and the video status registers, and of writeback (R211, R226, R234,
R241, R253 to R261). -/

namespace Sys2Proof.Machine

/-- Comb `k` is on the part and powered, and its store is open (R2, R138, R266). -/
def State.combUp (s : State) (k : Fin 24) : Bool :=
  decide (k.val < Config.combCount s.part) && s.domOn (17 + k.val) && !s.closedStore 1 k.val &&
  !s.stores.repairs.any fun r => r.1 == .comb k

/-- A command for comb `k`: refused where the part has no such comb (R2). -/
def onComb (k : Fin 24) (s : State) (r : Res) : Res := if k.val < Config.combCount s.part then r else .refused .absentUnit

/-- SLOT_RELEASE (R256). -/
def execSlotRelease (c : CellNo) (deadline : Nat) (s : State) : Res := onLive c s (.next (s.releaseSlot c deadline))

/-- The slot of cell `c` starts on comb `k`; a microword error ends it as a miss and faults the cell (R137, R257). -/
def State.startSlot (s : State) (k : Fin 24) (c : CellNo) (sl : Slot) (err : Option MicroErr) : State :=
  match err with
  | some e => ((s.microError (.comb k) e).cellFault c 1).missSlot c sl
  | none =>
    let x := s.cell c
    let sl := Slot.begin { sl with started := true } x (x.vid.missed ++ [sl.line])
    (s.modVid c fun v => { v with slot := some sl }).modComb k fun b => { b with work := some c }

/-- SLOT_START (R257). -/
def execSlotStart (k : Fin 24) (err : Option MicroErr) (s : State) : Res :=
  onComb k s <|
    if !s.combUp k || (s.combs.get k).work.isSome then .next s
    else
      match s.nextSlot k with
      | none => .next s
      | some (c, sl) => .next (if (s.cell c).slotPast sl then s else s.startSlot k c sl err)

/-- The slot that comb `k` has started. -/
def State.combSlot (s : State) (k : Fin 24) : Option (CellNo × Slot) :=
  match (s.combs.get k).work with
  | none => none
  | some c =>
    match (s.cell c).vid.slot with
    | none => none
    | some sl => if sl.started && sl.comb == k then some (c, sl) else none

/-- SLOT_FETCH_ARRIVE (R253, R255). -/
def execSlotFetchArrive (k : Fin 24) (waits : Nat) (s : State) : Res :=
  onComb k s <|
    match s.combSlot k with
    | none => .next s
    | some (c, sl) => .next (s.modVid c fun v => { v with slot := some { sl with waits := sl.waits + waits } })

/-- SLOT_COMPLETE (R259): before the deadline. -/
def execSlotComplete (k : Fin 24) (s : State) : Res :=
  onComb k s <|
    match s.combSlot k with
    | none => .next s
    | some (c, sl) => .next (if (s.cell c).slotPast sl then s else s.completeSlot k c sl)

/-- SLOT_MISS (R260): the deadline of an incomplete slot has passed. -/
def execSlotMiss (c : CellNo) (s : State) : Res :=
  onLive c s <|
    match (s.cell c).vid.slot with
    | none => .next s
    | some sl => .next (if (s.cell c).slotPast sl then s.missSlot c sl else s)

/-- PREFILL_RELEASE (R258, R560). -/
def execPrefillRelease (c : CellNo) (s : State) : Res :=
  onLive c s <|
    let x := s.cell c
    let b := x.beam
    match entryComb (s.slotEntry c) with
    | none => .next s
    | some k =>
      if b.on && !b.waiting && b.started && (b.line == b.geom.vactive + 1 || b.line == b.geom.vactive + 2) &&
          x.vid.prefill.isNone && x.vid.prev.isNone then
        .next ((s.modVid c fun v => { v.openColl with prefill := some k }).modComb k fun b =>
          { b with prefill := if b.prefill.isNone then some c else b.prefill })
      else .next s

/-- PREFILL_END (R258). -/
def execPrefillEnd (c : CellNo) (s : State) : Res :=
  onLive c s <|
    match (s.cell c).vid.prefill with
    | none => .next s
    | some k => .next ((s.modVid c fun v => { v with prefill := none }).modComb k fun b =>
        { b with prefill := if b.prefill = some c then none else b.prefill })

/-- LS_MISSCNT_READ (R261). -/
def execLsMisscntRead (c : CellNo) (s : State) : Res := coreReadAt c 0x0682 s

/-- SPR_STAT_READ (R211). -/
def execSprStatRead (c : CellNo) (s : State) : Res := coreReadAt c 0x0510 s

/-- WG_STAT_READ (R226). -/
def execWgStatRead (c : CellNo) (s : State) : Res := coreReadAt c 0x0588 s

/-- PAL_DATA_WRITE (R234): a write of IO 0806h, with the beam at pixel clock `pix`. -/
def execPalDataWrite (c : CellNo) (by_ : Agent) (v : Byte) (pix : Nat) (s : State) : Res :=
  onStarted c s (.next ((s.atPixel c pix).ioWriteAs c by_ false 0x0806 v))

/-- PAL_DATA_READ (R234): a read of IO 0804h. -/
def execPalDataRead (c : CellNo) (s : State) : Res := coreReadAt c 0x0804 s

/-- WB_STAT_READ (R241). -/
def execWbStatRead (c : CellNo) (s : State) : Res := coreReadAt c 0x0641 s

/-- WRITEBACK_WRITE_DONE (R241): the oldest waiting line reaches cell space. -/
def execWritebackWriteDone (c : CellNo) (s : State) : Res :=
  onLive c s <|
    match (s.cell c).vid.wbQueue with
    | [] => .next s
    | w :: r => .next (s.modCell c fun x =>
        let y := x.writeMemList w.addr w.bytes
        let v := { y.vid with wbQueue := r }
        { y with vid := if w.last then v.wbDone else v })

end Sys2Proof.Machine
end

