-- ==== Sys2Proof/Machine/Dispatch.lean ====
section
/-! DEFINITION. The dispatch: one arm per command of the table, in its order. -/

namespace Sys2Proof.Machine

def exec (i : Instr) (s : State) : Host.Outcome State Fault Refusal :=
  match i with
  | .houseFrameStart slots scouts => Sys2Proof.Machine.execHouseFrameStart slots scouts s
  | .framePulse ofs err rate disc => Sys2Proof.Machine.execFramePulse ofs err rate disc s
  | .linePulse win ofs err => Sys2Proof.Machine.execLinePulse win ofs err s
  | .syncWindowExpire => Sys2Proof.Machine.execSyncWindowExpire s
  | .holdoverExpire => Sys2Proof.Machine.execHoldoverExpire s
  | .cellLineStart c => Sys2Proof.Machine.execCellLineStart c s
  | .geomSwitch c => Sys2Proof.Machine.execGeomSwitch c s
  | .spriteSnapshotDone c => Sys2Proof.Machine.execSpriteSnapshotDone c s
  | .programLineStart c sw => Sys2Proof.Machine.execProgramLineStart c sw s
  | .programFrameStart c => Sys2Proof.Machine.execProgramFrameStart c s
  | .paceCredit c => Sys2Proof.Machine.execPaceCredit c s
  | .vidCommit c => Sys2Proof.Machine.execVidCommit c s
  | .vbCaptureRead c pix => Sys2Proof.Machine.execVbCaptureRead c pix s
  | .regCaptureRead c addr => Sys2Proof.Machine.execRegCaptureRead c addr s
  | .regWrite c by_ addr v => Sys2Proof.Machine.execRegWrite c by_ addr v s
  | .lineLiveWrite c by_ addr v pix => Sys2Proof.Machine.execLineLiveWrite c by_ addr v pix s
  | .nop c err => Sys2Proof.Machine.execNop c err s
  | .sleep c => Sys2Proof.Machine.execSleep c s
  | .ei c => Sys2Proof.Machine.execEi c s
  | .di c => Sys2Proof.Machine.execDi c s
  | .ret c => Sys2Proof.Machine.execRet c s
  | .reti c => Sys2Proof.Machine.execReti c s
  | .rett c => Sys2Proof.Machine.execRett c s
  | .scf c => Sys2Proof.Machine.execScf c s
  | .clc c => Sys2Proof.Machine.execClc c s
  | .ccf c => Sys2Proof.Machine.execCcf c s
  | .pushf c => Sys2Proof.Machine.execPushf c s
  | .popf c => Sys2Proof.Machine.execPopf c s
  | .add c d x => Sys2Proof.Machine.execAdd c d x s
  | .adc c d x => Sys2Proof.Machine.execAdc c d x s
  | .sub c d x => Sys2Proof.Machine.execSub c d x s
  | .sbc c d x => Sys2Proof.Machine.execSbc c d x s
  | .and c d x => Sys2Proof.Machine.execAnd c d x s
  | .or c d x => Sys2Proof.Machine.execOr c d x s
  | .xor c d x => Sys2Proof.Machine.execXor c d x s
  | .cmp c d x => Sys2Proof.Machine.execCmp c d x s
  | .mov c d x => Sys2Proof.Machine.execMov c d x s
  | .tst c d x => Sys2Proof.Machine.execTst c d x s
  | .mul c d src => Sys2Proof.Machine.execMul c d src s
  | .muls c d src => Sys2Proof.Machine.execMuls c d src s
  | .mulProductLand c => Sys2Proof.Machine.execMulProductLand c s
  | .xch c d src => Sys2Proof.Machine.execXch c d src s
  | .clz c d src => Sys2Proof.Machine.execClz c d src s
  | .movw c d x => Sys2Proof.Machine.execMovw c d x s
  | .addw c d x => Sys2Proof.Machine.execAddw c d x s
  | .subw c d src => Sys2Proof.Machine.execSubw c d src s
  | .cmpw c d x => Sys2Proof.Machine.execCmpw c d x s
  | .incw c d => Sys2Proof.Machine.execIncw c d s
  | .decw c d => Sys2Proof.Machine.execDecw c d s
  | .pushw c r => Sys2Proof.Machine.execPushw c r s
  | .popw c d => Sys2Proof.Machine.execPopw c d s
  | .ldsp c r => Sys2Proof.Machine.execLdsp c r s
  | .stsp c d => Sys2Proof.Machine.execStsp c d s
  | .mfm c d => Sys2Proof.Machine.execMfm c d s
  | .mtm c r => Sys2Proof.Machine.execMtm c r s
  | .inc c d => Sys2Proof.Machine.execInc c d s
  | .dec c d => Sys2Proof.Machine.execDec c d s
  | .neg c d => Sys2Proof.Machine.execNeg c d s
  | .not c d => Sys2Proof.Machine.execNot c d s
  | .shl c d => Sys2Proof.Machine.execShl c d s
  | .shr c d => Sys2Proof.Machine.execShr c d s
  | .sar c d => Sys2Proof.Machine.execSar c d s
  | .rol c d => Sys2Proof.Machine.execRol c d s
  | .ror c d => Sys2Proof.Machine.execRor c d s
  | .swap c d => Sys2Proof.Machine.execSwap c d s
  | .push c r => Sys2Proof.Machine.execPush c r s
  | .pop c d => Sys2Proof.Machine.execPop c d s
  | .mff c d => Sys2Proof.Machine.execMff c d s
  | .mtf c r => Sys2Proof.Machine.execMtf c r s
  | .ld c d m ecc => Sys2Proof.Machine.execLd c d m ecc s
  | .st c r m => Sys2Proof.Machine.execSt c r m s
  | .ldw c d b inc => Sys2Proof.Machine.execLdw c d b inc s
  | .stw c r b inc => Sys2Proof.Machine.execStw c r b inc s
  | .ldc c d b inc => Sys2Proof.Machine.execLdc c d b inc s
  | .ldcw c d b inc => Sys2Proof.Machine.execLdcw c d b inc s
  | .in c d m => Sys2Proof.Machine.execIn c d m s
  | .out c r m => Sys2Proof.Machine.execOut c r m s
  | .ins c d src w o => Sys2Proof.Machine.execIns c d src w o s
  | .ext c d src w o => Sys2Proof.Machine.execExt c d src w o s
  | .exts c d src w o => Sys2Proof.Machine.execExts c d src w o s
  | .perm c d src x => Sys2Proof.Machine.execPerm c d src x s
  | .bit c r n => Sys2Proof.Machine.execBit c r n s
  | .setb c d n => Sys2Proof.Machine.execSetb c d n s
  | .clrb c d n => Sys2Proof.Machine.execClrb c d n s
  | .bra c d8 => Sys2Proof.Machine.execBra c d8 s
  | .beq c d8 => Sys2Proof.Machine.execBeq c d8 s
  | .bne c d8 => Sys2Proof.Machine.execBne c d8 s
  | .bcs c d8 => Sys2Proof.Machine.execBcs c d8 s
  | .bcc c d8 => Sys2Proof.Machine.execBcc c d8 s
  | .bmi c d8 => Sys2Proof.Machine.execBmi c d8 s
  | .bpl c d8 => Sys2Proof.Machine.execBpl c d8 s
  | .bvs c d8 => Sys2Proof.Machine.execBvs c d8 s
  | .bvc c d8 => Sys2Proof.Machine.execBvc c d8 s
  | .bhi c d8 => Sys2Proof.Machine.execBhi c d8 s
  | .bls c d8 => Sys2Proof.Machine.execBls c d8 s
  | .bge c d8 => Sys2Proof.Machine.execBge c d8 s
  | .blt c d8 => Sys2Proof.Machine.execBlt c d8 s
  | .bgt c d8 => Sys2Proof.Machine.execBgt c d8 s
  | .ble c d8 => Sys2Proof.Machine.execBle c d8 s
  | .bsr c d8 => Sys2Proof.Machine.execBsr c d8 s
  | .jmp c t => Sys2Proof.Machine.execJmp c t s
  | .call c t => Sys2Proof.Machine.execCall c t s
  | .djnz c d d8 => Sys2Proof.Machine.execDjnz c d d8 s
  | .trap c n => Sys2Proof.Machine.execTrap c n s
  | .loop c x len => Sys2Proof.Machine.execLoop c x len s
  | .leave c => Sys2Proof.Machine.execLeave c s
  | .pushl c => Sys2Proof.Machine.execPushl c s
  | .popl c => Sys2Proof.Machine.execPopl c s
  | .mflc c d => Sys2Proof.Machine.execMflc c d s
  | .extensionOpcode c => Sys2Proof.Machine.execExtensionOpcode c s
  | .reservedOpcode c => Sys2Proof.Machine.execReservedOpcode c s
  | .interruptEntry c => Sys2Proof.Machine.execInterruptEntry c s
  | .wdwEntry c => Sys2Proof.Machine.execWdwEntry c s
  | .paceEntry c => Sys2Proof.Machine.execPaceEntry c s
  | .csRepairDone ok => Sys2Proof.Machine.execCsRepairDone ok s
  | .microTrap q e => Sys2Proof.Machine.execMicroTrap q e s
  | .cellStart c core stagger => Sys2Proof.Machine.execCellStart c core stagger s
  | .cellPause c => Sys2Proof.Machine.execCellPause c s
  | .cellResume c pix => Sys2Proof.Machine.execCellResume c pix s
  | .cellStop c => Sys2Proof.Machine.execCellStop c s
  | .cellResetCmd c => Sys2Proof.Machine.execCellResetCmd c s
  | .cellUnload c => Sys2Proof.Machine.execCellUnload c s
  | .cellProfileWrite c o v => Sys2Proof.Machine.execCellProfileWrite c o v s
  | .wake c pix ticks => Sys2Proof.Machine.execWake c pix ticks s
  | .sleepAlarm c n => Sys2Proof.Machine.execSleepAlarm c n s
  | .sysResetWrite c v => Sys2Proof.Machine.execSysResetWrite c v s
  | .lockedSeqExpire c => Sys2Proof.Machine.execLockedSeqExpire c s
  | .resetCauseRead c => Sys2Proof.Machine.execResetCauseRead c s
  | .paceOvrCntRead c => Sys2Proof.Machine.execPaceOvrCntRead c s
  | .icPendsetWrite c byte v => Sys2Proof.Machine.execIcPendsetWrite c byte v s
  | .icEoiWrite c v => Sys2Proof.Machine.execIcEoiWrite c v s
  | .intSourceEdge c n => Sys2Proof.Machine.execIntSourceEdge c n s
  | .sharedSourceEvent n => Sys2Proof.Machine.execSharedSourceEvent n s
  | .shRouteWrite n o v => Sys2Proof.Machine.execShRouteWrite n o v s
  | .mapWindowWrite c n high v => Sys2Proof.Machine.execMapWindowWrite c n high v s
  | .mapKeyWrite c v => Sys2Proof.Machine.execMapKeyWrite c v s
  | .imgLoad c o v => Sys2Proof.Machine.execImgLoad c o v s
  | .imgLoadDone c img pages => Sys2Proof.Machine.execImgLoadDone c img pages s
  | .shareScopeWrite c o v => Sys2Proof.Machine.execShareScopeWrite c o v s
  | .pageMoveStart page dest forced => Sys2Proof.Machine.execPageMoveStart page dest forced s
  | .pageRedirect page => Sys2Proof.Machine.execPageRedirect page s
  | .pageShareCompare a b => Sys2Proof.Machine.execPageShareCompare a b s
  | .slotRelease c deadline => Sys2Proof.Machine.execSlotRelease c deadline s
  | .slotStart k err => Sys2Proof.Machine.execSlotStart k err s
  | .slotFetchArrive k waits => Sys2Proof.Machine.execSlotFetchArrive k waits s
  | .slotComplete k => Sys2Proof.Machine.execSlotComplete k s
  | .slotMiss c => Sys2Proof.Machine.execSlotMiss c s
  | .prefillRelease c => Sys2Proof.Machine.execPrefillRelease c s
  | .prefillEnd c => Sys2Proof.Machine.execPrefillEnd c s
  | .lsMisscntRead c => Sys2Proof.Machine.execLsMisscntRead c s
  | .sprStatRead c => Sys2Proof.Machine.execSprStatRead c s
  | .wgEnd c => Sys2Proof.Machine.execWgEnd c s
  | .wgWait c => Sys2Proof.Machine.execWgWait c s
  | .wgWr8 c => Sys2Proof.Machine.execWgWr8 c s
  | .wgWr16 c => Sys2Proof.Machine.execWgWr16 c s
  | .wgPal c => Sys2Proof.Machine.execWgPal c s
  | .wgTbl c => Sys2Proof.Machine.execWgTbl c s
  | .wgRepl c => Sys2Proof.Machine.execWgRepl c s
  | .wgEndr c => Sys2Proof.Machine.execWgEndr c s
  | .wgIrq c => Sys2Proof.Machine.execWgIrq c s
  | .wgNop c => Sys2Proof.Machine.execWgNop c s
  | .wgJmp c => Sys2Proof.Machine.execWgJmp c s
  | .wgStatRead c => Sys2Proof.Machine.execWgStatRead c s
  | .palDataWrite c by_ v pix => Sys2Proof.Machine.execPalDataWrite c by_ v pix s
  | .palDataRead c => Sys2Proof.Machine.execPalDataRead c s
  | .wbStatRead c => Sys2Proof.Machine.execWbStatRead c s
  | .flipSealWrite h l off wide v => Sys2Proof.Machine.execFlipSealWrite h l off wide v s
  | .sealWrite h l high wide v => Sys2Proof.Machine.execSealWrite h l high wide v s
  | .windowWrite h w sub o v => Sys2Proof.Machine.execWindowWrite h w sub o v s
  | .blitStart c => Sys2Proof.Machine.execBlitStart c s
  | .blitCancel c => Sys2Proof.Machine.execBlitCancel c s
  | .blitOpBegin c => Sys2Proof.Machine.execBlitOpBegin c s
  | .blitBurstDone g err => Sys2Proof.Machine.execBlitBurstDone g err s
  | .fgStart c k => Sys2Proof.Machine.execFgStart c k s
  | .fgCancel c k => Sys2Proof.Machine.execFgCancel c k s
  | .fgDescFetch c k => Sys2Proof.Machine.execFgDescFetch c k s
  | .fgBeat c k busyDomain => Sys2Proof.Machine.execFgBeat c k busyDomain s
  | .ckStart c => Sys2Proof.Machine.execCkStart c s
  | .ckFinish c => Sys2Proof.Machine.execCkFinish c s
  | .ckAbort c => Sys2Proof.Machine.execCkAbort c s
  | .ckFeed c by_ ix v => Sys2Proof.Machine.execCkFeed c by_ ix v s
  | .ckResultReady c => Sys2Proof.Machine.execCkResultReady c s
  | .timerCount c who => Sys2Proof.Machine.execTimerCount c who s
  | .tgStartTimers c who => Sys2Proof.Machine.execTgStartTimers c who s
  | .tgStopTimers c who => Sys2Proof.Machine.execTgStopTimers c who s
  | .timerCaptureCmd c n => Sys2Proof.Machine.execTimerCaptureCmd c n s
  | .timerCapRead c n => Sys2Proof.Machine.execTimerCapRead c n s
  | .timerCmpWrite c n high v => Sys2Proof.Machine.execTimerCmpWrite c n high v s
  | .timerCntRead c n => Sys2Proof.Machine.execTimerCntRead c n s
  | .wdTick c => Sys2Proof.Machine.execWdTick c s
  | .wdWarnReached c => Sys2Proof.Machine.execWdWarnReached c s
  | .wdExpire c => Sys2Proof.Machine.execWdExpire c s
  | .wdKickWrite c v => Sys2Proof.Machine.execWdKickWrite c v s
  | .wdKeyWrite c v => Sys2Proof.Machine.execWdKeyWrite c v s
  | .wdCtlWrite c v => Sys2Proof.Machine.execWdCtlWrite c v s
  | .wdConfigWrite c warn high v => Sys2Proof.Machine.execWdConfigWrite c warn high v s
  | .samplePoint c late => Sys2Proof.Machine.execSamplePoint c late s
  | .soundRegWrite c by_ addr v pix => Sys2Proof.Machine.execSoundRegWrite c by_ addr v pix s
  | .vcFifoPush c v b => Sys2Proof.Machine.execVcFifoPush c v b s
  | .vcFlush c v => Sys2Proof.Machine.execVcFlush c v s
  | .waveFetch c v => Sys2Proof.Machine.execWaveFetch c v s
  | .masterClockLoss fam => Sys2Proof.Machine.execMasterClockLoss fam s
  | .masterClockReturn fam => Sys2Proof.Machine.execMasterClockReturn fam s
  | .bridgeLock b => Sys2Proof.Machine.execBridgeLock b s
  | .hsSrcWrite n o v => Sys2Proof.Machine.execHsSrcWrite n o v s
  | .gainWrite g o v => Sys2Proof.Machine.execGainWrite g o v s
  | .gainStepTimeout g => Sys2Proof.Machine.execGainStepTimeout g s
  | .jackInsert n => Sys2Proof.Machine.execJackInsert n s
  | .jackTyped n codes => Sys2Proof.Machine.execJackTyped n codes s
  | .jackRemove n => Sys2Proof.Machine.execJackRemove n s
  | .buttonSample n code => Sys2Proof.Machine.execButtonSample n code s
  | .audioPacket c port => Sys2Proof.Machine.execAudioPacket c port s
  | .keeperCoreDecision c core forced => Sys2Proof.Machine.execKeeperCoreDecision c core forced s
  | .keeperPageDecision heat => Sys2Proof.Machine.execKeeperPageDecision heat s
  | .keeperRundevDecision c dev accepted forced => Sys2Proof.Machine.execKeeperRundevDecision c dev accepted forced s
  | .coreMoveDone c => Sys2Proof.Machine.execCoreMoveDone c s
  | .fenceWrite sub o v => Sys2Proof.Machine.execFenceWrite sub o v s
  | .capRecordWrite r sub o v => Sys2Proof.Machine.execCapRecordWrite r sub o v s
  | .linkSignal l present => Sys2Proof.Machine.execLinkSignal l present s
  | .linkTrainRateDone l accepted => Sys2Proof.Machine.execLinkTrainRateDone l accepted s
  | .linkRetryTimeout l => Sys2Proof.Machine.execLinkRetryTimeout l s
  | .lkRetrainWrite l o v => Sys2Proof.Machine.execLkRetrainWrite l o v s
  | .jajanHello l h => Sys2Proof.Machine.execJajanHello l h s
  | .jajanCtrl l bytes => Sys2Proof.Machine.execJajanCtrl l bytes s
  | .jajanNak l bytes => Sys2Proof.Machine.execJajanNak l bytes s
  | .jajanBeam l bytes m => Sys2Proof.Machine.execJajanBeam l bytes m s
  | .jajanSlice l bytes => Sys2Proof.Machine.execJajanSlice l bytes s
  | .jajanAudio l bytes => Sys2Proof.Machine.execJajanAudio l bytes s
  | .jajanEvent l bytes input => Sys2Proof.Machine.execJajanEvent l bytes input s
  | .jajanCellio l bytes => Sys2Proof.Machine.execJajanCellio l bytes s
  | .jajanDict l bytes => Sys2Proof.Machine.execJajanDict l bytes s
  | .jajanPage l bytes => Sys2Proof.Machine.execJajanPage l bytes s
  | .jajanState l bytes => Sys2Proof.Machine.execJajanState l bytes s
  | .migcStart l bytes n => Sys2Proof.Machine.execMigcStart l bytes n s
  | .migcReady l bytes => Sys2Proof.Machine.execMigcReady l bytes s
  | .migcGo l bytes core => Sys2Proof.Machine.execMigcGo l bytes core s
  | .migcAck l bytes => Sys2Proof.Machine.execMigcAck l bytes s
  | .migcCancel l bytes exceeded => Sys2Proof.Machine.execMigcCancel l bytes exceeded s
  | .replayTimeout l => Sys2Proof.Machine.execReplayTimeout l s
  | .idleCtrlTimer l => Sys2Proof.Machine.execIdleCtrlTimer l s
  | .delayMeasure l ns => Sys2Proof.Machine.execDelayMeasure l ns s
  | .swElectWrite o v => Sys2Proof.Machine.execSwElectWrite o v s
  | .masterLost => Sys2Proof.Machine.execMasterLost s
  | .precopyPassDone c => Sys2Proof.Machine.execPrecopyPassDone c s
  | .switchWindowOpen c => Sys2Proof.Machine.execSwitchWindowOpen c s
  | .vfFlr c => Sys2Proof.Machine.execVfFlr c s
  | .pf0Flr => Sys2Proof.Machine.execPf0Flr s
  | .queueCtlWrite q off v => Sys2Proof.Machine.execQueueCtlWrite q off v s
  | .queueHeadWrite q v => Sys2Proof.Machine.execQueueHeadWrite q v s
  | .queuePop q bytes => Sys2Proof.Machine.execQueuePop q bytes s
  | .queueWindowWrite q part data tag => Sys2Proof.Machine.execQueueWindowWrite q part data tag s
  | .queueDrop q => Sys2Proof.Machine.execQueueDrop q s
  | .packetDeliver q => Sys2Proof.Machine.execPacketDeliver q s
  | .queueStall q => Sys2Proof.Machine.execQueueStall q s
  | .commandPacketTake => Sys2Proof.Machine.execCommandPacketTake s
  | .hostMailboxWrite c part stat v => Sys2Proof.Machine.execHostMailboxWrite c part stat v s
  | .mbAckWrite c v => Sys2Proof.Machine.execMbAckWrite c v s
  | .eventPush c by_ ix v => Sys2Proof.Machine.execEventPush c by_ ix v s
  | .eventDrop c => Sys2Proof.Machine.execEventDrop c s
  | .hdEnWrite h o v => Sys2Proof.Machine.execHdEnWrite h o v s
  | .headLineStart h => Sys2Proof.Machine.execHeadLineStart h s
  | .overlayRowArrive h l line dir bytes => Sys2Proof.Machine.execOverlayRowArrive h l line dir bytes s
  | .hotplug h sink => Sys2Proof.Machine.execHotplug h sink s
  | .headTrainDone h ok => Sys2Proof.Machine.execHeadTrainDone h ok s
  | .headTrainRetry h => Sys2Proof.Machine.execHeadTrainRetry h s
  | .dictOpen o mac body => Sys2Proof.Machine.execDictOpen o mac body s
  | .dictClose o body => Sys2Proof.Machine.execDictClose o body s
  | .dictRead o body => Sys2Proof.Machine.execDictRead o body s
  | .dictWrite o body => Sys2Proof.Machine.execDictWrite o body s
  | .dictKeep o body => Sys2Proof.Machine.execDictKeep o body s
  | .sessionIdleTimeout session => Sys2Proof.Machine.execSessionIdleTimeout session s
  | .mbxGo len buf => Sys2Proof.Machine.execMbxGo len buf s
  | .t1sFrame ok bytes => Sys2Proof.Machine.execT1sFrame ok bytes s
  | .t1sAppRxRead o => Sys2Proof.Machine.execT1sAppRxRead o s
  | .canFrame k fd id data => Sys2Proof.Machine.execCanFrame k fd id data s
  | .canSegTimeout k node => Sys2Proof.Machine.execCanSegTimeout k node s
  | .canAppRxRead k o => Sys2Proof.Machine.execCanAppRxRead k o s
  | .jrBlockRead o => Sys2Proof.Machine.execJrBlockRead o s
  | .dbgChalRead c o => Sys2Proof.Machine.execDbgChalRead c o s
  | .dbgRespWrite c o resp => Sys2Proof.Machine.execDbgRespWrite c o resp s
  | .challengeExpire session => Sys2Proof.Machine.execChallengeExpire session s
  | .dbgLockoutEnd => Sys2Proof.Machine.execDbgLockoutEnd s
  | .dbgDropWrite c o v => Sys2Proof.Machine.execDbgDropWrite c o v s
  | .dbgHalt c o => Sys2Proof.Machine.execDbgHalt c o s
  | .dbgStep c o => Sys2Proof.Machine.execDbgStep c o s
  | .dbgResume c o pix => Sys2Proof.Machine.execDbgResume c o pix s
  | .dbgDataRead c o => Sys2Proof.Machine.execDbgDataRead c o s
  | .dbgDataWrite c o bytes => Sys2Proof.Machine.execDbgDataWrite c o bytes s
  | .dbgVtOutRead c o => Sys2Proof.Machine.execDbgVtOutRead c o s
  | .dbgVtInWrite c o bytes => Sys2Proof.Machine.execDbgVtInWrite c o bytes s
  | .vtTxWrite c v => Sys2Proof.Machine.execVtTxWrite c v s
  | .vtRxRead c => Sys2Proof.Machine.execVtRxRead c s
  | .vtHostRxRead c => Sys2Proof.Machine.execVtHostRxRead c s
  | .vtHostTxWrite c stat v => Sys2Proof.Machine.execVtHostTxWrite c stat v s
  | .powerOn => Sys2Proof.Machine.execPowerOn s
  | .railsGood id boot => Sys2Proof.Machine.execRailsGood id boot s
  | .fusesRead f => Sys2Proof.Machine.execFusesRead f s
  | .bootImageDone r => Sys2Proof.Machine.execBootImageDone r s
  | .bootGo addr len => Sys2Proof.Machine.execBootGo addr len s
  | .trainDone ch area => Sys2Proof.Machine.execTrainDone ch area s
  | .modeReqReady o => Sys2Proof.Machine.execModeReqReady o s
  | .modeReqServe o => Sys2Proof.Machine.execModeReqServe o s
  | .modeReqRetain o => Sys2Proof.Machine.execModeReqRetain o s
  | .modeReqDiag o => Sys2Proof.Machine.execModeReqDiag o s
  | .drainComplete => Sys2Proof.Machine.execDrainComplete s
  | .throttleStep t => Sys2Proof.Machine.execThrottleStep t s
  | .pdEnWrite d o v => Sys2Proof.Machine.execPdEnWrite d o v s
  | .pdDrainEnd d left => Sys2Proof.Machine.execPdDrainEnd d left s
  | .pdRampDownEnd d => Sys2Proof.Machine.execPdRampDownEnd d s
  | .pdRampUpEnd d => Sys2Proof.Machine.execPdRampUpEnd d s
  | .wakeNLow => Sys2Proof.Machine.execWakeNLow s
  | .padWakeEdge p rising => Sys2Proof.Machine.execPadWakeEdge p rising s
  | .wakeWordWrite => Sys2Proof.Machine.execWakeWordWrite s
  | .fieldWakeFrame => Sys2Proof.Machine.execFieldWakeFrame s
  | .wakeTimeAlarm => Sys2Proof.Machine.execWakeTimeAlarm s
  | .resetNLow => Sys2Proof.Machine.execResetNLow s
  | .devResetWrite o v => Sys2Proof.Machine.execDevResetWrite o v s
  | .mcWdogExpire => Sys2Proof.Machine.execMcWdogExpire s
  | .fhAutoReset => Sys2Proof.Machine.execFhAutoReset s
  | .thermalTrip t => Sys2Proof.Machine.execThermalTrip t s
  | .converterFrame temps taps ain => Sys2Proof.Machine.execConverterFrame temps taps ain s
  | .rldRefresh ch rank bank => Sys2Proof.Machine.execRldRefresh ch rank bank s
  | .rldDriftTrack ch => Sys2Proof.Machine.execRldDriftTrack ch s
  | .patrolScrub u page word ecc => Sys2Proof.Machine.execPatrolScrub u page word ecc s
  | .gpOwnerWrite p o v => Sys2Proof.Machine.execGpOwnerWrite p o v s
  | .gvSetWrite c by_ high v => Sys2Proof.Machine.execGvSetWrite c by_ high v s
  | .gvClrWrite c by_ high v => Sys2Proof.Machine.execGvClrWrite c by_ high v s
  | .pinFilterSettle p level => Sys2Proof.Machine.execPinFilterSettle p level s
  | .bankVoltageChange b v => Sys2Proof.Machine.execBankVoltageChange b v s
  | .suppliesRemoved => Sys2Proof.Machine.execSuppliesRemoved s
  | .hostLinkChange k => Sys2Proof.Machine.execHostLinkChange k s
  | .vfEnableWrite on => Sys2Proof.Machine.execVfEnableWrite on s
  | .linkUncorrectableCodewords l => Sys2Proof.Machine.execLinkUncorrectableCodewords l s
  | .audioFamilySample fam mics => Sys2Proof.Machine.execAudioFamilySample fam mics s
  | .switchDeadline c => Sys2Proof.Machine.execSwitchDeadline c s
  | .writebackWriteDone c => Sys2Proof.Machine.execWritebackWriteDone c s
  | .channelTrainDone ch t => Sys2Proof.Machine.execChannelTrainDone ch t s
  | .canControllerStateChange k st => Sys2Proof.Machine.execCanControllerStateChange k st s
  | .thermalTripRelease t => Sys2Proof.Machine.execThermalTripRelease t s
  | .tapClockEdge trst rising tms tdi ir => Sys2Proof.Machine.execTapClockEdge trst rising tms tdi ir s

end Sys2Proof.Machine
end

