-- ==== Sys2Proof/Machine/Step.lean ====
section
/-! DEFINITION. One step of the device: the command at the front of the queue takes effect; on an empty queue device
time passes. -/

namespace Sys2Proof.Machine

/-- Take the front command out of the queue and run it on the rest; with no command the device idles. -/
def step (s : State) : Host.Outcome State Fault Refusal :=
  match s.pending with
  | [] => .next s.idle
  | i :: r => exec i { s with pending := r }

/-- The table gives its rows no bits, so no word spells a command (the queue is loaded from outside). -/
def State.withFetchWord (s : State) (nbits w : Nat) : State :=
  match Sys2Proof.decodeTableWord nbits w with
  | none => s
  | some i => { s with pending := i :: s.pending }

end Sys2Proof.Machine
end

