-- ==== Sys2Proof/Safety.lean ====
section
/-! DEFINITION. The terms in which claims about the device are made: when a command is due, what a command leaves alone,
what "one EK8 instruction ran" means, and the invariants of the state. -/

namespace Sys2Proof.Machine

/-! ## Commands of a block -/

/-- Command `i` acts on `s` and answers a next state with property `p`. -/
def Completes (i : Instr) (s : State) (p : State → Prop) : Prop := ∃ t, exec i s = .next t ∧ p t

/-- Everything outside cell `c` is as before. -/
def State.onlyCell (s t : State) (c : CellNo) : Prop := t = s.setCell c (t.cell c)

/-- Cell `c` exists and cells run (R2, R483). -/
def State.liveCell (s : State) (c : CellNo) : Bool := s.present c && s.cellsRun

/-- Cell `c` exists, cells run, and it has left LOADED (R96). -/
def State.startedCell (s : State) (c : CellNo) : Bool := s.liveCell c && (s.cell c).ctl.st.started

/-! ## EK8 instructions -/

/-- The core of cell `c` issues the instruction whose bytes are `bs`: nothing is due before it, no break patch names it,
and these bytes stand at PC (R92, R95, R102). -/
def State.issues (s : State) (c : CellNo) (bs : List Byte) : Bool :=
  s.present c && s.canIssue c && (s.cell c).breakDue.isNone && decide ((s.cell c).fetch (s.cell c).core.pc bs = .same)

/-- The core of cell `c`. -/
def State.core (s : State) (c : CellNo) : Core := (s.cell c).core

/-- A flag of F by its bit (R60): 0 C, 1 Z, 2 N, 3 V, 4 H, 5 I. -/
def Core.flag (k : Core) (n : Nat) : Bool := k.f.getLsbD n

/-- The flags C, Z, N, V, H of `k` are these; I is that of `j`. -/
def Core.flagsAre (k j : Core) (c z n v h : Bool) : Prop :=
  k.flag 0 = c ∧ k.flag 1 = z ∧ k.flag 2 = n ∧ k.flag 3 = v ∧ k.flag 4 = h ∧ k.flag 5 = j.flag 5

/-- Every byte register but those of `l` is as before. -/
def Core.keepsB (j k : Core) (l : List (Fin 16)) : Prop := ∀ n, n ∉ l → k.rb n = j.rb n

/-- What an instruction that stores nothing leaves alone in its cell: memory, I/O registers, mapper, interrupts, video,
devices, the cell state and the trap registers. -/
def Cell.keepsAll (x y : Cell) : Prop :=
  y.mem = x.mem ∧ y.regs = x.regs ∧ y.live = x.live ∧ y.map = x.map ∧ y.ic = x.ic ∧ y.beam = x.beam ∧ y.vid = x.vid ∧
  y.img = x.img ∧ y.host = x.host ∧ y.xs = x.xs ∧ y.kp = x.kp ∧ y.dirty = x.dirty ∧ y.blit = x.blit ∧ y.fg = x.fg ∧
  y.ck = x.ck ∧ y.tm = x.tm ∧ y.snd = x.snd ∧ y.capt = x.capt ∧ y.prof = x.prof ∧ y.ctl.st = x.ctl.st ∧
  y.ctl.trapCause = x.ctl.trapCause ∧ y.ctl.trapData = x.ctl.trapData ∧ y.ctl.trapAddr = x.ctl.trapAddr ∧
  y.ctl.trapOp = x.ctl.trapOp

/-- What a storing instruction leaves alone in its cell: all of the above but memory and what notes a store. -/
def Cell.keepsButMem (x y : Cell) : Prop :=
  y.regs = x.regs ∧ y.live = x.live ∧ y.map = x.map ∧ y.ic = x.ic ∧ y.beam = x.beam ∧
  y.img = x.img ∧ y.host = x.host ∧ y.xs = x.xs ∧ y.kp = x.kp ∧ y.blit = x.blit ∧ y.fg = x.fg ∧
  y.ck = x.ck ∧ y.tm = x.tm ∧ y.snd = x.snd ∧ y.capt = x.capt ∧ y.prof = x.prof ∧ y.ctl.st = x.ctl.st ∧
  y.ctl.trapCause = x.ctl.trapCause ∧ y.ctl.trapData = x.ctl.trapData ∧ y.ctl.trapAddr = x.ctl.trapAddr ∧
  y.ctl.trapOp = x.ctl.trapOp

/-- The instruction of `len` bytes went on in sequence: PC is past it unless the loop unit returns to a loop start
(R83), it was counted (R103), and with no product in flight MH:ML is kept (R87). -/
def Core.wentOn (j k : Core) (len : Nat) : Prop :=
  (j.loops = [] → k.pc = j.pc + BitVec.ofNat 16 len ∧ k.loops = []) ∧ k.ed = j.ed ∧
  (j.prod = none → k.mhml = j.mhml ∧ k.prod = none)

/-- One instruction of `len` bytes ran that works on core registers only. -/
def State.ranCore (s t : State) (c : CellNo) (len : Nat) : Prop :=
  s.onlyCell t c ∧ (s.cell c).keepsAll (t.cell c) ∧ (s.core c).wentOn (t.core c) len ∧
  (t.cell c).pace.avail + 1 = (s.cell c).pace.avail

/-- The same, with SP kept. -/
def State.ranReg (s t : State) (c : CellNo) (len : Nat) : Prop := s.ranCore t c len ∧ (t.core c).sp = (s.core c).sp

/-- The bytes `vs` stand at the cell space addresses `ps`, and every other byte of cell `c`'s memory is as before. -/
def State.storedAt (s t : State) (c : CellNo) (ps : List Nat) (vs : List Byte) : Prop :=
  ps.map (t.cell c).readMem = vs ∧ ∀ a, a ∉ ps → (t.cell c).readMem a = (s.cell c).readMem a

/-- One storing instruction of `len` bytes ran: `vs` was stored at `ps` and nothing else of memory changed. -/
def State.ranStore (s t : State) (c : CellNo) (len : Nat) (ps : List Nat) (vs : List Byte) : Prop :=
  s.onlyCell t c ∧ (s.cell c).keepsButMem (t.cell c) ∧ (s.core c).wentOn (t.core c) len ∧ s.storedAt t c ps vs

/-- The D-space bytes from `a` are readable and stand at the cell space addresses `ps` (R66, R166). -/
def State.readsAt (s : State) (c : CellNo) (a : Half) (ps : List Nat) : Prop :=
  (s.cell c).dAddrs a false ps.length = .ok ps

/-- The D-space bytes from `a` are writable and stand at the cell space addresses `ps`. -/
def State.writesAt (s : State) (c : CellNo) (a : Half) (ps : List Nat) : Prop :=
  (s.cell c).dAddrs a true ps.length = .ok ps

/-- Bytes of an instruction of a destination register and a source that is a register or a byte (R71): opcode `op` with
RR, or `op` + 10h with R and the byte. -/
def byteForm (op : Byte) (d : Fin 16) : ByteSrc → List Byte
  | .reg r => [op, BitVec.ofNat 8 (16 * d.val + r.val)]
  | .imm v => [op + 0x10, BitVec.ofNat 8 d.val, v]

/-- Control went to `pc` at the end of an instruction that stored nothing. -/
def State.wentTo (s t : State) (c : CellNo) (pc : Half) : Prop :=
  s.onlyCell t c ∧ (s.cell c).keepsAll (t.cell c) ∧ (t.core c).pc = pc ∧ (t.core c).b = (s.core c).b ∧
  (t.core c).f = (s.core c).f ∧ (t.core c).sp = (s.core c).sp ∧ (t.core c).loops = (s.core c).loops

/-- The entry through `vector` from cell `c` would be made (R112, R558): it reads its handler address `target` and
stores the return address and F at `ps`, whose first two hold PC and whose third holds F. -/
def State.entryReady (s : State) (c : CellNo) (vector : Nat) (target : Half) (ps : List Nat) : Prop :=
  (s.core c).ed ≠ 255 ∧ (s.cell c).entryPlan vector = .ok (target, ps)

/-- The entry was made with return address `ret` (R90): PC and F stand below the old SP, ED is one more, PC is the
handler's address, and nothing else of memory changed. -/
def State.entered (s t : State) (c : CellNo) (target ret : Half) (ps : List Nat) : Prop :=
  s.onlyCell t c ∧ (t.core c).pc = target ∧ (t.core c).sp = (s.core c).sp - 3 ∧ (t.core c).ed = (s.core c).ed + 1 ∧
  (t.core c).b = (s.core c).b ∧ (t.core c).f = (s.core c).f ∧ (t.core c).loops = (s.core c).loops ∧
  s.storedAt t c ps [loByte ret, hiByte ret, (s.core c).f]

/-- The trap registers of cell `c` (R108) are these. -/
def State.trapIs (t : State) (c : CellNo) (cause : BitVec 4) (addr : Half) (data : Byte) (op : Word) : Prop :=
  (t.cell c).ctl.trapCause = cause ∧ (t.cell c).ctl.trapAddr = addr ∧ (t.cell c).ctl.trapData = data ∧
  (t.cell c).ctl.trapOp = op

/-- No entry, command or halt keeps the core of cell `c` from its next instruction, and no break patch names it. -/
def State.atBoundary (s : State) (c : CellNo) : Bool := s.present c && s.canIssue c && (s.cell c).breakDue.isNone

/-- The microword of a one-word extension routine (R123): SEQ 6h (DISP), PCOP 01b with LIT 0 (PC moves past the opcode),
and the parity bits that make every quarter odd; every other field is 0. -/
def stepWord : BitVec 144 := 0x800000000000010000800000000800000006#144

/-- Cell `c` is live and its beam runs, past its first program frame start (R44). -/
def State.beamCell (s : State) (c : CellNo) : Bool :=
  s.liveCell c && (s.cell c).beam.on && !(s.cell c).beam.waiting

/-- The house beam follows the pulses of the sync input, in a mode in which it runs (R34, R36). -/
def State.pulsesDue (s : State) : Bool := s.pwr.mode.beamRuns && s.followsPulses

/-! ## The object dictionary -/

/-- The dictionary is served, and `q` is the open session of origin `o` (R439). -/
def State.servedBy (s : State) (o : Origin) (q : Session) : Prop :=
  s.dictServed = true ∧ s.originSession o = some q ∧ s.mc.sessions.find? (fun k => k.same q) = some q

/-- Object `idx`.`sub` is `row` of unit `unit` of the table at `base`, its state lies on this device, and a write of `v`
by session `q` with the object's own type has result `code` (R434 to R436). -/
def State.writeGives (s : State) (q : Session) (base unit idx sub v : Nat) (row : ObjRow) (code : Byte) : Prop :=
  let b : Obj := ⟨base, unit, idx, sub, row⟩
  s.findObj idx sub = some b ∧ s.awayAt b = none ∧ v < 256 ^ tySize row.ty ∧
  s.writeCode q b row.ty (toBytes v (tySize row.ty)) false = code

/-- The same for a value of variable length. -/
def State.bytesGive (s : State) (q : Session) (base unit idx sub : Nat) (bytes : List Byte) (row : ObjRow) (code : Byte) : Prop :=
  let b : Obj := ⟨base, unit, idx, sub, row⟩
  s.findObj idx sub = some b ∧ s.awayAt b = none ∧ s.writeCode q b row.ty bytes false = code

/-- Object `idx`.`sub` is `row` of unit `unit` of the table at `base`, of variable length, its state lies on this device, and
nothing refuses session `q` a read of it (R434 to R436). -/
def State.readsObj (s : State) (q : Session) (base unit idx sub : Nat) (row : ObjRow) : Prop :=
  let b : Obj := ⟨base, unit, idx, sub, row⟩
  s.findObj idx sub = some b ∧ s.awayAt b = none ∧ s.readCode q b = 0 ∧ 9 ≤ row.ty

/-- A message of `op` with body `l` reaches the open session `q` of CAN bus 0 with node `o.node` for the first time, and
breaks no rule of R441 and R442; it is one for this device. -/
def State.canMessage (s : State) (o : Origin) (q : Session) (op : Nat) (l : List Byte) : Prop :=
  let h := msgHead l
  s.dictServed = true ∧ o.transport = 4 ∧ 12 ≤ l.length ∧ l.getD 0 0 = 1 ∧ h.op = op ∧ msgBad h l true = false ∧
  s.sessionOn 4 h.session = some q ∧ q.lastReq ≠ l ∧ s.foreign h = none ∧ s.mc.sessions.find? (fun k => k.same q) = some q

/-- The body `l` is a WRITE of the one item `i` for this device in session `n` of transport `t`, whose record is `q`, comes
for the first time, and breaks no rule (R441, R442, R448, R449). -/
def State.fixedWrite (s : State) (t : Fin 7) (n : Half) (q : Session) (l : List Byte) (i : Item) (exact_ : Bool) : Prop :=
  let h := msgHead l
  s.sessionOn t n = some q ∧ h.session = n ∧ h.op = 4 ∧ q.lastReq ≠ l ∧ msgBad h l exact_ = false ∧ s.foreign h = none ∧
  msgItems h l = [i]

/-! ## The swarm -/

/-- The frame `j` of type `kind` reaches link `l`, which is UP, in its turn and without error, for this device (R376 to R380). -/
def State.receives (s : State) (l : Fin 7) (kind : Nat) (bytes : List Byte) (j : JFrame) : Prop :=
  s.linkOn l = true ∧ (s.swarmLink l).state = lkUp ∧ JFrame.parse bytes = some j ∧ j.kind = kind ∧ kind < 12 ∧
  j.seq = (s.swarmLink l).rxSeq ∧ j.dst = s.devId

/-- The frame `j` is the only part of its packet: END is set, and no part under its TAG is held. -/
def State.wholePacket (s : State) (l : Fin 7) (j : JFrame) : Prop :=
  j.last = true ∧ Table.read (fun _ => []) (s.swarmLink l).parts (j.kind * 2 ^ 32 + j.tag.toNat) = []

/-! ## The host -/

/-- The cell of queue `q`, if it has one, exists (R2, R400). -/
def State.queueThere (s : State) (q : QueueId) : Bool :=
  match qCell q with
  | some c => s.present c
  | none => true

/-! ## The invariant -/

/-- What every step keeps: cell space is in canonical form (R163), and the journal ring holds the newest entries (R452). -/
def State.Inv (s : State) : Prop :=
  (∀ c, Memory.wf (s.cell c).mem = true) ∧ s.mc.journal.length = min 8192 s.mc.jrSeq

end Sys2Proof.Machine
end

