-- ==== Sys2Proof/Certificates/Slice0/Obligations.lean ====
section
/-! DEFINITION. The statements for the provers. `Completes i s p` says that `exec i s` answers a next state with `p`. -/

open Sys2Proof Sys2Proof.Machine

/-! ## The step -/

/-- A step with a command at the front of the queue is that command's effect on the state with the queue's rest. MODEL'S
CHOICE (assumption 2): on an empty queue 40 ns of device time pass while the crystal runs (R28), and nothing passes in OFF;
nothing else changes. -/
def Obligations.StepRunsFront : Prop :=
  (∀ (s : State) (i : Instr) (r : List Instr), s.pending = i :: r → step s = exec i { s with pending := r }) ∧
  (∀ s : State, s.pending = [] →
     (s.pwr.mode = .off → step s = .next s) ∧
     (s.pwr.mode ≠ .off → s.pwr.crystalOff = false → step s = .next { s with devTime := s.devTime + 40 }))

/-! ## EK8: byte instructions -/

/-- R61, R71: ADD, ADC, SUB and SBC in both forms: the result and C, Z, N, V, H; every other register and the rest of the
cell are kept. -/
def Obligations.ByteAddSub : Prop :=
  ∀ (s : State) (c : CellNo) (d : Fin 16) (x : ByteSrc),
    let k := s.core c
    let a := k.rb d
    let b := x.val k
    let cy := if k.flag 0 then 1 else 0
    let out (t : State) (len : Nat) (r : Byte) : Prop :=
      s.ranReg t c len ∧ (t.core c).rb d = r ∧ k.keepsB (t.core c) [d]
    (s.issues c (byteForm 0x10 d x) = true → Completes (.add c d x) s fun t =>
      out t (byteForm 0x10 d x).length (a + b) ∧
      (t.core c).flagsAre k (decide (256 ≤ a.toNat + b.toNat)) (a + b == 0) (a + b).msb
        (decide (a.toInt + b.toInt ≠ (a + b).toInt)) (decide (16 ≤ a.toNat % 16 + b.toNat % 16))) ∧
    (s.issues c (byteForm 0x11 d x) = true → Completes (.adc c d x) s fun t =>
      let r := a + b + BitVec.ofNat 8 cy
      out t (byteForm 0x11 d x).length r ∧
      (t.core c).flagsAre k (decide (256 ≤ a.toNat + b.toNat + cy)) (r == 0) r.msb
        (decide (a.toInt + b.toInt + cy ≠ r.toInt)) (decide (16 ≤ a.toNat % 16 + b.toNat % 16 + cy))) ∧
    (s.issues c (byteForm 0x12 d x) = true → Completes (.sub c d x) s fun t =>
      out t (byteForm 0x12 d x).length (a - b) ∧
      (t.core c).flagsAre k (decide (a.toNat < b.toNat)) (a - b == 0) (a - b).msb
        (decide (a.toInt - b.toInt ≠ (a - b).toInt)) (decide (a.toNat % 16 < b.toNat % 16))) ∧
    (s.issues c (byteForm 0x13 d x) = true → Completes (.sbc c d x) s fun t =>
      let r := a - b - BitVec.ofNat 8 cy
      out t (byteForm 0x13 d x).length r ∧
      (t.core c).flagsAre k (decide (a.toNat < b.toNat + cy)) (r == 0) r.msb
        (decide (a.toInt - b.toInt - cy ≠ r.toInt)) (decide (a.toNat % 16 < b.toNat % 16 + cy)))

/-- R71: AND, OR, XOR and TST set Z and N, clear C and V and keep H; CMP sets the flags of SUB; MOV keeps every flag. CMP
and TST write no register. R72: the single-register byte instructions INC to SWAP: the result, and each flag as the table of
R72 gives it. -/
def Obligations.ByteLogicAndUnary : Prop :=
  (∀ (s : State) (c : CellNo) (d : Fin 16) (x : ByteSrc),
     let k := s.core c
     let a := k.rb d
     let b := x.val k
     let out (t : State) (len : Nat) (r : Byte) : Prop :=
       s.ranReg t c len ∧ (t.core c).rb d = r ∧ k.keepsB (t.core c) [d]
     let logic (t : State) (r : Byte) : Prop := (t.core c).flagsAre k false (r == 0) r.msb false (k.flag 4)
     (s.issues c (byteForm 0x14 d x) = true → Completes (.and c d x) s fun t =>
       out t (byteForm 0x14 d x).length (a &&& b) ∧ logic t (a &&& b)) ∧
     (s.issues c (byteForm 0x15 d x) = true → Completes (.or c d x) s fun t =>
       out t (byteForm 0x15 d x).length (a ||| b) ∧ logic t (a ||| b)) ∧
     (s.issues c (byteForm 0x16 d x) = true → Completes (.xor c d x) s fun t =>
       out t (byteForm 0x16 d x).length (a ^^^ b) ∧ logic t (a ^^^ b)) ∧
     (s.issues c (byteForm 0x17 d x) = true → Completes (.cmp c d x) s fun t =>
       out t (byteForm 0x17 d x).length a ∧
       (t.core c).flagsAre k (decide (a.toNat < b.toNat)) (a - b == 0) (a - b).msb
         (decide (a.toInt - b.toInt ≠ (a - b).toInt)) (decide (a.toNat % 16 < b.toNat % 16))) ∧
     (s.issues c (byteForm 0x18 d x) = true → Completes (.mov c d x) s fun t =>
       out t (byteForm 0x18 d x).length b ∧ (t.core c).f = k.f) ∧
     (s.issues c (byteForm 0x19 d x) = true → Completes (.tst c d x) s fun t =>
       out t (byteForm 0x19 d x).length a ∧ logic t (a &&& b))) ∧
  (∀ (s : State) (c : CellNo) (d : Fin 16),
     let k := s.core c
     let a := k.rb d
     let op (n : Byte) : List Byte := [n, BitVec.ofNat 8 d.val]
     let out (t : State) (r : Byte) : Prop := s.ranReg t c 2 ∧ (t.core c).rb d = r ∧ k.keepsB (t.core c) [d]
     let cin : Byte := if k.flag 0 then 1 else 0
     (s.issues c (op 0x30) = true → Completes (.inc c d) s fun t =>
       out t (a + 1) ∧ (t.core c).flagsAre k (k.flag 0) (a + 1 == 0) (a + 1).msb (a == 0x7F) (decide (a.toNat % 16 = 15))) ∧
     (s.issues c (op 0x31) = true → Completes (.dec c d) s fun t =>
       out t (a - 1) ∧ (t.core c).flagsAre k (k.flag 0) (a - 1 == 0) (a - 1).msb (a == 0x80) (decide (a.toNat % 16 = 0))) ∧
     (s.issues c (op 0x32) = true → Completes (.neg c d) s fun t =>
       out t (-a) ∧ (t.core c).flagsAre k (a != 0) (a == 0) (-a).msb (a == 0x80) (decide (a.toNat % 16 ≠ 0))) ∧
     (s.issues c (op 0x33) = true → Completes (.not c d) s fun t =>
       out t (~~~a) ∧ (t.core c).flagsAre k (k.flag 0) (~~~a == 0) (~~~a).msb false (k.flag 4)) ∧
     (s.issues c (op 0x34) = true → Completes (.shl c d) s fun t =>
       out t (a <<< 1) ∧ (t.core c).flagsAre k (a.getLsbD 7) (a <<< 1 == 0) (a <<< 1).msb false (k.flag 4)) ∧
     (s.issues c (op 0x35) = true → Completes (.shr c d) s fun t =>
       out t (a >>> 1) ∧ (t.core c).flagsAre k (a.getLsbD 0) (a >>> 1 == 0) false false (k.flag 4)) ∧
     (s.issues c (op 0x36) = true → Completes (.sar c d) s fun t =>
       let r : Byte := (a >>> 1) ||| (a &&& 0x80)
       out t r ∧ (t.core c).flagsAre k (a.getLsbD 0) (r == 0) a.msb false (k.flag 4)) ∧
     (s.issues c (op 0x37) = true → Completes (.rol c d) s fun t =>
       let r : Byte := (a <<< 1) ||| cin
       out t r ∧ (t.core c).flagsAre k (a.getLsbD 7) (r == 0) r.msb false (k.flag 4)) ∧
     (s.issues c (op 0x38) = true → Completes (.ror c d) s fun t =>
       let r : Byte := (a >>> 1) ||| (cin <<< 7)
       out t r ∧ (t.core c).flagsAre k (a.getLsbD 0) (r == 0) (k.flag 0) false (k.flag 4)) ∧
     (s.issues c (op 0x39) = true → Completes (.swap c d) s fun t =>
       let r : Byte := (a <<< 4) ||| (a >>> 4)
       out t r ∧ (t.core c).flagsAre k (k.flag 0) (r == 0) r.msb (k.flag 3) (k.flag 4)))

/-- R70, R87: MUL and MULS put the product in flight and keep every register and flag; XCH exchanges two registers; CLZ
counts leading zero bits; a product lands in MH:ML. R69, R72: NOP changes no register and no flag; EI, DI, SCF, CLC and CCF
change one flag; MFF reads F and MTF writes it whole. -/
def Obligations.ByteProductsAndFlags : Prop :=
  (∀ (s : State) (c : CellNo) (d r : Fin 16),
     let k := s.core c
     let op (n : Byte) : List Byte := [n, BitVec.ofNat 8 (16 * d.val + r.val)]
     let inFlight (t : State) (p : Half) : Prop :=
       s.onlyCell t c ∧ (s.cell c).keepsAll (t.cell c) ∧ (t.core c).b = k.b ∧ (t.core c).f = k.f ∧ (t.core c).sp = k.sp ∧
       ∃ n, (t.core c).prod = some (p, n)
     (s.issues c (op 0x1A) = true → Completes (.mul c d r) s fun t =>
       inFlight t (BitVec.ofNat 16 ((k.rb d).toNat * (k.rb r).toNat))) ∧
     (s.issues c (op 0x1B) = true → Completes (.muls c d r) s fun t =>
       inFlight t (BitVec.ofInt 16 ((k.rb d).toInt * (k.rb r).toInt))) ∧
     (s.issues c (op 0x1C) = true → Completes (.xch c d r) s fun t =>
       s.ranReg t c 2 ∧ (t.core c).rb d = k.rb r ∧ (t.core c).rb r = k.rb d ∧ k.keepsB (t.core c) [d, r] ∧
       (t.core c).f = k.f) ∧
     (s.issues c (op 0x1D) = true → Completes (.clz c d r) s fun t =>
       s.ranReg t c 2 ∧ k.keepsB (t.core c) [d] ∧ ((t.core c).rb d).toNat ≤ 8 ∧
       (∀ n, n < ((t.core c).rb d).toNat → (k.rb r).getLsbD (7 - n) = false) ∧
       (((t.core c).rb d).toNat < 8 → (k.rb r).getLsbD (7 - ((t.core c).rb d).toNat) = true) ∧
       (t.core c).flagsAre k (k.flag 0) (k.rb r == 0) false (k.flag 3) (k.flag 4)) ∧
     (s.present c = true → Completes (.mulProductLand c) s fun t =>
       s.onlyCell t c ∧ (s.cell c).keepsAll (t.cell c) ∧ (t.core c).b = k.b ∧ (t.core c).pc = k.pc ∧ (t.core c).prod = none ∧
       (∀ p n, k.prod = some (p, n) → (t.core c).mhml = p) ∧ (k.prod = none → (t.core c).mhml = k.mhml))) ∧
  (∀ (s : State) (c : CellNo) (r : Fin 16),
     let k := s.core c
     let kept (t : State) (len : Nat) : Prop := s.ranReg t c len ∧ (t.core c).b = k.b
     (s.issues c [0x00] = true → Completes (.nop c none) s fun t => kept t 1 ∧ (t.core c).f = k.f) ∧
     (s.issues c [0x02] = true → Completes (.ei c) s fun t => kept t 1 ∧ (t.core c).f = k.f ||| 0x20) ∧
     (s.issues c [0x03] = true → Completes (.di c) s fun t => kept t 1 ∧ (t.core c).f = k.f &&& 0xDF) ∧
     (s.issues c [0x07] = true → Completes (.scf c) s fun t => kept t 1 ∧ (t.core c).f = k.f ||| 0x01) ∧
     (s.issues c [0x08] = true → Completes (.clc c) s fun t => kept t 1 ∧ (t.core c).f = k.f &&& 0xFE) ∧
     (s.issues c [0x09] = true → Completes (.ccf c) s fun t => kept t 1 ∧ (t.core c).f = k.f ^^^ 0x01) ∧
     (s.issues c [0x3C, BitVec.ofNat 8 r.val] = true → Completes (.mff c r) s fun t =>
       s.ranReg t c 2 ∧ (t.core c).rb r = k.f ∧ k.keepsB (t.core c) [r] ∧ (t.core c).f = k.f) ∧
     (s.issues c [0x3D, BitVec.ofNat 8 r.val] = true → Completes (.mtf c r) s fun t =>
       kept t 2 ∧ (t.core c).f = k.rb r &&& 0x3F))

/-! ## EK8: word instructions -/

/-- R73: the word instructions on registers: the result, Z N C V of the arithmetic ones, and nothing else. MTM leaves MH:ML
with ws and no product in flight (assumption 8). -/
def Obligations.WordInstructions : Prop :=
  ∀ (s : State) (c : CellNo) (d r : Fin 8) (v : Half) (u : Byte),
    let k := s.core c
    let ww : Byte := BitVec.ofNat 8 (16 * d.val + r.val)
    let w : Byte := BitVec.ofNat 8 d.val
    let pair : List (Fin 16) := [pairLo d, pairHi d]
    let out (t : State) (len : Nat) (x : Half) : Prop :=
      s.ranReg t c len ∧ (t.core c).rw d = x ∧ k.keepsB (t.core c) pair
    let sum (t : State) (a b : Half) : Prop := (t.core c).flagsAre k (decide (65536 ≤ a.toNat + b.toNat)) (a + b == 0)
      (a + b).msb (decide (a.toInt + b.toInt ≠ (a + b).toInt)) (k.flag 4)
    let diff (t : State) (a b : Half) : Prop := (t.core c).flagsAre k (decide (a.toNat < b.toNat)) (a - b == 0)
      (a - b).msb (decide (a.toInt - b.toInt ≠ (a - b).toInt)) (k.flag 4)
    (s.issues c [0x42, ww] = true → Completes (.movw c d (.reg r)) s fun t => out t 2 (k.rw r) ∧ (t.core c).f = k.f) ∧
    (s.issues c [0x2A, w, loByte v, hiByte v] = true → Completes (.movw c d (.imm v)) s fun t =>
      out t 4 v ∧ (t.core c).f = k.f) ∧
    (s.issues c [0x40, ww] = true → Completes (.addw c d (.reg r)) s fun t =>
      out t 2 (k.rw d + k.rw r) ∧ sum t (k.rw d) (k.rw r)) ∧
    (s.issues c [0x2B, w, u] = true → Completes (.addw c d (.imm u)) s fun t =>
      out t 3 (k.rw d + u.signExtend 16) ∧ sum t (k.rw d) (u.signExtend 16)) ∧
    (s.issues c [0x41, ww] = true → Completes (.subw c d r) s fun t =>
      out t 2 (k.rw d - k.rw r) ∧ diff t (k.rw d) (k.rw r)) ∧
    (s.issues c [0x43, ww] = true → Completes (.cmpw c d (.reg r)) s fun t =>
      out t 2 (k.rw d) ∧ diff t (k.rw d) (k.rw r)) ∧
    (s.issues c [0x2C, w, loByte v, hiByte v] = true → Completes (.cmpw c d (.imm v)) s fun t =>
      out t 4 (k.rw d) ∧ diff t (k.rw d) v) ∧
    (s.issues c [0x44, w] = true → Completes (.incw c d) s fun t =>
      out t 2 (k.rw d + 1) ∧ (t.core c).flagsAre k (k.flag 0) (k.rw d + 1 == 0) (k.flag 2) (k.flag 3) (k.flag 4)) ∧
    (s.issues c [0x45, w] = true → Completes (.decw c d) s fun t =>
      out t 2 (k.rw d - 1) ∧ (t.core c).flagsAre k (k.flag 0) (k.rw d - 1 == 0) (k.flag 2) (k.flag 3) (k.flag 4)) ∧
    (s.issues c [0x48, BitVec.ofNat 8 r.val] = true → Completes (.ldsp c r) s fun t =>
      s.ranCore t c 2 ∧ (t.core c).sp = k.rw r ∧ (t.core c).b = k.b ∧ (t.core c).f = k.f) ∧
    (s.issues c [0x49, w] = true → Completes (.stsp c d) s fun t => out t 2 k.sp ∧ (t.core c).f = k.f) ∧
    (s.issues c [0x4A, w] = true → Completes (.mfm c d) s fun t =>
      s.ranReg t c 2 ∧ k.keepsB (t.core c) pair ∧ (t.core c).f = k.f ∧
      (k.prod = none → (t.core c).rw d = k.mhml)) ∧
    (s.issues c [0x4B, BitVec.ofNat 8 r.val] = true → Completes (.mtm c r) s fun t =>
      s.onlyCell t c ∧ (s.cell c).keepsAll (t.cell c) ∧ (t.core c).mhml = k.rw r ∧ (t.core c).prod = none ∧
      (t.core c).b = k.b ∧ (t.core c).f = k.f ∧ (t.core c).sp = k.sp)

/-! ## EK8: the stack, memory and I/O -/

/-- R67, R69, R72, R73, R86: PUSH, PUSHF, PUSHW and PUSHL lower SP by the size of the item and store it there, and store
nothing else; PUSHL moves the top loop entry. R67, R69, R72, R73: POP, POPF, POPW and RET read the stack at SP and raise SP
by the size of the item; memory is kept. -/
def Obligations.StackTransfers : Prop :=
  (∀ (s : State) (c : CellNo) (r : Fin 16) (w : Fin 8) (ps : List Nat),
     let k := s.core c
     let regs (t : State) (n : Half) : Prop :=
       (t.core c).sp = k.sp - n ∧ (t.core c).b = k.b ∧ (t.core c).f = k.f
     (s.issues c [0x3A, BitVec.ofNat 8 r.val] = true → ps.length = 1 → s.writesAt c (k.sp - 1) ps →
       Completes (.push c r) s fun t => s.ranStore t c 2 ps [k.rb r] ∧ regs t 1) ∧
     (s.issues c [0x0A] = true → ps.length = 1 → s.writesAt c (k.sp - 1) ps →
       Completes (.pushf c) s fun t => s.ranStore t c 1 ps [k.f] ∧ regs t 1) ∧
     (s.issues c [0x46, BitVec.ofNat 8 w.val] = true → ps.length = 2 → s.writesAt c (k.sp - 2) ps →
       Completes (.pushw c w) s fun t => s.ranStore t c 2 ps [loByte (k.rw w), hiByte (k.rw w)] ∧ regs t 2) ∧
     (s.issues c [0xA3] = true → ps.length = 8 → s.writesAt c (k.sp - 8) ps →
       Completes (.pushl c) s fun t =>
         s.onlyCell t c ∧ (s.cell c).keepsButMem (t.cell c) ∧ regs t 8 ∧
         (k.loops = [] → s.storedAt t c ps (List.replicate 8 0) ∧ (t.core c).loops = []) ∧
         (∀ e l, k.loops = e :: l → s.storedAt t c ps
           [0x80, e.ed, loByte e.ls, hiByte e.ls, loByte e.le, hiByte e.le, loByte e.lc, hiByte e.lc]))) ∧
  (∀ (s : State) (c : CellNo) (d : Fin 16) (w : Fin 8) (p q : Nat),
     let k := s.core c
     let m := (s.cell c).readMem
     (s.issues c [0x3B, BitVec.ofNat 8 d.val] = true → s.readsAt c k.sp [p] → Completes (.pop c d) s fun t =>
       s.ranCore t c 2 ∧ (t.core c).sp = k.sp + 1 ∧ (t.core c).rb d = m p ∧ k.keepsB (t.core c) [d] ∧
       (t.core c).f = k.f) ∧
     (s.issues c [0x0B] = true → s.readsAt c k.sp [p] → Completes (.popf c) s fun t =>
       s.ranCore t c 1 ∧ (t.core c).sp = k.sp + 1 ∧ (t.core c).f = m p &&& 0x3F ∧ (t.core c).b = k.b) ∧
     (s.issues c [0x47, BitVec.ofNat 8 w.val] = true → s.readsAt c k.sp [p, q] → Completes (.popw c w) s fun t =>
       s.ranCore t c 2 ∧ (t.core c).sp = k.sp + 2 ∧ (t.core c).rw w = m q ++ m p ∧
       k.keepsB (t.core c) [pairLo w, pairHi w] ∧ (t.core c).f = k.f) ∧
     (s.issues c [0x04] = true → s.readsAt c k.sp [p, q] → Completes (.ret c) s fun t =>
       s.onlyCell t c ∧ (s.cell c).keepsAll (t.cell c) ∧ (t.core c).sp = k.sp + 2 ∧ (t.core c).pc = m q ++ m p ∧
       (t.core c).b = k.b ∧ (t.core c).f = k.f))

/-- R64, R65, R66, R74: loads. LD reads the byte at the address of its form (a word of memory without error), LDW the word
at the base, LDC and LDCW I-space; a post-increment raises the base by the access size unless the loaded register overlaps
it, where the loaded value stands; flags and memory are kept. R64, R66, R74: ST and STW store the register at the address of
their form and nothing else; a post-increment raises the base by the access size; flags are kept. -/
def Obligations.LoadsAndStores : Prop :=
  (∀ (s : State) (c : CellNo) (d : Fin 16) (w b : Fin 8) (m : LdMode) (inc : Bool) (p q : Nat),
     let k := s.core c
     let rd := (s.cell c).readMem
     let grown (t : State) (hit : Bool) (n : Half) : Prop := inc = true → hit = false → (t.core c).rw b = k.rw b + n
     let op (n : Byte) (x : Nat) : List Byte := [n + (if inc then 1 else 0), BitVec.ofNat 8 (16 * x + b.val)]
     (s.issues c (ldBytes d m) = true → s.readsAt c (m.addr k) [p] → Completes (.ld c d m .clean) s fun t =>
       s.ranReg t c (ldBytes d m).length ∧ (t.core c).rb d = rd p ∧ (t.core c).f = k.f ∧
       (∀ n, n ≠ d → (∀ x, m.wb = some x → n ≠ pairLo x ∧ n ≠ pairHi x) → (t.core c).rb n = k.rb n) ∧
       (∀ x, m.wb = some x → d ≠ pairLo x → d ≠ pairHi x → (t.core c).rw x = k.rw x + 1)) ∧
     (s.issues c (op 0x58 w.val) = true → s.readsAt c (k.rw b) [p, q] → Completes (.ldw c w b inc) s fun t =>
       s.ranReg t c 2 ∧ (t.core c).rw w = rd q ++ rd p ∧ (t.core c).f = k.f ∧ grown t (decide (w = b)) 2 ∧
       k.keepsB (t.core c) [pairLo w, pairHi w, pairLo b, pairHi b]) ∧
     (s.issues c (op 0x60 d.val) = true → (s.cell c).map.xlatI (k.rw b) = .ok p → Completes (.ldc c d b inc) s fun t =>
       s.ranReg t c 2 ∧ (t.core c).rb d = (s.cell c).codeByte p ∧ (t.core c).f = k.f ∧
       grown t (decide (d = pairLo b ∨ d = pairHi b)) 1 ∧ k.keepsB (t.core c) [d, pairLo b, pairHi b]) ∧
     (s.issues c (op 0x62 w.val) = true → (s.cell c).map.xlatI (k.rw b) = .ok p →
       (s.cell c).map.xlatI (k.rw b + 1) = .ok q → Completes (.ldcw c w b inc) s fun t =>
       s.ranReg t c 2 ∧ (t.core c).rw w = (s.cell c).codeByte q ++ (s.cell c).codeByte p ∧ (t.core c).f = k.f ∧
       grown t (decide (w = b)) 2 ∧ k.keepsB (t.core c) [pairLo w, pairHi w, pairLo b, pairHi b])) ∧
  (∀ (s : State) (c : CellNo) (r : Fin 16) (w b : Fin 8) (m : LdMode) (inc : Bool) (p q : Nat),
     let k := s.core c
     (s.issues c (stBytes r m) = true → s.writesAt c (m.addr k) [p] → Completes (.st c r m) s fun t =>
       s.ranStore t c (stBytes r m).length [p] [k.rb r] ∧ (t.core c).f = k.f ∧ (t.core c).sp = k.sp ∧
       (m.wb = none → (t.core c).b = k.b) ∧
       (∀ x, m.wb = some x → (t.core c).rw x = k.rw x + 1 ∧ k.keepsB (t.core c) [pairLo x, pairHi x])) ∧
     (s.issues c [0x5A + (if inc then 1 else 0), BitVec.ofNat 8 (16 * w.val + b.val)] = true →
       s.writesAt c (k.rw b) [p, q] → Completes (.stw c w b inc) s fun t =>
       s.ranStore t c 2 [p, q] [loByte (k.rw w), hiByte (k.rw w)] ∧ (t.core c).f = k.f ∧ (t.core c).sp = k.sp ∧
       (inc = false → (t.core c).b = k.b) ∧
       (inc = true → (t.core c).rw b = k.rw b + 2 ∧ k.keepsB (t.core c) [pairLo b, pairHi b])))

/-- R57, R75, R162: IN of an unmapped I/O address answers FFh and sets IO_UNMAPPED; IN of IC_CFGn answers the register. OUT
to an unmapped address stores nothing and sets the flag; OUT to IC_CFGn, n other than 7 and 23, writes EN and LEVEL and no
other register of the controller. Neither changes a flag or memory. R76, R77, R78: the field, bit and permute instructions,
bit by bit. INS, PERM, SETB and CLRB keep every flag, BIT writes Z alone, EXT and EXTS write Z and N. -/
def Obligations.FieldsAndInOut : Prop :=
  (∀ (s : State) (c : CellNo) (d : Fin 16) (m : IoMode) (n : Fin 32),
     let k := s.core c
     let a := m.addr k
     let wb : List (Fin 16) := match m.wb with | none => [] | some x => [pairLo x, pairHi x]
     let kept (t : State) : Prop := s.onlyCell t c ∧ (t.cell c).mem = (s.cell c).mem ∧ (t.core c).f = k.f ∧
       (t.core c).sp = k.sp ∧ (t.cell c).regs = (s.cell c).regs
     (s.issues c (inBytes d m) = true → extSpace a = false → (s.cell c).ioUnmapped a.toNat = true →
       Completes (.in c d m) s fun t => kept t ∧ (t.core c).rb d = 0xFF ∧ (t.cell c).ctl.ioUnmapped = true ∧
         k.keepsB (t.core c) (d :: wb)) ∧
     (s.issues c (inBytes d m) = true → a = BitVec.ofNat 16 (0x120 + n.val) →
       Completes (.in c d m) s fun t => kept t ∧ (t.core c).rb d = (s.cell c).ic.cfg.get n ∧ k.keepsB (t.core c) (d :: wb)) ∧
     (s.issues c (outBytes d m) = true → extSpace a = false → lockedAt a.toNat = none →
       (s.cell c).ioUnmapped a.toNat = true →
       Completes (.out c d m) s fun t => kept t ∧ (t.cell c).ctl.ioUnmapped = true ∧ k.keepsB (t.core c) wb) ∧
     (s.issues c (outBytes d m) = true → a = BitVec.ofNat 16 (0x120 + n.val) → n.val ≠ 7 → n.val ≠ 23 →
       Completes (.out c d m) s fun t => kept t ∧ (t.cell c).ic.cfg.get n = k.rb d &&& 0x87 ∧
         (∀ j, j ≠ n → (t.cell c).ic.cfg.get j = (s.cell c).ic.cfg.get j) ∧ (t.cell c).ic.pend = (s.cell c).ic.pend ∧
         k.keepsB (t.core c) wb)) ∧
  (∀ (s : State) (c : CellNo) (d r : Fin 16) (w o n : Fin 8) (dq sq : Fin 4) (x : ByteSrc) (j : Fin 4),
     let k := s.core c
     let rr : Byte := BitVec.ofNat 8 (16 * d.val + r.val)
     let fo : Byte := BitVec.ofNat 8 (16 * w.val + o.val)
     let qq : Byte := BitVec.ofNat 8 (16 * dq.val + sq.val)
     let nd : Byte := BitVec.ofNat 8 (16 * n.val + d.val)
     let src := k.rb r
     let out (t : State) (len : Nat) : Prop := s.ranReg t c len ∧ k.keepsB (t.core c) [d]
     let zn (t : State) : Prop := (t.core c).flagsAre k (k.flag 0) ((t.core c).rb d == 0) ((t.core c).rb d).msb (k.flag 3) (k.flag 4)
     (s.issues c [0x70, rr, fo] = true → Completes (.ins c d r w o) s fun t =>
       out t 3 ∧ (t.core c).f = k.f ∧ ∀ i : Fin 8, ((t.core c).rb d).getLsbD i.val =
         if o.val ≤ i.val ∧ i.val ≤ o.val + w.val then src.getLsbD (i.val - o.val) else (k.rb d).getLsbD i.val) ∧
     (s.issues c [0x71, rr, fo] = true → Completes (.ext c d r w o) s fun t =>
       out t 3 ∧ zn t ∧ ∀ i : Fin 8, ((t.core c).rb d).getLsbD i.val =
         (decide (i.val ≤ w.val) && src.getLsbD (o.val + i.val))) ∧
     (s.issues c [0x72, rr, fo] = true → Completes (.exts c d r w o) s fun t =>
       out t 3 ∧ zn t ∧ ∀ i : Fin 8, ((t.core c).rb d).getLsbD i.val = src.getLsbD (o.val + min i.val w.val)) ∧
     (s.issues c (permBytes dq sq x) = true → Completes (.perm c dq sq x) s fun t =>
       s.ranReg t c 3 ∧ (t.core c).f = k.f ∧ k.keepsB (t.core c) [quadByte dq 0, quadByte dq 1, quadByte dq 2, quadByte dq 3] ∧
       (t.core c).rb (quadByte dq j) =
         k.rb (quadByte sq ⟨(x.val k).toNat / 4 ^ j.val % 4, Nat.mod_lt _ (by decide)⟩)) ∧
     (s.issues c [0x75, nd] = true → Completes (.bit c d n) s fun t =>
       s.ranReg t c 2 ∧ (t.core c).b = k.b ∧
       (t.core c).flagsAre k (k.flag 0) (!(k.rb d).getLsbD n.val) (k.flag 2) (k.flag 3) (k.flag 4)) ∧
     (s.issues c [0x76, nd] = true → Completes (.setb c d n) s fun t =>
       out t 2 ∧ (t.core c).f = k.f ∧ ∀ i : Fin 8, ((t.core c).rb d).getLsbD i.val = ((i == n) || (k.rb d).getLsbD i.val)) ∧
     (s.issues c [0x77, nd] = true → Completes (.clrb c d n) s fun t =>
       out t 2 ∧ (t.core c).f = k.f ∧ ∀ i : Fin 8, ((t.core c).rb d).getLsbD i.val = ((i != n) && (k.rb d).getLsbD i.val)))

/-! ## EK8: control flow -/

/-- R79: each conditional branch goes to Next + d8 when its condition on the flags holds and to Next otherwise (where no
loop is open); no register, flag or memory byte changes. R79, R80: BSR and CALL store Next on the stack and go to their
target; JMP goes to its target; DJNZ lowers its register and goes to Next + d8 unless it reached 0. No flag changes. -/
def Obligations.ControlTransfers : Prop :=
  (∀ (s : State) (c : CellNo) (d8 : Byte),
     let k := s.core c
     let C := k.flag 0; let Z := k.flag 1; let N := k.flag 2; let V := k.flag 3
     let br (i : Instr) (op : Byte) (q : Bool) : Prop :=
       s.issues c [op, d8] = true → Completes i s fun t =>
         (q = true → s.wentTo t c (k.pc + 2 + d8.signExtend 16)) ∧
         (q = false → s.ranReg t c 2 ∧ (t.core c).b = k.b ∧ (t.core c).f = k.f)
     br (.bra c d8) 0x80 true ∧ br (.beq c d8) 0x81 Z ∧ br (.bne c d8) 0x82 (!Z) ∧ br (.bcs c d8) 0x83 C ∧
     br (.bcc c d8) 0x84 (!C) ∧ br (.bmi c d8) 0x85 N ∧ br (.bpl c d8) 0x86 (!N) ∧ br (.bvs c d8) 0x87 V ∧
     br (.bvc c d8) 0x88 (!V) ∧ br (.bhi c d8) 0x89 (!C && !Z) ∧ br (.bls c d8) 0x8A (C || Z) ∧
     br (.bge c d8) 0x8B (N == V) ∧ br (.blt c d8) 0x8C (N != V) ∧ br (.bgt c d8) 0x8D (!Z && N == V) ∧
     br (.ble c d8) 0x8E (Z || N != V)) ∧
  (∀ (s : State) (c : CellNo) (d8 : Byte) (tg : Target) (d : Fin 16) (p q : Nat),
     let k := s.core c
     let called (t : State) (dest ret : Half) : Prop :=
       s.onlyCell t c ∧ (s.cell c).keepsButMem (t.cell c) ∧ (t.core c).pc = dest ∧ (t.core c).sp = k.sp - 2 ∧
       (t.core c).b = k.b ∧ (t.core c).f = k.f ∧ (t.core c).loops = k.loops ∧ s.storedAt t c [p, q] [loByte ret, hiByte ret]
     (s.issues c [0x8F, d8] = true → s.writesAt c (k.sp - 2) [p, q] → Completes (.bsr c d8) s fun t =>
       called t (k.pc + 2 + d8.signExtend 16) (k.pc + 2)) ∧
     (s.issues c (callBytes tg) = true → s.writesAt c (k.sp - 2) [p, q] → Completes (.call c tg) s fun t =>
       called t (tg.addr k) (k.pc + BitVec.ofNat 16 (callBytes tg).length)) ∧
     (s.issues c (jmpBytes tg) = true → Completes (.jmp c tg) s fun t => s.wentTo t c (tg.addr k)) ∧
     (s.issues c [0x94, BitVec.ofNat 8 d.val, d8] = true → Completes (.djnz c d d8) s fun t =>
       s.onlyCell t c ∧ (s.cell c).keepsAll (t.cell c) ∧ (t.core c).rb d = k.rb d - 1 ∧ k.keepsB (t.core c) [d] ∧
       (t.core c).f = k.f ∧ (t.core c).sp = k.sp ∧
       (k.rb d ≠ 1 → (t.core c).pc = k.pc + 3 + d8.signExtend 16) ∧
       (k.rb d = 1 → k.loops = [] → (t.core c).pc = k.pc + 3)))

/-- R81, R82, R86: LOOP with count 0 goes past its body; with another count, and fewer than four entries, it opens an entry;
LEAVE discards the top entry; POPL discards an invalid frame and takes back a valid one; MFLC reads LC. -/
def Obligations.LoopUnit : Prop :=
  ∀ (s : State) (c : CellNo) (x : LoopSrc) (len : Byte) (w : Fin 8) (ps : List Nat),
    let k := s.core c
    let bytes : List Byte := match x with | .reg r => [0xA0, BitVec.ofNat 8 r.val, len] | .imm n => [0xA1, n, len]
    let ls := k.pc + 3
    let le := ls + len.zeroExtend 16 + 1
    let kept (t : State) : Prop := s.onlyCell t c ∧ (s.cell c).keepsAll (t.cell c) ∧ (t.core c).f = k.f
    let m := (s.cell c).readMem
    (s.issues c bytes = true → x.val k = 0 → Completes (.loop c x len) s fun t => s.wentTo t c le) ∧
    (s.issues c bytes = true → x.val k ≠ 0 → k.loops.length < 4 → Completes (.loop c x len) s fun t =>
      kept t ∧ (t.core c).b = k.b ∧ (t.core c).pc = ls ∧ (t.core c).loops = ⟨ls, le, x.val k, k.ed⟩ :: k.loops) ∧
    (s.issues c [0xA2] = true → k.loops.tail = [] → Completes (.leave c) s fun t =>
      kept t ∧ (t.core c).b = k.b ∧ (t.core c).pc = k.pc + 1 ∧ (t.core c).loops = []) ∧
    (s.issues c [0xA4] = true → ps.length = 8 → s.readsAt c k.sp ps → (m (ps.headD 0)).getLsbD 7 = false → k.loops = [] →
      Completes (.popl c) s fun t =>
        s.ranCore t c 1 ∧ (t.core c).sp = k.sp + 8 ∧ (t.core c).b = k.b ∧ (t.core c).f = k.f) ∧
    (∀ v ed s0 s1 e0 e1 c0 c1 : Byte, s.issues c [0xA4] = true → ps.length = 8 → s.readsAt c k.sp ps →
      ps.map m = [v, ed, s0, s1, e0, e1, c0, c1] → v.getLsbD 7 = true → k.loops.length < 4 → e1 ++ e0 ≠ k.pc + 1 →
      Completes (.popl c) s fun t =>
        kept t ∧ (t.core c).sp = k.sp + 8 ∧ (t.core c).b = k.b ∧
        (t.core c).loops = ⟨s1 ++ s0, e1 ++ e0, c1 ++ c0, ed⟩ :: k.loops) ∧
    (s.issues c [0xA5, BitVec.ofNat 8 w.val] = true → Completes (.mflc c w) s fun t =>
      s.ranReg t c 2 ∧ (t.core c).rw w = (match k.loops with | [] => 0 | e :: _ => e.lc) ∧
      k.keepsB (t.core c) [pairLo w, pairHi w] ∧ (t.core c).f = k.f)

/-! ## EK8: traps, entries, returns, sleep -/

/-- R80, R90, R93, R151: TRAP #n enters through vector n with Next as return address; RETT and RETI give back F and PC, and
RETI pops the running-priority stack. R92, R106, R152, R313: at a boundary the core takes a pending WDW through vector 29,
else a pending PACE through vector 26, else, with I set, the candidate source through vector 8 plus its level, whose pending
bit it clears and whose level and number it pushes. -/
def Obligations.EntriesAndReturns : Prop :=
  (∀ (s : State) (c : CellNo) (n : Fin 4) (target : Half) (ps : List Nat) (p q r : Nat),
     let k := s.core c
     let m := (s.cell c).readMem
     let back (t : State) : Prop :=
       s.onlyCell t c ∧ (t.cell c).mem = (s.cell c).mem ∧ (t.core c).f = m p &&& 0x3F ∧ (t.core c).pc = m r ++ m q ∧
       (t.core c).sp = k.sp + 3 ∧ (t.core c).b = k.b ∧ (t.core c).ed = (if k.ed = 0 then 0 else k.ed - 1)
     (s.issues c [0x95, BitVec.ofNat 8 n.val] = true → s.entryReady c n.val target ps → Completes (.trap c n) s fun t =>
       s.entered t c target (k.pc + 2) ps) ∧
     (s.issues c [0x06] = true → s.readsAt c k.sp [p, q, r] → Completes (.rett c) s fun t =>
       back t ∧ (t.cell c).ic = (s.cell c).ic) ∧
     (s.issues c [0x05] = true → (k.flag 5 = false ∨ (s.cell c).ic.candidate = none) → s.readsAt c k.sp [p, q, r] → Completes (.reti c) s fun t =>
       back t ∧ (t.cell c).ic.stack = (s.cell c).ic.stack.tail ∧ (t.cell c).ic.pend = (s.cell c).ic.pend ∧
       ((s.cell c).ic.stack = [] → (t.cell c).ic.eoiUnf = true))) ∧
  (∀ (s : State) (c : CellNo) (n : Fin 32) (target : Half) (ps : List Nat),
     let x := s.cell c
     let free : Prop := s.present c = true ∧ s.canEnter c = true
     (free → x.wd.wdw = true → s.entryReady c 29 target ps → Completes (.wdwEntry c) s fun t =>
       s.entered t c target x.core.pc ps ∧ (t.cell c).wd.wdw = false ∧ (t.cell c).ic = x.ic) ∧
     (free → x.wd.wdw = false → x.pace.pend = true → s.entryReady c 26 target ps → Completes (.paceEntry c) s fun t =>
       s.entered t c target x.core.pc ps ∧ (t.cell c).pace.pend = false ∧ (t.cell c).ic = x.ic) ∧
     (free → x.wd.wdw = false → x.pace.pend = false → x.core.flag 5 = true → x.ic.candidate = some n.val →
       s.entryReady c (8 + x.ic.level n.val) target ps → Completes (.interruptEntry c) s fun t =>
       s.entered t c target x.core.pc ps ∧ (t.cell c).ic.pend.getLsbD n.val = false ∧
       (∀ j, j ≠ n.val → (t.cell c).ic.pend.getLsbD j = x.ic.pend.getLsbD j) ∧
       (t.cell c).ic.stack = (x.ic.level n.val, n.val) :: x.ic.stack))

/-- R63, R90, R95, R108: a reserved opcode, a reserved encoding of a defined one, and an extension opcode with no routine
loaded are abandoned: the core enters through vector 28 with the address of the opcode as return address, and the trap
registers name cause 1h, 2h and 1h. R121, R123, R143: an extension opcode with a routine loaded runs it: a routine of the
one word that moves PC past the opcode and ends changes nothing else of the core and counts as one instruction. R91, R108,
R167: a load or a store whose address the mapper refuses is abandoned: the core enters through vector 25 with the address of
the opcode as return address, cause 6h and the refused address are latched, MAP_STAT records the reason and MAP_FAULTS is
one more. -/
def Obligations.EmulationAndRefusal : Prop :=
  (∀ (s : State) (c : CellNo) (op : Byte) (cause : BitVec 4) (target : Half) (ps : List Nat),
     let k := s.core c
     let trapped (t : State) (q : BitVec 4) : Prop :=
       s.entered t c target k.pc ps ∧ t.trapIs c q 0 0 ((s.cell c).trapOpAt k.pc)
     (s.atBoundary c = true → (s.cell c).decodePc = .trap { vector := 28, cause := cause } → s.entryReady c 28 target ps →
       Completes (.reservedOpcode c) s fun t => trapped t cause) ∧
     ((s.cell c).iRead k.pc = .ok op → 0x0C ≤ op.toNat → op.toNat ≤ 0x0F →
       (s.cell c).decodePc = .trap { vector := 28, cause := 1 }) ∧
     ((s.cell c).iRead k.pc = .ok op → 0xE0 ≤ op.toNat → (s.cell c).decodePc = .trap { vector := 28, cause := 1 }) ∧
     (s.atBoundary c = true → (s.cell c).iRead k.pc = .ok op → 0xC0 ≤ op.toNat → op.toNat ≤ 0xDF → s.extOpEntry op = none →
       s.entryReady c 28 target ps → Completes (.extensionOpcode c) s fun t => trapped t 1)) ∧
  (∀ (s : State) (c : CellNo) (op : Byte) (e : Half),
     s.atBoundary c = true → (s.cell c).iRead (s.core c).pc = .ok op → 0xC0 ≤ op.toNat → op.toNat ≤ 0xDF →
     s.extOpEntry op = some e → 0x1800 ≤ e.toNat → e.toNat < 0x2000 →
     Table.read (fun _ => 0) s.stores.extWords e.toNat = stepWord → (s.core c).loops = [] → (s.core c).prod = none →
     Completes (.extensionOpcode c) s fun t =>
       s.onlyCell t c ∧ (s.cell c).keepsAll (t.cell c) ∧ (t.core c).pc = (s.core c).pc + 1 ∧ (t.core c).b = (s.core c).b ∧
       (t.core c).f = (s.core c).f ∧ (t.core c).sp = (s.core c).sp) ∧
  (∀ (s : State) (c : CellNo) (r : Fin 16) (m : LdMode) (st : BitVec 6) (target : Half) (ps : List Nat),
     let k := s.core c
     let a := m.addr k
     let refused (t : State) : Prop :=
       s.entered t c target k.pc ps ∧ t.trapIs c 6 a 0 ((s.cell c).trapOpAt k.pc) ∧
       (t.cell c).map.stat = (s.cell c).map.stat ||| st ∧ (t.cell c).map.faults = satInc (s.cell c).map.faults
     (s.issues c (ldBytes r m) = true → (s.cell c).map.xlatD a false = .refuse st → s.entryReady c 25 target ps →
       Completes (.ld c r m .clean) s refused) ∧
     (s.issues c (stBytes r m) = true → (s.cell c).map.xlatD a true = .refuse st → s.entryReady c 25 target ps →
       Completes (.st c r m) s refused))

/-- R113: SLEEP with a wake event standing acts as a NOP; with none the cell goes to sleep: its state is SLEEP, its credit
is gone and SLP_CNT is one more. R113, R114, R311: a sleeping cell with a wake event standing wakes: it is RUNNING and
SLP_LAST holds the length of the sleep; the alarm of a timer sets the latch of the timer's source. -/
def Obligations.SleepAndWake : Prop :=
  (∀ (s : State) (c : CellNo),
     let k := s.core c
     s.issues c [0x01] = true → (s.cell c).ctl.st = .running →
     ((s.cell c).wakeStands = true → Completes (.sleep c) s fun t =>
       s.ranReg t c 1 ∧ (t.core c).b = k.b ∧ (t.core c).f = k.f) ∧
     ((s.cell c).wakeStands = false → Completes (.sleep c) s fun t =>
       s.onlyCell t c ∧ (t.cell c).ctl.st = .sleep ∧ (t.cell c).pace.avail = 0 ∧
       (t.cell c).ctl.slpCnt = (s.cell c).ctl.slpCnt + 1 ∧ (t.core c).pc = k.pc + 1 ∧ (t.core c).b = k.b ∧
       (t.core c).f = k.f ∧ (t.core c).sp = k.sp ∧ (t.cell c).mem = (s.cell c).mem)) ∧
  (∀ (s : State) (c : CellNo) (pix ticks : Nat) (n : Fin 4),
     let x := s.cell c
     (s.liveCell c = true → x.ctl.st = .sleep → x.wakeStands = true → ticks < 4294967296 →
       Completes (.wake c pix ticks) s fun t =>
         s.onlyCell t c ∧ (t.cell c).ctl.st = .running ∧ (t.cell c).ctl.slpLast = BitVec.ofNat 32 ticks ∧ (t.core c) = x.core ∧
         (t.cell c).ic.latch = 0 ∧ (t.cell c).mem = x.mem ∧ (t.cell c).pace.avail = 0) ∧
     (s.liveCell c = true → x.ctl.st = .sleep → x.alarmFor s.house.frameClks n = true →
       Completes (.sleepAlarm c n) s fun t =>
         s.onlyCell t c ∧ (t.cell c).ic.latch.getLsbD (8 + n.val) = true ∧ (t.cell c).ic.pend = x.ic.pend ∧
         (t.cell c).ctl.st = .sleep))

/-! ## The beams -/

/-- R36: a house frame starts: HB_FRAME is one more in a device that follows no swarm master and has no source change due.
R38, R40: sync pulses. A frame pulse outside ±2 % of the frame, or the second of a window, and a line pulse outside ±2 % of
the line, is ignored and counted, and nothing else changes; a valid one counts towards the four that leave FREE; the second
window without one leaves LOCKED for HOLDOVER; HOLDOVER ends in FREE after 64 house frames with source 3. -/
def Obligations.HouseBeamLock : Prop :=
  (∀ (s : State) (l : List SlotAssign) (r : List ScoutRead),
     s.pwr.mode.beamRuns = true → s.house.srcDue = false → s.followsSwarm = false →
     Completes (.houseFrameStart l r) s fun t => t.house.frame = s.house.frame + 1 ∧ t.house.lock = s.house.lock) ∧
  (∀ (s : State) (ofs err rate disc : Int) (win : Nat),
     let h := s.house
     (s.pulsesDue = true → (inWindow h.frameClks 1 ofs = false ∨ h.pulseSeen = true) →
       Completes (.framePulse ofs err rate disc) s fun t => t = { s with house := { h with glitch := h.glitch + 1 } }) ∧
     (s.pulsesDue = true → inWindow h.frameClks 1 ofs = true → h.pulseSeen = false → h.lock = .free →
       Completes (.framePulse ofs err rate disc) s fun t =>
         t.house.pulseSeen = true ∧ (h.validRun < 3 → t.house.lock = .free ∧ t.house.validRun = h.validRun + 1) ∧
         (3 ≤ h.validRun → t.house.lock = .acquiring)) ∧
     (s.pulsesDue = true → s.objOr 0x2101 3 0 ≠ 0 → inWindow h.frameClks (s.objOr 0x2100 4 1125) ofs = false →
       Completes (.linePulse win ofs err) s fun t => t = { s with house := { h with glitch := h.glitch + 1 } }) ∧
     (s.pulsesDue = true → s.objOr 0x2101 3 0 ≠ 0 → inWindow h.frameClks (s.objOr 0x2100 4 1125) ofs = true →
       h.lineWin ≠ some win → Completes (.linePulse win ofs err) s fun t =>
         t.house.phaseErr = BitVec.ofInt 32 err ∧ t.house.glitch = h.glitch ∧ t.house.lock = h.lock) ∧
     (s.pulsesDue = true → h.pulseSeen = true →
       Completes .syncWindowExpire s fun t => t = { s with house := { h with pulseSeen := false } }) ∧
     (s.pulsesDue = true → h.pulseSeen = false → h.lock = .locked → Completes .syncWindowExpire s fun t =>
       (h.missRun = 0 → t.house.lock = .locked ∧ t.house.missRun = 1) ∧ (1 ≤ h.missRun → t.house.lock = .holdover)) ∧
     (h.src = 3 → h.lock = .holdover → 64 ≤ h.holdFrames → Completes .holdoverExpire s fun t =>
       t.house.lock = .free ∧ t.house.freqOfs = 0))

/-- R47, R52, R53, R102: lines and frames. A cell beam line follows the one before; at line VB_VACTIVE a set COMMIT is
cleared and COMMIT_DONE set; a held geometry becomes live at its lock point; a program line follows the one before; a
program frame starts at line 0 with the next frame number; a credit accrues to a runnable cell that holds less than its
quota. -/
def Obligations.LinesAndFrames : Prop :=
  ∀ (s : State) (c : CellNo) (sw : Bool) (h : Geom),
    let x := s.cell c
    let b := x.beam
    (s.beamCell c = true → b.started = true → b.line + 1 < b.geom.vtotal → Completes (.cellLineStart c) s fun t =>
      (t.cell c).beam.line = b.line + 1 ∧
      (b.line + 1 ≠ b.geom.vactive → s.onlyCell t c ∧ (t.cell c).live = x.live) ∧
      (b.line + 1 = b.geom.vactive → b.commit = true →
        (t.cell c).beam.commit = false ∧ (t.cell c).beam.commitDone = true ∧
        ∀ a, shadowedReg x.prof a = true → (t.cell c).live8 a = x.reg8 a)) ∧
    (s.beamCell c = true → b.held = some h → 2 ≤ b.heldAge → b.pgeom = h → Completes (.geomSwitch c) s fun t =>
      s.onlyCell t c ∧ (t.cell c).beam.geom = h ∧ (t.cell c).beam.held = none ∧
      (t.cell c).beam.d = s.house.frameClks * h.den * 16777216 / (h.num * h.htotal * h.vtotal)) ∧
    (s.beamCell c = true → b.pline + 1 < b.pgeom.vtotal → Completes (.programLineStart c sw) s fun t =>
      (t.cell c).beam.pline = b.pline + 1 ∧ (t.cell c).beam.pframe = b.pframe ∧ (t.cell c).pace.k = 0 ∧
      (t.cell c).pace.acc = 0) ∧
    (s.beamCell c = true → b.pgeom.vtotal ≤ b.pline + 1 → Completes (.programFrameStart c) s fun t =>
      (t.cell c).beam.pline = 0 ∧ (t.cell c).beam.pframe = b.pframe + 1) ∧
    (s.liveCell c = true → b.on = true → b.waiting = true → Completes (.programFrameStart c) s fun t =>
      (t.cell c).beam.waiting = false ∧ (t.cell c).beam.pline = 0 ∧ (t.cell c).beam.pframe = 0) ∧
    (s.beamCell c = true → x.runnable = true → x.pace.acc < x.pace.q → x.pace.avail < x.pace.q →
      Completes (.paceCredit c) s fun t =>
        t = s.setCell c { x with pace := { x.pace with acc := x.pace.acc + 1, avail := x.pace.avail + 1 } })

/-- R9, R49, R51, R52, R54, R119: accesses of beam and system registers. VID_COMMIT sets COMMIT; a read of VB_LINE captures
its six bytes; SYS_CELL reads the cell's number; a write of a shadowed register changes what it reads as and no live value;
a write of a line-live register by a forager enters the log with the present line and pixel. -/
def Obligations.RegisterAccess : Prop :=
  ∀ (s : State) (c : CellNo) (pix : Nat) (ag : Agent) (a : Half) (v : Byte),
    let x := s.cell c
    let b := x.beam
    (s.startedCell c = true → Completes (.vidCommit c) s fun t =>
      s.onlyCell t c ∧ (t.cell c).beam.commit = true ∧ (t.cell c).regs = x.regs ∧ (t.cell c).live = x.live) ∧
    (s.startedCell c = true → b.on = true → b.waiting = false → Completes (.vbCaptureRead c pix) s fun t =>
      s.onlyCell t c ∧ (t.cell c).ctl.rd = BitVec.ofNat 8 b.pline ∧
      (t.cell c).captured 0x40D = BitVec.ofNat 8 (b.pline / 256) ∧
      (t.cell c).captured 0x410 = BitVec.ofNat 8 b.pframe.toNat ∧
      (t.cell c).captured 0x411 = BitVec.ofNat 8 (b.pframe.toNat / 256)) ∧
    (s.startedCell c = true → Completes (.regCaptureRead c 0x0040) s fun t =>
      s.onlyCell t c ∧ (t.cell c).ctl.rd = BitVec.ofNat 8 c.val ∧ (t.cell c).mem = x.mem) ∧
    (s.startedCell c = true → x.ioUnmapped a.toNat = true → Completes (.regCaptureRead c a) s fun t =>
      s.onlyCell t c ∧ (t.cell c).ctl.rd = 0xFF ∧ (t.cell c).ctl.ioUnmapped = true ∧ (t.cell c).regs = x.regs) ∧
    (s.startedCell c = true → shadowedReg x.prof a.toNat = true → Completes (.regWrite c ag a v) s fun t =>
      s.onlyCell t c ∧ (t.cell c).live = x.live ∧ (t.cell c).beam = b ∧
      (t.cell c).reg8 a.toNat =
        (resetByte x.prof a.toNat &&& ~~~(rwMask x.prof a.toNat)) ||| (v &&& rwMask x.prof a.toNat) ∧
      ∀ n, n ≠ a.toNat → (t.cell c).reg8 n = x.reg8 n) ∧
    (s.startedCell c = true → lineLive8 x.prof a.toNat = true → ioMapped x.prof a.toNat = true → b.on = true →
      b.waiting = false → b.pline < b.pgeom.vactive → pix < b.pgeom.hactive → pix < b.pgeom.htotal → b.logCount < 32 →
      Completes (.lineLiveWrite c .forager a v pix) s fun t =>
        s.onlyCell t c ∧ (t.cell c).live = x.live ∧ ∃ w, (t.cell c).beam.log = b.log ++ [⟨b.pline, pix, .reg a.toNat w⟩] ∧
          (t.cell c).reg8 a.toNat = w)

/-! ## Cells: lifecycle, system registers, interrupts, mapper, images -/

/-- R44, R97, R116, R117: the command at the front of a cell's accepted commands takes effect at the boundary where its
state allows it. START needs a core and a stagger that the keeper may choose; its cell reset takes PC from the image's
vector. R97, R455: an accepted command whose state does not allow it lapses: it leaves the queue, the cell is otherwise as
it was, and the journal records CMD_LAPSED with the state and the command. -/
def Obligations.CellCommands : Prop :=
  (∀ (s : State) (c : CellNo) (k : Fin 128) (sg pix : Nat) (r : List CellCmd),
     let x := s.cell c
     let front (q : CellCmd) : Prop := x.ctl.cmds = q :: r
     let y : Cell := { x with map := x.map.reset }
     (s.liveCell c = true → front .start → x.ctl.st = .loaded → s.coreOk c k = true → sg < s.house.frameClks →
       sg % max 1 (lineLen (resetGeom x.prof) s.house.frameClks / 16777216) = 0 →
       Completes (.cellStart c k sg) s fun t =>
         (t.cell c).ctl.st = .running ∧ (t.cell c).ctl.cmds = r ∧ (t.cell c).ctl.resetCause = 1 ∧ (t.cell c).kp.core = some k ∧
         (t.cell c).beam.on = true ∧ (t.cell c).beam.waiting = true ∧ (t.cell c).beam.stagger = sg ∧
         (t.core c).pc = y.opByte 0xFFFF ++ y.opByte 0xFFFE ∧ (t.core c).b = Vector.replicate 16 0 ∧ (t.core c).sp = 0 ∧
         (t.core c).f = 0 ∧ (t.cell c).mem = x.mem) ∧
     (s.liveCell c = true → front .pause → (x.ctl.st = .running ∨ x.ctl.st = .sleep) → Completes (.cellPause c) s fun t =>
       s.onlyCell t c ∧ (t.cell c).ctl.st = .paused ∧ (t.cell c).ctl.prior = x.ctl.st ∧ (t.cell c).ctl.cmds = r ∧
       (t.cell c).pace.avail = 0 ∧ (t.core c).b = x.core.b ∧ (t.core c).pc = x.core.pc) ∧
     (s.liveCell c = true → front .resume → x.ctl.st = .paused → Completes (.cellResume c pix) s fun t =>
       s.onlyCell t c ∧ (t.cell c).ctl.st = x.ctl.prior ∧ (t.cell c).ctl.cmds = r ∧ (t.core c) = x.core ∧
       (t.cell c).mem = x.mem) ∧
     (s.present c = true → front .stop → x.ctl.st.started = true → Completes (.cellStop c) s fun t =>
       (t.cell c).ctl.st = .loaded ∧ (t.cell c).beam.on = false ∧ (t.cell c).kp.core = none ∧ (t.cell c).mem = x.mem) ∧
     (s.liveCell c = true → front .reset → x.ctl.st = .running → Completes (.cellResetCmd c) s fun t =>
       s.onlyCell t c ∧ (t.cell c).ctl.st = .running ∧ (t.cell c).ctl.cellResets = satInc x.ctl.cellResets ∧
       (t.cell c).ctl.resetCause = x.ctl.resetCause ||| 2 ∧ (t.core c).pc = y.opByte 0xFFFF ++ y.opByte 0xFFFE ∧
       (t.cell c).mem = x.mem ∧ (t.cell c).beam.pline = x.beam.pline) ∧
     (s.present c = true → front .unload → x.ctl.st = .loaded → Completes (.cellUnload c) s fun t =>
       (t.cell c).ctl.st = .empty ∧ (t.cell c).mem = [] ∧ (t.cell c).map.pages = 0 ∧ (t.cell c).kp.pmap = [])) ∧
  (∀ (s : State) (c : CellNo) (r : List CellCmd),
     let x := s.cell c
     s.liveCell c = true → x.ctl.cmds = .pause :: r → x.ctl.st ≠ .running → x.ctl.st ≠ .sleep →
     Completes (.cellPause c) s fun t =>
       t.cell c = { x with ctl := { x.ctl with cmds := r } } ∧ t.mc.jrSeq = s.mc.jrSeq + 1 ∧
       ∃ e l, t.mc.journal = e :: l ∧ e.index = 0x8006 ∧ e.sub = BitVec.ofNat 8 c.val ∧
         e.old = BitVec.ofNat 64 x.ctl.st.code.toNat ∧ e.new = 2)

/-- R116, R118, R557, R104: the two keys of SYS_RESET reset the cell in place with cause SOFT; a sequence with 17 counted
instructions is abandoned; RESET_CAUSE and PACE_OVR_CNT are cleared by the read that answers them. R148, R151, R158:
IC_PENDSET sets the pending bits written as 1, but never those of sources 7 and 23; IC_EOI pops the running-priority stack;
an edge sets the source's pending bit, or its IC_MISS bit when it is pending already; the event of a shared source is
counted. -/
def Obligations.SystemAndInterrupts : Prop :=
  (∀ (s : State) (c : CellNo) (q : LockedSeq),
     let x := s.cell c
     s.startedCell c = true →
     (x.ctl.locked = none → Completes (.sysResetWrite c 0xA5) s fun t =>
       s.onlyCell t c ∧ (t.cell c).ctl.locked = some { reg := .sysReset, count := 0 } ∧ (t.core c) = x.core) ∧
     (x.ctl.locked = some q → q.reg = .sysReset → x.ctl.st = .running → Completes (.sysResetWrite c 0x5A) s fun t =>
       s.onlyCell t c ∧ (t.cell c).ctl.locked = none ∧ (t.cell c).ctl.st = .running ∧
       (t.cell c).ctl.resetCause = x.ctl.resetCause ||| 8 ∧ (t.cell c).ctl.cellResets = satInc x.ctl.cellResets ∧
       (t.core c).sp = 0 ∧ (t.cell c).ic = {}) ∧
     (x.ctl.locked = some q → Completes (.lockedSeqExpire c) s fun t =>
       s.onlyCell t c ∧ (q.count ≤ 16 → t.cell c = x) ∧ (17 ≤ q.count → (t.cell c).ctl.locked = none)) ∧
     Completes (.resetCauseRead c) s (fun t =>
       s.onlyCell t c ∧ (t.cell c).ctl.rd = x.ctl.resetCause.zeroExtend 8 ∧ (t.cell c).ctl.resetCause = 0 ∧
       (t.core c) = x.core) ∧
     Completes (.paceOvrCntRead c) s (fun t =>
       s.onlyCell t c ∧ (t.cell c).ctl.rd = BitVec.ofNat 8 x.pace.ovrCnt.toNat ∧ (t.cell c).pace.ovrCnt = 0 ∧
       (t.cell c).captured 0x59 = BitVec.ofNat 8 (x.pace.ovrCnt.toNat / 256) ∧ (t.core c) = x.core)) ∧
  (∀ (s : State) (c : CellNo) (byte : Fin 4) (v : Byte) (n : Fin 32) (m : Fin 153),
     let x := s.cell c
     (s.startedCell c = true → Completes (.icPendsetWrite c byte v) s fun t =>
       s.onlyCell t c ∧ (t.cell c).ic.stack = x.ic.stack ∧ (t.cell c).ic.miss = x.ic.miss ∧
       (t.cell c).ic.pend.getLsbD n.val = (x.ic.pend.getLsbD n.val ||
         (decide (n.val / 8 = byte.val) && v.getLsbD (n.val % 8) && n.val != 7 && n.val != 23))) ∧
     (s.startedCell c = true → Completes (.icEoiWrite c v) s fun t =>
       s.onlyCell t c ∧ (t.cell c).ic.stack = x.ic.stack.tail ∧ (t.cell c).ic.pend = x.ic.pend ∧
       (x.ic.stack = [] → (t.cell c).ic.eoiUnf = true)) ∧
     (s.startedCell c = true → x.clocksStopped = false → n.val ≠ 7 → n.val ≠ 23 → Completes (.intSourceEdge c n) s fun t =>
       s.onlyCell t c ∧ (t.cell c).ic.pend.getLsbD n.val = true ∧
       (x.ic.pend.getLsbD n.val = false → (t.cell c).ic.miss = x.ic.miss) ∧
       (x.ic.pend.getLsbD n.val = true → (t.cell c).ic.miss.getLsbD n.val = true)) ∧
     (s.dictServed = true → Completes (.sharedSourceEvent m) s fun t =>
       (t.sources.get m).events = satInc (s.sources.get m).events))

/-- R168, R169, R180: the low byte of a window register is staged and the high byte makes the window; a locked window keeps
its value and sets MAP_STAT.LOCKWR; the second key of MAP_KEY unlocks both spaces unless MAP_LOCK.HARD is 1. -/
def Obligations.MapperRegisters : Prop :=
  ∀ (s : State) (c : CellNo) (n : Fin 16) (v : Byte) (q : LockedSeq),
    let x := s.cell c
    let lockd : Bool := if n.val < 8 then x.map.lockI else x.map.lockD
    s.startedCell c = true →
    (lockd = false → Completes (.mapWindowWrite c n false v) s fun t =>
      s.onlyCell t c ∧ (t.cell c).map = { x.map with stage := x.map.stage.set n v }) ∧
    (lockd = false → Completes (.mapWindowWrite c n true v) s fun t =>
      s.onlyCell t c ∧ (t.cell c).map.win.get n = (v ++ x.map.stage.get n) &&& (if n.val < 8 then 0x1FFF else 0x3FFF) ∧
      (∀ j, j ≠ n → (t.cell c).map.win.get j = x.map.win.get j) ∧ (t.cell c).map.stat = x.map.stat) ∧
    (lockd = true → ∀ hi, Completes (.mapWindowWrite c n hi v) s fun t =>
      s.onlyCell t c ∧ (t.cell c).map = { x.map with stat := x.map.stat ||| 0x10 }) ∧
    (x.ctl.locked = some q → q.reg = .mapKey → Completes (.mapKeyWrite c 0xC3) s fun t =>
      s.onlyCell t c ∧ (t.cell c).ctl.locked = none ∧ (t.cell c).map.win = x.map.win ∧
      (x.map.hard = false → (t.cell c).map.lockI = false ∧ (t.cell c).map.lockD = false) ∧
      (x.map.hard = true → (t.cell c).map = x.map))

/-- R178: the end of an image transfer. A failed transfer leaves code 6h, an image that a check of R178 refuses leaves that
check's code, and the cell's state is kept; an image that passes, with pages that the keeper may give, leaves the cell
LOADED with the image's body in cell space. R138: the end of a control-store repair. -/
def Obligations.ImageLoads : Prop :=
  ∀ (s : State) (c : CellNo) (img : List Byte) (pages : List PageAlloc) (code : Byte) (g : ImgHead),
    let x := s.cell c
    (s.present c = true → x.img.stat = 1 → x.kp.guest = none →
      Completes (.imgLoadDone c none pages) s (fun t =>
        t = s.setCell c { x with img := { x.img with stat := 6 } }) ∧
      (s.imgCheck c img = .inl code → Completes (.imgLoadDone c (some img) pages) s fun t =>
        t = s.setCell c { x with img := { x.img with stat := code } }) ∧
      (s.imgCheck c img = .inr g → s.allocOk (s.tenantOf c) g.pages pages = true →
        Completes (.imgLoadDone c (some img) pages) s fun t =>
          (t.cell c).ctl.st = .loaded ∧ (t.cell c).img.stat = 2 ∧ (t.cell c).map.pages = g.pages ∧
          (t.cell c).map.ropages = g.roPages ∧ (∀ a, (t.cell c).readMem a = (img.drop 64).getD a 0) ∧
          (t.cell c).kp.pmap = pages.map fun p => p.page.val)) ∧
    (∀ u a l, s.stores.repairs = (u, a) :: l →
      Completes (.csRepairDone true) s (fun t =>
        t.stores = { s.stores with repairs := l, softErr := s.stores.softErr + 1 }) ∧
      Completes (.csRepairDone false) s (fun t =>
        t.stores = { s.stores with repairs := l, hardErr := s.stores.hardErr + 1, closed := s.stores.closed ++ [u] }))

/-! ## The object dictionary -/

/-- R434 to R437: an accepted write of one object that has a row of its own stores the value (the objects of SH_ROUTE,
SHARE_SCOPE, head windows, HS_SRC, gains, fences, cap records, HD_EN, GP_OWNER), and its result is OK. R21, R97, R178: an
accepted write of CELL_PROFILE gives the cell its profile; one of IMG_LOAD 1 starts a transfer, or ends it with code 6h
where the image lies in host memory and the device did not boot from the host. -/
def Obligations.ObjectWrites : Prop :=
  (∀ (s : State) (o : Origin) (q : Session) (row : ObjRow) (c : CellNo) (n : Fin 153) (h p4 : Fin 4) (w : Fin 16) (r : Fin 32)
     (pin : Fin 128) (sub v8 : Byte) (v16 : Half) (v32 : Word) (v64 : Long),
     let stores (i : Instr) (base unit idx sub v : Nat) : Prop :=
       s.writeGives q base unit idx sub v row 0 →
       Completes i s fun t => t.objOr idx sub row.dflt = v ∧ t.mc.result = 0
     s.servedBy o q →
     stores (.shRouteWrite n o v32) 0x2200 n.val (0x2200 + n.val) 1 v32.toNat ∧
     stores (.shareScopeWrite c o v8) 0x4001 c.val (0x4001 + 16 * c.val) 0x0A v8.toNat ∧
     stores (.windowWrite h w sub o v64) 0xB100 (16 * h.val + w.val) (0xB100 + 16 * h.val + w.val) sub.toNat v64.toNat ∧
     stores (.hsSrcWrite p4 o v32) 0x6100 p4.val (0x6100 + p4.val) 3 v32.toNat ∧
     stores (.gainWrite (.host c) o v16) 0x4004 c.val (0x4004 + 16 * c.val) 3 v16.toNat ∧
     stores (.gainWrite (.ear p4) o v16) 0x6100 p4.val (0x6100 + p4.val) 5 v16.toNat ∧
     stores (.gainWrite (.side p4) o v16) 0x6100 p4.val (0x6100 + p4.val) 6 v16.toNat ∧
     stores (.gainWrite (.mic p4) o v16) 0x6100 p4.val (0x6100 + p4.val) 7 v16.toNat ∧
     stores (.fenceWrite sub o v64) 0x3001 0 0x3001 sub.toNat v64.toNat ∧
     stores (.capRecordWrite r sub o v64) 0x3400 r.val (0x3400 + r.val) sub.toNat v64.toNat ∧
     stores (.hdEnWrite h o v8) 0xB000 h.val (0xB000 + h.val) 1 v8.toNat ∧
     stores (.gpOwnerWrite pin o v32) 0x2700 pin.val (0x2700 + pin.val) 4 v32.toNat) ∧
  (∀ (s : State) (o : Origin) (q : Session) (row : ObjRow) (c : CellNo) (v : Byte),
     s.servedBy o q →
     (s.writeGives q 0x4000 c.val (0x4000 + 16 * c.val) 3 v.toNat row 0 →
       Completes (.cellProfileWrite c o v) s fun t => t.mc.result = 0 ∧ (t.cell c).prof = v ∧ (t.cell c).ctl = (s.cell c).ctl) ∧
     (s.writeGives q 0x4001 c.val (0x4001 + 16 * c.val) 4 1 row 0 → Completes (.imgLoad c o 1) s fun t =>
       t.mc.result = 0 ∧ ((t.cell c).img.stat = 1 ∨ (t.cell c).img.stat = 6) ∧ (t.cell c).ctl = (s.cell c).ctl ∧
       (t.cell c).mem = (s.cell c).mem))

/-- R439, R443, R444: messages of a CAN client. OPEN gives a session a number that is free; CLOSE ends the session; KEEP
changes nothing but the kept response; READ and WRITE of one item execute it and keep the response. R445, R447, R454: reads
of received frames and of the journal. T1S_APP_RX and CAN_APP_RX answer the frame and empty its buffer; JR_BLOCK answers the
entries from the session's cursor on and moves the cursor past them. -/
def Obligations.DictionaryMessages : Prop :=
  (∀ (s : State) (o : Origin) (q : Session) (l : List Byte) (i : Item) (n : Half) (mac : Long),
     let h := msgHead l
     (s.dictServed = true → o.transport = 4 → 12 ≤ l.length → l.getD 0 0 = 1 → h.op = 1 → h.session = 0 →
       msgBad h l true = false → s.ssOpen < s.objOr 0x2000 1 16 → s.newNumber = some n →
       Completes (.dictOpen o mac l) s fun t =>
         (∃ k, t.mc.sessions = s.mc.sessions ++ [k] ∧ k.num = n ∧ k.transport = 4 ∧ k.node = o.node ∧ k.lastReq = l) ∧
         t.mc.jrSeq = s.mc.jrSeq + 1) ∧
     (s.canMessage o q 2 l → (∀ c, q.level c ≠ 2) → Completes (.dictClose o l) s fun t =>
       t.mc.sessions = s.mc.sessions.filter fun k => !k.same q) ∧
     (s.canMessage o q 5 l → Completes (.dictKeep o l) s fun t =>
       t.objs = s.objs ∧ t.cells = s.cells ∧ ∃ k, t.mc.sessions.find? (fun k => k.same q) = some k ∧ k.lastReq = l) ∧
     (s.canMessage o q 3 l → msgItems h l = [i] → Completes (.dictRead o l) s fun t =>
       ∃ room, t.mc.result = (s.readItem q i.idx i.sub room).2.1 ∧ t.mc.value = (s.readItem q i.idx i.sub room).2.2.2) ∧
     (s.canMessage o q 4 l → msgItems h l = [i] → Completes (.dictWrite o l) s fun t =>
       t.mc.result = (s.writeItem q i.idx i.sub i.ty i.bytes false).2 ∧
       t.objs = (s.writeItem q i.idx i.sub i.ty i.bytes false).1.objs)) ∧
  (∀ (s : State) (o : Origin) (q : Session) (k : Fin 2) (row : ObjRow),
     s.servedBy o q →
     (s.findObj 0x2600 0x0A = some ⟨0x2600, 0, 0x2600, 0x0A, row⟩ → row.acc ≠ .wo → 9 ≤ row.ty → s.mc.t1sRx.length ≤ 512 →
       Completes (.t1sAppRxRead o) s fun t => t.mc.result = 0 ∧ t.mc.value = s.mc.t1sRx ∧ t.mc.t1sRx = []) ∧
     (s.findObj (0x2601 + k.val) 8 = some ⟨0x2601, k.val, 0x2601 + k.val, 8, row⟩ → row.acc ≠ .wo → 9 ≤ row.ty →
       (s.mc.can.get k).appRx.length ≤ 512 → Completes (.canAppRxRead k o) s fun t =>
         t.mc.result = 0 ∧ t.mc.value = (s.mc.can.get k).appRx ∧ (t.mc.can.get k).appRx = []) ∧
     (s.findObj 0xA000 5 = some ⟨0xA000, 0, 0xA000, 5, row⟩ → row.acc ≠ .wo → 9 ≤ row.ty → s.jrCode q.jrCursor.toNat = 0 →
       Completes (.jrBlockRead o) s fun t =>
         let n := min 16 (s.mc.jrSeq - q.jrCursor.toNat)
         t.mc.result = 0 ∧ t.mc.value = ((List.range n).flatMap fun i => s.jrEntry (q.jrCursor.toNat + i)) ∧
         ∃ z, t.mc.sessions.find? (fun z => z.same q) = some z ∧ z.jrCursor = BitVec.ofNat 64 (q.jrCursor.toNat + n)))

/-- R439, R445, R446, R448, R449: the transports. An idle session closes; with the pins of the transport enabled (R535), a
T1S frame with an error is counted; a first CAN segment that is not the last is held, and a time-out discards and counts it;
a controller's change of state is recorded; a T1S frame of the application's type is kept for it; a mailbox request and a
command packet that write one object execute it, and the mailbox answers in 20 bytes; a mailbox request whose length is out
of bounds is answered at once with SIZE; a command packet of another version is discarded. -/
def Obligations.Transports : Prop :=
  ∀ (s : State) (q : Session) (k : Fin 2) (st : Fin 4) (node : Byte) (id : BitVec 11) (data bytes : List Byte) (len : Nat)
    (p : Packet) (i : Item),
    let can := s.mc.can.get k
    let be (a n : Nat) : Nat := ofBytes ((bytes.drop a).take n).reverse
    let app := s.objOr 0x2600 9 0
    let buf := (bytes ++ List.replicate 240 0).take 240
    let asked := s.modMc fun m => { m with mbxBuf := buf, mbxReqLen := BitVec.ofNat 32 len, mbxBusy := true, mbxDone := false }
    let body := p.words.flatMap fun w => toBytes w.toNat 8
    let served := (s.modLink fun l => { l with
      command := { l.command with waiting := l.command.waiting.erase p }, serving := some p }).roomBack .command
    (s.dictServed = true → s.mc.sessions.find? (fun z => z.num == q.num && z.dev == s.devId && decide (3 ≤ z.transport.val)) =
        some q → (∀ c, q.level c ≠ 2) → Completes (.sessionIdleTimeout q.num) s fun t =>
      t.mc.sessions = s.mc.sessions.filter fun z => !z.same q) ∧
    (s.dictServed = true → s.objOr 0x2600 1 1 ≠ 0 → s.miiOpen = true → Completes (.t1sFrame false bytes) s fun t =>
      t = s.modMc fun m => { m with t1sRxErr := satInc m.t1sRxErr }) ∧
    (s.dictServed = true → s.objOr 0x2600 1 1 ≠ 0 → s.miiOpen = true → 14 ≤ bytes.length → be 0 6 = s.objOr 0x2600 2 0 →
      be 12 2 = app → app ≠ 0 →
      app ≠ s.objOr 0x2600 3 0x88B5 → s.mc.t1sRx = [] → Completes (.t1sFrame true bytes) s fun t =>
        t.mc.t1sRx = bytes.take 512 ∧ t.mc.t1sLost = s.mc.t1sLost ∧ t.objs = s.objs) ∧
    (s.hostUp = true → s.dictServed = true → s.mc.mbxBusy = false → 12 ≤ len → len ≤ 240 → buf.getD 0 0 = 1 →
      asked.fixedWrite 1 1 q (buf.take len) i true → (asked.writeItem q i.idx i.sub i.ty i.bytes false).1.pwr.mode ≠ .hold →
      Completes (.mbxGo len bytes) s fun t => t.mc.mbxBusy = false ∧ t.mc.mbxDone = true ∧ t.mc.mbxRspLen = 20 ∧
        t.mc.result = (asked.writeItem q i.idx i.sub i.ty i.bytes false).2 ∧
        t.objs = (asked.writeItem q i.idx i.sub i.ty i.bytes false).1.objs) ∧
    (s.queueOn .command = true → s.dictServed = true → s.link.serving = none → s.mc.mbxBusy = false →
      nextCommand s.link.command.waiting = some p → body.getD 0 0 = 1 → served.fixedWrite 2 2 q body i false →
      Completes .commandPacketTake s fun t =>
        t.mc.result = (served.writeItem q i.idx i.sub i.ty i.bytes false).2 ∧
        t.objs = (served.writeItem q i.idx i.sub i.ty i.bytes false).1.objs) ∧
    (s.canOn k = true → s.fnOpen (1 + 2 * k.val) 2 = true → id.toNat = s.objOr (0x2601 + k.val) 5 0 → node ≠ 0 →
      node.toNat ≤ 127 →
      Completes (.canFrame k false id (node :: 0 :: data)) s fun t =>
        t = s.setCan k { can with parts := ⟨node, 1, data⟩ :: can.parts.filter fun z => z.node != node }) ∧
    (can.parts.any (·.node == node) = true → Completes (.canSegTimeout k node) s fun t =>
      (t.mc.can.get k).parts = (can.parts.filter fun z => z.node != node) ∧ (t.mc.can.get k).segErr = satInc can.segErr) ∧
    (s.dictServed = true → can.state ≠ 0 → st.val ≠ 0 → can.state.toNat ≠ st.val → st.val ≠ 3 →
      Completes (.canControllerStateChange k st) s fun t => (t.mc.can.get k).state = BitVec.ofNat 8 st.val ∧
        t.mc.jrSeq = s.mc.jrSeq + 1) ∧
    (s.hostUp = true → s.dictServed = true → s.mc.mbxBusy = false → (len < 12 ∨ 240 < len) →
      Completes (.mbxGo len bytes) s fun t => t.mc.mbxBusy = false ∧ t.mc.mbxDone = true ∧ t.mc.mbxRspLen = 12 ∧
        t.mc.mbxBuf.getD 3 0 = 6 ∧ t.objs = s.objs) ∧
    (s.queueOn .command = true → s.dictServed = true → s.link.serving = none → s.mc.mbxBusy = false →
      nextCommand s.link.command.waiting = some p → body.getD 0 0 ≠ 1 →
      Completes .commandPacketTake s fun t =>
        t.link.serving = none ∧ t.link.command.waiting = s.link.command.waiting.erase p ∧ t.objs = s.objs)

/-! ## Pages, control stores, the sprite snapshot -/

/-- R135, R137: micro-traps. A request with room on the save stack pushes the context and goes on at its entry; one that
finds four frames waits; MRET takes the newest frame back; an error leads to FAULT-HOLD with cause 3. -/
def Obligations.MicroTraps : Prop :=
  ∀ (s : State) (a : BitVec 13) (e : MicroErr) (k : MicroCtx) (l : List MicroCtx),
    let q := s.stores.mc
    s.seqRuns = true →
    (q.saved.length < 4 → Completes (.microTrap .mc (.request a)) s fun t =>
      t.stores.mc.saved = q.ctx :: q.saved ∧ t.stores.mc.ctx.addr = a ∧ t.stores.mc.waiting = q.waiting ∧
      t.stores.placement = s.stores.placement ∧ t.stores.migration = s.stores.migration) ∧
    (4 ≤ q.saved.length → Completes (.microTrap .mc (.request a)) s fun t =>
      t.stores.mc = { q with waiting := q.waiting ++ [a] }) ∧
    (q.saved = k :: l → q.waiting = [] → Completes (.microTrap .mc .mret) s fun t =>
      t.stores.mc.ctx = k ∧ t.stores.mc.saved = l ∧ t.cells = s.cells ∧ t.objs = s.objs) ∧
    (s.pwr.mode ≠ .faultHold → Completes (.microTrap .mc (.error e)) s fun t =>
      t.pwr.mode = .faultHold ∧ t.pwr.fhCause = 3 ∧
      t.stores.lastErr = BitVec.ofNat 64 (0x30 + e.addr.toNat * 256 + e.quarters.toNat * 16777216))

/-- R173 to R175, R354, R359: a page move that the keeper may make marks the page's entry moving; its redirect points the
entry at the new place and counts the move; of two data pages with the same bytes that may be shared, one entry is given up,
and every cell that named it names the other. -/
def Obligations.PageMoves : Prop :=
  ∀ (s : State) (page b : PageNo) (dest : Place) (forced : Bool) (m : PageMove),
    let e := s.pte page.val
    (s.keeperOn = true → s.moveOk page.val dest forced = true → Completes (.pageMoveStart page dest forced) s fun t =>
      t.pte page.val = e + 1 ∧ (∀ i, i ≠ page.val → t.pte i = s.pte i) ∧ t.cells = s.cells ∧
      t.keeper.moves = s.keeper.moves ++ [{ page := page.val, place := dest, forced := forced }] ∧
      t.keeper.started = s.keeper.started + 1) ∧
    ((s.keeper.moves.find? fun m => m.page == page.val) = some m → page.val < s.memu.frames →
      Completes (.pageRedirect page) s fun t =>
        pteState (t.pte page.val) = 1 ∧ pteLoc (t.pte page.val) = (placeLoc m.place).1 ∧
        (∀ i, i ≠ page.val → t.pte i = s.pte i) ∧ t.keeper.pageMoves = s.keeper.pageMoves + 1 ∧
        (t.keeper.moves.all fun m => m.page != page.val) = true ∧ ∀ c, (t.cell c).mem = (s.cell c).mem) ∧
    (s.keeperOn = true → s.objOr 0x3000 5 1 ≠ 0 → page ≠ b → pteState e = 1 → pteState (s.pte b.val) = 1 →
      pteCat e = true → pteCat (s.pte b.val) = true →
      (∀ c ∈ s.sharers page.val, ∀ d ∈ s.sharers b.val, s.mayShare c d = true) →
      (s.pageBytes page.val).isSome = true → s.pageBytes page.val = s.pageBytes b.val →
      Completes (.pageShareCompare page b) s fun t =>
        pteState (t.pte b.val) = 0 ∧ (∀ c, (t.cell c).mem = (s.cell c).mem) ∧
        ∀ c ∈ s.sharers b.val, (t.cell c).kp.pmap = (s.cell c).kp.pmap.map fun i => if i = b.val then page.val else i)

/-- R199, R200: the snapshot ends: slot `i` below the count holds the entry read for it, every other slot is empty. R256 to
R258, R260: a slot is released for the cell beam's next line on the comb of the cell's entry; a comb that is free starts the
released slot that comes first; the clocks of a fetch that makes it wait are added; a completed slot leaves the comb free
and is counted; a slot whose deadline has passed is a miss: LS_STAT.MISS, the line and the counts. Prefill slots take the
comb of the entry and end. R11, R211, R226, R234, R241, R261: video registers. A read of SPR_STAT, WG_STAT, WB_STAT or
LS_MISSCNT answers the register and clears it; a read of PAL_DATA answers the blue byte of the entry that PAL_IDX names; a
write of its third byte writes the entry and, with PAL_CTL.INC 1, moves PAL_IDX on; a finished writeback line stands in cell
space. -/
def Obligations.LinesOfVideo : Prop :=
  (∀ (s : State) (c : CellNo) (b n : Nat),
     let x := s.cell c
     s.liveCell c = true → x.vid.snap = some (b, n) → Completes (.spriteSnapshotDone c) s fun t =>
       s.onlyCell t c ∧ (t.cell c).vid.snap = none ∧ (t.cell c).mem = x.mem ∧
       ∀ i, Table.read (fun _ => 0) (t.cell c).vid.sprites i = if i < n then (x.snapEntry b i).1 else 0) ∧
  (∀ (s : State) (c : CellNo) (k : Fin 24) (deadline waits : Nat) (sl : Slot),
     let x := s.cell c
     let b := x.beam
     (s.liveCell c = true → entryComb (s.slotEntry c) = some k → b.on = true → b.waiting = false → x.ctl.st.started = true →
       x.vid.slot = none → x.dueLine < b.geom.vactive → (b.started = true ∨ 1 ≤ b.pline) →
       Completes (.slotRelease c deadline) s fun t =>
         s.onlyCell t c ∧ (t.cell c).vid.slot = some { comb := k, line := x.dueLine, deadline := deadline }) ∧
     (s.combUp k = true → (s.combs.get k).work = none → s.nextSlot k = some (c, sl) → x.slotPast sl = false →
       Completes (.slotStart k none) s fun t =>
         (t.combs.get k).work = some c ∧ (∃ z, (t.cell c).vid.slot = some z ∧ z.started = true ∧ z.line = sl.line) ∧
         (t.cell c).mem = x.mem) ∧
     (k.val < Config.combCount s.part → s.combSlot k = some (c, sl) → Completes (.slotFetchArrive k waits) s fun t =>
       t = s.modVid c fun v => { v with slot := some { sl with waits := sl.waits + waits } }) ∧
     (k.val < Config.combCount s.part → s.combSlot k = some (c, sl) → x.slotPast sl = false →
       Completes (.slotComplete k) s fun t =>
         (t.cell c).vid.slot = none ∧ (t.combs.get k).work = none ∧ (t.combs.get k).slots = (s.combs.get k).slots + 1 ∧
         (t.cell c).vid.missCnt = x.vid.missCnt ∧ (t.cell c).mem = x.mem) ∧
     (s.liveCell c = true → x.vid.slot = some sl → x.slotPast sl = true → Completes (.slotMiss c) s fun t =>
       (t.cell c).vid.slot = none ∧ (t.cell c).vid.lsStat.getLsbD 0 = true ∧
       (t.cell c).vid.missCnt = satInc16 x.vid.missCnt ∧ (t.cell c).vid.missLine = sl.line ∧
       (t.combs.get sl.comb).misses = satInc (s.combs.get sl.comb).misses) ∧
     (s.liveCell c = true → entryComb (s.slotEntry c) = some k → b.on = true → b.waiting = false → b.started = true →
       b.line = b.geom.vactive + 1 → x.vid.prefill = none → x.vid.prev = none → Completes (.prefillRelease c) s fun t =>
         (t.cell c).vid.prefill = some k ∧ (t.cell c).vid.prev = some x.vid.coll ∧ (t.cell c).vid.slot = x.vid.slot) ∧
     (s.liveCell c = true → x.vid.prefill = some k → Completes (.prefillEnd c) s fun t =>
       (t.cell c).vid.prefill = none ∧ (t.cell c).vid.slot = x.vid.slot)) ∧
  (∀ (s : State) (c : CellNo) (v : Byte) (pix : Nat) (w : WbLine) (r : List WbLine),
     let x := s.cell c
     let e := x.reg16 0x0800 % palSize x.prof
     let clears (i : Instr) (rd : Byte) (left : State → Prop) : Prop :=
       Completes i s fun t => s.onlyCell t c ∧ (t.cell c).ctl.rd = rd ∧ left t ∧ (t.cell c).mem = x.mem ∧
         (t.cell c).regs = x.regs
     (s.startedCell c = true → clears (.sprStatRead c) x.vid.sprStat fun t => (t.cell c).vid.sprStat = 0) ∧
     (s.startedCell c = true → clears (.wgStatRead c) x.vid.wgStat fun t => (t.cell c).vid.wgStat = 0) ∧
     (s.startedCell c = true → clears (.wbStatRead c) ((x.vid.wbStat &&& 0x0F) ||| BitVec.ofNat 8 (16 * b2n x.vid.wbOn))
       fun t => (t.cell c).vid.wbStat = 0) ∧
     (s.startedCell c = true → clears (.lsMisscntRead c) (byteOf x.vid.missCnt.toNat 0) fun t =>
       (t.cell c).vid.missCnt = 0 ∧ (t.cell c).captured 0x0683 = byteOf x.vid.missCnt.toNat 1) ∧
     (s.startedCell c = true → clears (.palDataRead c)
       (byteOf (Table.read (fun _ => (0 : BitVec 24)) x.vid.palCore e).toNat 0) fun t => (t.cell c).vid = x.vid) ∧
     (s.startedCell c = true → Completes (.palDataWrite c .forager v pix) s fun t =>
       Table.read (fun _ => (0 : BitVec 24)) (t.cell c).vid.palCore e = v ++ x.reg8 0x0805 ++ x.reg8 0x0804 ∧
       (∀ i, i ≠ e → Table.read (fun _ => (0 : BitVec 24)) (t.cell c).vid.palCore i =
         Table.read (fun _ => (0 : BitVec 24)) x.vid.palCore i) ∧ (t.cell c).vid.pal = x.vid.pal ∧
       (t.cell c).reg16 0x0800 = (if x.regBit 0x0802 0 then (x.reg16 0x0800 + 1) % 4096 else x.reg16 0x0800)) ∧
     (s.liveCell c = true → x.vid.wbQueue = w :: r → Completes (.writebackWriteDone c) s fun t =>
         s.onlyCell t c ∧ (t.cell c).vid.wbQueue = r ∧
         (t.cell c).vid.wbFrames = (if w.last then satInc x.vid.wbFrames else x.vid.wbFrames) ∧
         (∀ i, i < w.bytes.length → (t.cell c).readMem (w.addr + i) = w.bytes.getD i 0) ∧
         ∀ a, a < w.addr ∨ w.addr + w.bytes.length ≤ a → (t.cell c).readMem a = x.readMem a))

/-! ## Line slots, waggle lists, video registers -/

/-- R217 to R226: waggle instructions. The engine of a started slot that has not stopped, with a whole word of a kept form
at its pointer and its count below the limit, takes the instruction: END stops it for the frame; WAIT for a later line stops
it for the line with that target; WR8, WR16 and PAL write at the present position; TBL writes the half that its table holds;
REPL opens a loop; ENDR with more than one round left goes back to the loop's start and stops for the line; IRQ records the
line; NOP and JMP move the pointer. -/
def Obligations.WaggleInstructions : Prop :=
  ∀ (s : State) (c : CellNo) (sl : Slot) (w0 w1 : Nat) (bs : List Byte) (count start : Nat),
    let x := s.cell c
    let ha := x.beam.geom.hactive
    let a := 0x0400 + w0 / 65536 % 1024
    let p := sl.eng.ptr
    let takes (i : Instr) (op : Nat) (y : Slot) : Prop :=
      w0 / 2 ^ 28 = op → Completes i s fun t => t = s.modVid c fun v => { v with slot := some (y.settle x) }
    let next (words : Nat) : Slot := sl.wgCount words
    s.present c = true → x.vid.slot = some sl → sl.started = true → sl.run.held = false → sl.run.count < wgLmax x.prof →
    x.wgWord p = some w0 → wgFormOk (w0 / 2 ^ 28) w0 w1 = true →
    takes (.wgEnd c) 0 { next 1 with eng := { sl.eng with ptr := p + 4, off := true }
                                     run := { sl.run with count := sl.run.count + 1, held := true } } ∧
    (w0 / 2 ^ 27 % 2 = 0 → sl.run.line < w0 / 65536 % 2048 →
      takes (.wgWait c) 1 { next 1 with eng := { sl.eng with ptr := p + 4, wait := some (w0 / 65536 % 2048, w0 % 2048) }
                                        run := { sl.run with count := sl.run.count + 1, held := true } }) ∧
    (lineLive8 x.prof a = true → sl.run.pos < ha →
      takes (.wgWr8 c) 2 { next 1 with run := { sl.run with
        count := sl.run.count + 1, writes := sl.run.writes ++ [(sl.run.pos, .reg a (BitVec.ofNat 8 w0))] } }) ∧
    (lineLive16 x.prof a = true → a % 2 = 0 → sl.run.pos < ha →
      takes (.wgWr16 c) 3 { next 1 with run := { sl.run with
        count := sl.run.count + 1, writes := sl.run.writes ++
          [(sl.run.pos, .reg a (byteOf (w0 % 65536) 0)), (sl.run.pos, .reg (a + 1) (byteOf (w0 % 65536) 1))] } }) ∧
    (x.wgWord (p + 4) = some w1 → w0 / 65536 % 4096 < palSize x.prof → sl.run.pos < ha →
      takes (.wgPal c) 4 { next 2 with run := { sl.run with
        count := sl.run.count + 1
        writes := sl.run.writes ++ [(sl.run.pos, .pal (w0 / 65536 % 4096) (BitVec.ofNat 24 w1))] } }) ∧
    (x.wgWord (p + 4) = some w1 → lineLive16 x.prof a = true → a % 2 = 0 → sl.run.pos < ha →
      x.span (w1 + 2 * ((sl.run.line + w0 % 4096) % 2 ^ (w0 / 4096 % 16))) 2 = some bs →
      takes (.wgTbl c) 5 { next 2 with run := { sl.run with
        count := sl.run.count + 1, writes := sl.run.writes ++
          [(sl.run.pos, .reg a (byteOf (ofBytes bs) 0)), (sl.run.pos, .reg (a + 1) (byteOf (ofBytes bs) 1))] } }) ∧
    (sl.eng.loop = none →
      takes (.wgRepl c) 6 { next 1 with eng := { sl.eng with ptr := p + 4, loop := some (w0 % 2048, p + 4) } }) ∧
    (sl.eng.loop = some (count, start) → 2 ≤ count →
      takes (.wgEndr c) 7 { next 1 with eng := { sl.eng with ptr := start, loop := some (count - 1, start) }
                                        run := { sl.run with count := sl.run.count + 1, held := true } }) ∧
    takes (.wgIrq c) 8 { next 1 with irq := some sl.run.line } ∧
    takes (.wgNop c) 9 (next 1) ∧
    (x.wgWord (p + 4) = some w1 → takes (.wgJmp c) 10 { next 2 with eng := { sl.eng with ptr := w1 } })

/-! ## Blitter, foragers, check unit -/

/-- R270, R276, R278: the blitter. START takes the registers as the running operation, as the queued one when one runs, or
sets REJECT when both stand; an operation whose first check fails ends with ERR and that code, one whose checks pass begins
at row 0; a burst of it writes only bytes of the present row's block and moves on past them. -/
def Obligations.BlitterCommands : Prop :=
  ∀ (s : State) (c : CellNo) (g : Fin 16) (o q : BlitOp) (e : MicroErr),
    let x := s.cell c
    (s.startedCell c = true → x.blit.run = none → Completes (.blitStart c) s fun t =>
      s.onlyCell t c ∧ (t.cell c).blit.run = some x.blitSnapshot ∧ (t.cell c).blit.begun = false ∧
      (t.cell c).mem = x.mem ∧ (t.cell c).regs = x.regs) ∧
    (s.startedCell c = true → x.blit.run = some o → x.blit.queue = none → Completes (.blitStart c) s fun t =>
      s.onlyCell t c ∧ (t.cell c).blit = { x.blit with queue := some x.blitSnapshot } ∧ (t.cell c).mem = x.mem) ∧
    (s.startedCell c = true → x.blit.run = some o → x.blit.queue = some q → Completes (.blitStart c) s fun t =>
      s.onlyCell t c ∧ (t.cell c).blit = { x.blit with stat := x.blit.stat ||| 0x40 } ∧ (t.cell c).mem = x.mem) ∧
    (s.liveCell c = true → x.blit.run = some o → x.blit.begun = false → x.actual = .running → x.inTransit = false →
      x.ctl.st = .running →
      (x.blitCheck o = 0 → Completes (.blitOpBegin c) s fun t =>
        s.onlyCell t c ∧ (t.cell c).blit.begun = true ∧ (t.cell c).blit.run = some o ∧ (t.cell c).blit.rows = 0 ∧
        (t.cell c).mem = x.mem) ∧
      (x.blitCheck o ≠ 0 → Completes (.blitOpBegin c) s fun t =>
        s.onlyCell t c ∧ (t.cell c).blit.run = x.blit.queue ∧ (t.cell c).blit.err = x.blitCheck o ∧
        (t.cell c).blit.stat = x.blit.stat ||| 4 ∧ (t.cell c).mem = x.mem)) ∧
    (s.cellsRun = true → s.domOn (1 + g.val) = true → s.blitNext g = some c → x.blit.run = some o →
      Completes (.blitBurstDone g none) s (fun t =>
        t.blitTurn.get g = c.val ∧ (∀ d, d ≠ c → t.cell d = s.cell d) ∧
        ∀ a, a < x.blit.next ∨ min (o.dstHi x.blit.rows) ((x.blit.next / 64 + 1) * 64) ≤ a →
          (t.cell c).readMem a = x.readMem a) ∧
      (x.ctl.st = .running → Completes (.blitBurstDone g (some e)) s fun t =>
        (t.cell c).blit.run = x.blit.queue ∧ (t.cell c).ctl.st = .faulted ∧ (t.cell c).mem = x.mem))

/-- R283 to R290: the foragers. START takes FGk_DESC as the first descriptor's address and clears the counts, or sets REJECT
in a busy channel; CANCEL ends a busy channel with END and code 5h; a fetch of a descriptor whose fields are allowed and
aligned takes it, one out of the cell's space ends with code 3h; the first beat of a one-beat copy within cell space fills
the holding register, its second writes the byte, and reaches FULL and END; a beat that needs a draining power domain ends
with code 7h. -/
def Obligations.ForagerCommands : Prop :=
  ∀ (s : State) (c : CellNo) (k : Fin 4) (bs : List Byte) (v : Byte) (src dst : Nat) (d : Nat × Nat × Nat × Nat),
    let x := s.cell c
    let f := x.fg.get k
    let w (i : Nat) := ofBytes ((bs.drop (4 * i)).take 4)
    (s.startedCell c = true → f.busy = false → Completes (.fgStart c k) s fun t =>
      s.onlyCell t c ∧ ((t.cell c).fg.get k).busy = true ∧ ((t.cell c).fg.get k).desc = none ∧
      ((t.cell c).fg.get k).cur = x.reg32 (fgBase k + 4) % 2 ^ 25 ∧ ((t.cell c).fg.get k).dcount = 0 ∧
      (∀ j, j ≠ k → (t.cell c).fg.get j = x.fg.get j) ∧ (t.cell c).mem = x.mem) ∧
    (s.startedCell c = true → f.busy = true → Completes (.fgStart c k) s fun t =>
      s.onlyCell t c ∧ (t.cell c).fg.get k = { f with stat := f.stat ||| 0x10 }) ∧
    (s.startedCell c = true → f.busy = true → Completes (.fgCancel c k) s fun t =>
      s.onlyCell t c ∧ ((t.cell c).fg.get k).busy = false ∧ ((t.cell c).fg.get k).code = 5 ∧
      ((t.cell c).fg.get k).stat = f.stat ||| 4 ∧ (t.cell c).mem = x.mem) ∧
    (s.startedCell c = true → f.busy = true → f.desc = none → x.fgHeld k = false →
      (x.span f.cur 16 = none → Completes (.fgDescFetch c k) s fun t =>
        s.onlyCell t c ∧ ((t.cell c).fg.get k).busy = false ∧ ((t.cell c).fg.get k).code = 3) ∧
      (x.span f.cur 16 = some bs → fgDescBad (w 0) (w 1) (w 2) (w 3) = false → (fgSide (w 0)).misaligned = false →
        (fgSide (w 1)).misaligned = false → Completes (.fgDescFetch c k) s fun t =>
          s.onlyCell t c ∧ (t.cell c).fg.get k =
            { f with desc := some (w 0, w 1, w 2, w 3), srcBeats := 0, dstBeats := 0, done := 0 })) ∧
    (s.startedCell c = true → f.busy = true → x.fgHeld k = false → f.desc = some d →
      Completes (.fgBeat c k true) s (fun t =>
        s.onlyCell t c ∧ ((t.cell c).fg.get k).busy = false ∧ ((t.cell c).fg.get k).code = 7 ∧ (t.cell c).mem = x.mem) ∧
      (d = (src, dst, 1, 0) → src < 2 ^ 25 → dst < 2 ^ 25 →
        (f.out = [] → f.hold = [] → f.srcBeats = 0 → x.span src 1 = some [v] → Completes (.fgBeat c k false) s fun t =>
          s.onlyCell t c ∧ ((t.cell c).fg.get k).out = [v] ∧ ((t.cell c).fg.get k).busy = true ∧
          (t.cell c).mem = x.mem) ∧
        (f.out = [v] → f.dstBeats = 0 → f.done = 0 → x.writable dst = true → Completes (.fgBeat c k false) s fun t =>
          s.onlyCell t c ∧ s.storedAt t c [dst] [v] ∧ ((t.cell c).fg.get k).busy = false ∧
          ((t.cell c).fg.get k).code = 1 ∧ ((t.cell c).fg.get k).stat.getLsbD 1 = true ∧
          ((t.cell c).fg.get k).stat.getLsbD 2 = true)))

/-- R294 to R296: the check unit. START with a polynomial begins a session from its start value, with POLY 3 it sets CFG;
FINISH puts the result under way; ABORT ends the session; a byte fed to an active session is folded into the check and
counted, one fed to an idle unit sets LATE; the result comes out inverted where the polynomial says so, and sets DONE. -/
def Obligations.CheckUnitCommands : Prop :=
  ∀ (s : State) (c : CellNo) (ag : Agent) (i : Fin 4) (v : Byte),
    let x := s.cell c
    s.startedCell c = true →
    (x.ck.finishing = false → x.ckPoly < 3 → x.ckFold ≠ 1 → Completes (.ckStart c) s fun t =>
      s.onlyCell t c ∧ (t.cell c).ck = { x.ck with active := true, crc := ckInit x.ckPoly, count := 0 } ∧
      (t.cell c).regs = x.regs ∧ (t.cell c).mem = x.mem) ∧
    (x.ck.finishing = false → x.ckPoly = 3 → Completes (.ckStart c) s fun t =>
      s.onlyCell t c ∧ (t.cell c).ck = { x.ck with stat := x.ck.stat ||| 0x20 }) ∧
    (x.ck.finishing = false → x.ck.active = true → Completes (.ckFinish c) s fun t =>
      s.onlyCell t c ∧ (t.cell c).ck = { x.ck with finishing := true } ∧ (t.cell c).mem = x.mem) ∧
    (x.ck.finishing = false → Completes (.ckAbort c) s fun t =>
      s.onlyCell t c ∧ (t.cell c).ck = { x.ck with active := false } ∧ (t.cell c).mem = x.mem) ∧
    (x.ck.finishing = false → x.ck.active = true → x.reg32 0x0384 = 0 → Completes (.ckFeed c ag i v) s fun t =>
      s.onlyCell t c ∧ (t.cell c).ck = { x.ck with crc := ckByte x.ckPoly x.ck.crc v, count := x.ck.count + 1 } ∧
      (t.cell c).regs = x.regs) ∧
    (x.ck.finishing = false → x.ck.active = false → Completes (.ckFeed c ag i v) s fun t =>
      s.onlyCell t c ∧ (t.cell c).ck = { x.ck with stat := x.ck.stat ||| 0x10 }) ∧
    (x.ck.finishing = true → x.ckFold ≠ 2 → Completes (.ckResultReady c) s fun t =>
      s.onlyCell t c ∧ (t.cell c).ck.finishing = false ∧ (t.cell c).ck.active = false ∧
      (t.cell c).ck.result = ckFinal x.ckPoly x.ck.crc ∧ (t.cell c).ck.stat.getLsbD 0 = true ∧ (t.cell c).mem = x.mem)

/-! ## Timers and the watchdog -/

/-- R298 to R309: the timers, each alone (no pair). A count adds 1, sets MATCH at the compare value and, at FFFFh, goes on
from 0 with OVF and takes up a pending compare value; a start and a stop set RUN, a stop takes the snapshot; a capture
command copies the count and sets CAP; a read of TMn_CAP answers its low byte and marks it read; a compare write of both
bytes is in force at once in a stopped timer; a read of a running timer answers the snapshot and sets RD_RUN. R313 to R317:
the watchdog. A slow-clock cycle counts down; the warning point sets WARN and makes WDW pending; at zero the cell is reset
in place with cause WDOG, or with the fault action enters FAULTED with code 3, and EN is cleared; the two keys of WD_KICK
reload the count; those of WD_KEY open WD_CTL for one write, unless LOCK is 1; a write of a protected register while it is
not open sets KEYERR. -/
def Obligations.TimersAndWatchdog : Prop :=
  (∀ (s : State) (c : CellNo) (n : Fin 4) (who : BitVec 4) (v : Byte),
     let x := s.cell c
     let k := x.tm.get n
     let one (t : State) (p : Tm → Prop) : Prop :=
       s.onlyCell t c ∧ p ((t.cell c).tm.get n) ∧ (∀ m, m ≠ n → (t.cell c).tm.get m = x.tm.get m) ∧ (t.cell c).mem = x.mem
     (∀ m, x.tmPaired m = false) → s.startedCell c = true →
     (x.tmHeld = false → x.tmClk n ≠ 1 → x.reg8 (tmBase n + 2) = 0 → k.run = true → k.selfReset = false →
       (k.cnt < 65535 → Completes (.timerCount c (1#4 <<< n.val)) s fun t => one t fun m =>
         m.cnt = k.cnt + 1 ∧ m.run = true ∧ m.cmp = k.cmp ∧
         (k.cmp = k.cnt + 1 → m.stat = k.stat ||| 1) ∧ (k.cmp ≠ k.cnt + 1 → m.stat = k.stat)) ∧
       (k.cnt = 65535 → Completes (.timerCount c (1#4 <<< n.val)) s fun t => one t fun m =>
         m.cnt = 0 ∧ m.run = true ∧ m.stat.getLsbD 1 = true ∧ m.cmp = k.cmpPend.getD k.cmp ∧ m.cmpPend = none)) ∧
     Completes (.tgStartTimers c who) s (fun t => s.onlyCell t c ∧
       ∀ m, ((t.cell c).tm.get m).run = ((x.tm.get m).run || who.getLsbD m.val) ∧ ((t.cell c).tm.get m).cnt = (x.tm.get m).cnt) ∧
     Completes (.tgStopTimers c who) s (fun t => s.onlyCell t c ∧
       ∀ m, ((t.cell c).tm.get m).run = ((x.tm.get m).run && !who.getLsbD m.val) ∧
         ((x.tm.get m).run = true → who.getLsbD m.val = true → ((t.cell c).tm.get m).snap = (x.tm.get m).cnt)) ∧
     Completes (.timerCaptureCmd c n) s (fun t => one t fun m =>
       m.cap = k.cnt ∧ m.snap = k.cnt ∧ m.cnt = k.cnt ∧ m.stat.getLsbD 2 = true ∧
       (k.capUnread = true → m.stat.getLsbD 3 = true)) ∧
     Completes (.timerCapRead c n) s (fun t => one t fun m =>
       m = { k with capUnread := false } ∧ (t.cell c).ctl.rd = byteOf k.cap 0) ∧
     Completes (.timerCmpWrite c n false v) s (fun t => one t fun m => m = { k with stageLo := v }) ∧
     (k.run = false → Completes (.timerCmpWrite c n true v) s fun t => one t fun m =>
       m.cmp = k.stageLo.toNat + 256 * v.toNat ∧ m.cmpPend = none ∧ m.cnt = k.cnt) ∧
     (k.run = true → Completes (.timerCntRead c n) s fun t => one t fun m =>
       m = { k with stat := k.stat ||| 0x10 } ∧ (t.cell c).ctl.rd = byteOf k.snap 0)) ∧
  (∀ (s : State) (c : CellNo) (v : Byte) (warn high : Bool) (q : LockedSeq),
     let x := s.cell c
     let a := 0x01D4 + 2 * b2n warn + b2n high
     s.startedCell c = true →
     (x.wdCounts = true → x.wd.expireDue = false → Completes (.wdTick c) s fun t =>
       s.onlyCell t c ∧ (t.cell c).wd.count = x.wd.count - 1 ∧
       (t.cell c).wd.expireDue = decide (x.wd.count - 1 = 0) ∧ (t.cell c).ctl = x.ctl) ∧
     (x.wd.warnDue = true → Completes (.wdWarnReached c) s fun t =>
       s.onlyCell t c ∧ (t.cell c).wd = { x.wd with warnDue := false, warn := true, wdw := true } ∧ (t.core c) = x.core) ∧
     (x.wd.expireDue = true → x.ctl.st = .running → x.regBit 0x01D0 1 = false → Completes (.wdExpire c) s fun t =>
       s.onlyCell t c ∧ (t.cell c).ctl.st = .running ∧ (t.cell c).ctl.resetCause = x.ctl.resetCause ||| 4 ∧
       (t.cell c).ctl.cellResets = satInc x.ctl.cellResets ∧ (t.cell c).wd = {} ∧ (t.cell c).wdEn = false) ∧
     (x.wd.expireDue = true → x.ctl.st = .running → x.regBit 0x01D0 1 = true → Completes (.wdExpire c) s fun t =>
       (t.cell c).ctl.st = .faulted ∧ (t.cell c).ctl.faultCause = 3 ∧ (t.cell c).wdEn = false ∧ (t.core c) = x.core) ∧
     (x.ctl.locked = some q → q.reg = .wdKick → Completes (.wdKickWrite c 0x96) s fun t =>
       s.onlyCell t c ∧ (t.cell c).wd = { x.wd with count := x.wdPeriod } ∧ (t.cell c).ctl.locked = none) ∧
     (x.ctl.locked = some q → q.reg = .wdKick → v ≠ 0x69 → v ≠ 0x96 → Completes (.wdKickWrite c v) s fun t =>
       s.onlyCell t c ∧ (t.cell c).wd = { x.wd with keyErr := true } ∧ (t.cell c).ctl.locked = none) ∧
     (x.ctl.locked = some q → q.reg = .wdKey → Completes (.wdKeyWrite c 0xE1) s fun t =>
       s.onlyCell t c ∧ (x.wd.lock = false → (t.cell c).wd = { x.wd with opened := true }) ∧
       (x.wd.lock = true → (t.cell c).wd = x.wd)) ∧
     (x.ctl.locked = none → x.wd.opened = true → x.wdEn = false → Completes (.wdCtlWrite c v) s fun t =>
       s.onlyCell t c ∧ (t.cell c).wd.opened = false ∧ (t.cell c).reg8 0x01D0 = v &&& 0x0F ∧
       (v.getLsbD 0 = true → (t.cell c).wd.count = x.wdPeriod)) ∧
     (x.ctl.locked = none → x.wd.opened = false → (v &&& 0x7F) ≠ x.reg8 0x01D0 &&& 0x0F → Completes (.wdCtlWrite c v) s fun t =>
       s.onlyCell t c ∧ (t.cell c).wd.keyErr = true ∧ (t.cell c).regs = x.regs) ∧
     (x.ctl.locked = none → x.wd.opened = true → Completes (.wdConfigWrite c warn high v) s fun t =>
       s.onlyCell t c ∧ (t.cell c).reg8 a = v ∧ (∀ b, b ≠ a → (t.cell c).reg8 b = x.reg8 b) ∧ (t.cell c).wd = x.wd) ∧
     (x.ctl.locked = none → x.wd.opened = false → Completes (.wdConfigWrite c warn high v) s fun t =>
       s.onlyCell t c ∧ (t.cell c).regs = x.regs ∧ (t.cell c).wd = { x.wd with keyErr := true }))

/-! ## Sound and audio -/

/-- R319 to R330: sound. A sample point of a running beam is made and counted; a write of a voice's volume enters the log
with the program line and pixel; a push fills the stream FIFO, or sets OVR when it holds 64 bytes; FLUSH empties it; the
wave read of an active voice's present sample arrives. R336 to R347: device audio while PD61 is on. A lost master clock
makes its family synthesised, its return undoes that; an acquiring bridge locks; a pending gain is applied at the end of its
32 ms; a jack whose DET can show it (R535) is inserted, typed from conversions that agree within 64 codes, and removed; four
agreeing readings make a button state; an audio packet of stream 0 carries 48 frames; a port whose rate is off keeps its
state at a sample of the other families. -/
def Obligations.SoundAndAudio : Prop :=
  (∀ (s : State) (c : CellNo) (late : BitVec 16) (v : Byte) (pix : Nat) (n : Fin 16) (f : Fin 2) (w : Fin 8),
     let x := s.cell c
     let b := x.beam
     let a : Half := BitVec.ofNat 16 (vcBase n + 1)
     let st : Fin 16 := ⟨14 + f.val, by omega⟩
     let wv : Fin 16 := w.castLE (by decide)
     let k := x.snd.voices.get st
     s.startedCell c = true →
     (b.on = true → b.started = true → x.snd.idx < x.snd.keff → x.snd.div = 1 → x.kp.guest = none →
       Completes (.samplePoint c late) s fun t =>
         s.onlyCell t c ∧ (t.cell c).snd.idx = x.snd.idx + 1 ∧ (t.cell c).mem = x.mem ∧ (t.cell c).regs = x.regs) ∧
     (pix < b.pgeom.htotal → x.snd.logCount < 32 → Completes (.soundRegWrite c .forager a v pix) s fun t =>
       s.onlyCell t c ∧ (t.cell c).snd.log = x.snd.log ++ [⟨b.pline, pix, vcBase n + 1, [v]⟩] ∧
       (t.cell c).reg8 (vcBase n + 1) = v ∧ (t.cell c).live = x.live) ∧
     (k.fifo.length < 64 → Completes (.vcFifoPush c f v) s fun t =>
       s.onlyCell t c ∧ (t.cell c).snd.voices.get st = { k with fifo := k.fifo ++ [v] } ∧
       ∀ m, m ≠ st → (t.cell c).snd.voices.get m = x.snd.voices.get m) ∧
     (64 ≤ k.fifo.length → Completes (.vcFifoPush c f v) s fun t =>
       s.onlyCell t c ∧ (t.cell c).snd.voices.get st = { k with stat := k.stat ||| 0x80 }) ∧
     Completes (.vcFlush c f) s (fun t =>
       s.onlyCell t c ∧ (t.cell c).snd.voices.get st = { k with fifo := [] } ∧ (t.cell c).mem = x.mem) ∧
     ((x.snd.voices.get wv).active = true → (x.snd.voices.get wv).pre = none → Completes (.waveFetch c w) s fun t =>
       s.onlyCell t c ∧ (t.cell c).snd.voices.get wv = { x.snd.voices.get wv with
         pre := some ((x.snd.voices.get wv).phase / 4096, x.wavePair wv ((x.snd.voices.get wv).phase / 4096)) })) ∧
  (∀ (s : State) (c : CellNo) (n : Fin 4) (fam : Bool) (codes : List Nat) (code : Nat) (mics : List (BitVec 24)),
     let p := s.ports.get n
     let x := s.cell c
     let mean := codes.sum / max 1 codes.length
     let i := b2n fam
     (s.present c = true → x.snd.bridge = 1 → Completes (.bridgeLock (.cell c)) s fun t =>
       t = s.setCell c { x with snd := { x.snd with bridge := 2 } }) ∧
     (s.present c = true → x.snd.gainL.pend = true → Completes (.gainStepTimeout (.host c)) s fun t =>
       s.onlyCell t c ∧ (t.cell c).snd.gainL.cur = x.snd.gainL.target ∧ (t.cell c).snd.gainL.pend = false) ∧
     (p.mic.pend = true → Completes (.gainStepTimeout (.mic n)) s fun t =>
       (t.ports.get n).mic.cur = p.mic.target ∧ (t.ports.get n).mic.pend = false ∧ t.cells = s.cells) ∧
     (s.present c = true → s.audHostEn c = true → x.kp.guest = none → s.queueOn (.audio c) = true →
       x.host.audio.waiting.length < 16 → Completes (.audioPacket c none) s fun t =>
         (t.cell c).snd.frames0 = x.snd.frames0 + 48 ∧
         ∃ q, (t.cell c).host.audio.waiting = x.host.audio.waiting ++ [q] ∧ q.dropped = x.host.audio.dropNext) ∧
     (s.domOn 61 = true →
       Completes (.masterClockLoss fam) s (fun t =>
         t.audClk = putBit (putBit s.audClk i false) (2 + i) true ∧ t.ports = s.ports ∧ t.cells = s.cells) ∧
       Completes (.masterClockReturn fam) s (fun t =>
         t.audClk = putBit (putBit s.audClk i true) (2 + i) false ∧ t.ports = s.ports ∧ t.cells = s.cells) ∧
       (p.bridge = 1 → s.srcRuns p.src = true → Completes (.bridgeLock (.port n)) s fun t =>
         (t.ports.get n).bridge = 2 ∧ (p.stage = 2 → (t.ports.get n).stage = 0)) ∧
       (p.jack = 0 → s.detShows n true = true → Completes (.jackInsert n) s fun t =>
         t = { s with ports := s.ports.set n { p with jack := 1, typings := 0 } }) ∧
       (p.jack = 1 → codes.foldl max 0 ≤ codes.foldl min 4095 + 64 → Completes (.jackTyped n codes) s fun t =>
         (t.ports.get n).jack = 2 ∧ (t.ports.get n).kind = micType mean ∧ (t.ports.get n).micCode = BitVec.ofNat 16 mean) ∧
       (p.jack = 1 → codes.foldl min 4095 + 64 < codes.foldl max 0 → p.typings < 3 → Completes (.jackTyped n codes) s fun t =>
         (t.ports.get n).jack = 1 ∧ (t.ports.get n).typings = p.typings + 1) ∧
       (p.jack ≠ 0 → s.detShows n false = true → Completes (.jackRemove n) s fun t =>
         (t.ports.get n).jack = 0 ∧ (t.ports.get n).kind = 0 ∧ (t.ports.get n).btn = 0 ∧ (t.ports.get n).outL = 0 ∧
         ∀ m, m ≠ n → t.ports.get m = s.ports.get m) ∧
       (p.micOn = true → s.hs n 0x0B 1 ≠ 0 → p.btnNext = buttonOf p.micCode.toNat code → 3 ≤ p.btnRun →
         Completes (.buttonSample n code) s fun t => (t.ports.get n).btn = buttonOf p.micCode.toNat code) ∧
       Completes (.audioFamilySample fam mics) s fun t =>
         ((s.hs n 2 0 = 0 ∨ hsFamily (s.hs n 2 0) ≠ fam) → t.ports.get n = p) ∧
         (s.hs n 2 0 ≠ 0 → hsFamily (s.hs n 2 0) = fam → p.jack ≠ 2 →
           (t.ports.get n).outL = 0 ∧ (t.ports.get n).outR = 0)))

/-! ## The keeper and the swarm -/

/-- R351, R356, R360, R369, R390: the keeper. An allowed core decision is kept for the next program frame start; a core move
ends with the cell on its new core; a page decision halves the HEAT of every page in use; an accepted run device decision
makes the cell MIGRATING with its state before kept. -/
def Obligations.KeeperDecisions : Prop :=
  ∀ (s : State) (c : CellNo) (core : Fin 128) (forced : Bool) (dev : Fin 8),
    let x := s.cell c
    (s.liveCell c = true → s.mayMoveCore c core forced = true → Completes (.keeperCoreDecision c core forced) s fun t =>
      t = s.setCell c { x with kp := { x.kp with nextCore := some core } }) ∧
    (s.liveCell c = true → x.kp.moving = true → x.kp.nextCore = some core → Completes (.coreMoveDone c) s fun t =>
      (t.cell c).kp.core = some core ∧ (t.cell c).kp.onCore = true ∧ (t.cell c).kp.moving = false ∧
      (t.cell c).kp.nextCore = none ∧ (t.cell c).kp.coreMoves = satInc x.kp.coreMoves ∧ (t.core c) = x.core ∧
      (t.cell c).mem = x.mem) ∧
    (s.keeperOn = true → s.keeper.halved = false → s.keeper.frames % 4 = 0 → Table.wf (fun _ => 0) s.keeper.pt = true →
      Completes (.keeperPageDecision []) s fun t =>
        t.keeper.halved = true ∧ t.cells = s.cells ∧
        ∀ i, i < s.memu.frames → pteHeat (t.pte i) = pteHeat (s.pte i) / 2 ∧ pteState (t.pte i) = pteState (s.pte i)) ∧
    (s.liveCell c = true → s.mayMigrate c (BitVec.ofFin dev) forced = true →
      Completes (.keeperRundevDecision c dev true forced) s (fun t =>
        (t.cell c).ctl.st = .migrating ∧ (t.cell c).ctl.prior = x.ctl.st ∧ (t.cell c).kp.migState = 1 ∧
        (t.cell c).kp.migTarget = BitVec.ofNat 8 dev.val ∧ (t.cell c).mem = x.mem) ∧
      Completes (.keeperRundevDecision c dev false forced) s fun t => t = s)

/-- R375, R379, R380, R384: the links. A signal starts training from DOWN, its loss leads to DOWN; an accepted rate leads to
HELLO, a refused one to the next lower rate or to DOWN; a link that failed trains again after its time-out; LK_RETRAIN leads
an UP link to RETRAIN, as too many bad codewords do; a HELLO of another member of this swarm leads to UP; a replay time-out
resends; CTRL returns the freed credit. R383: SW_ELECT, and the loss of the master, elect the candidate with the best key.
-/
def Obligations.LinksAndMaster : Prop :=
  (∀ (s : State) (l : Fin 7) (h : HelloInfo) (ns : Half) (o : Origin) (q : Session) (row : ObjRow) (f : JFrame)
     (r : List JFrame),
     let k := s.swarmLink l
     s.linkOn l = true →
     (k.state ≠ lkDown → Completes (.linkSignal l false) s fun t =>
       (t.swarmLink l).state = lkDown ∧ (t.swarmLink l).signal = false) ∧
     (k.state = lkDown → s.lkEn l = true → k.failed = false → Completes (.linkSignal l true) s fun t =>
       (t.swarmLink l).state = lkTrain ∧ (t.swarmLink l).trying = s.lkRateMax l ∧ (t.swarmLink l).signal = true) ∧
     (k.state = lkTrain →
       Completes (.linkTrainRateDone l true) s (fun t =>
         (t.swarmLink l).state = lkHello ∧ (t.swarmLink l).rate = k.trying) ∧
       (1 < k.trying.toNat → Completes (.linkTrainRateDone l false) s fun t =>
         (t.swarmLink l).state = lkTrain ∧ (t.swarmLink l).trying = k.trying - 1) ∧
       (k.trying.toNat ≤ 1 → Completes (.linkTrainRateDone l false) s fun t =>
         (t.swarmLink l).state = lkDown ∧ (t.swarmLink l).failed = true)) ∧
     (k.state = lkDown → k.failed = true → s.lkEn l = true → k.signal = true → Completes (.linkRetryTimeout l) s fun t =>
       (t.swarmLink l).state = lkTrain ∧ (t.swarmLink l).failed = false) ∧
     (s.servedBy o q → s.writeGives q 0x7100 l.val (0x7100 + l.val) 7 1 row 0 → k.state = lkUp → s.lkEn l = true →
       k.signal = true → Completes (.lkRetrainWrite l o 1) s fun t =>
         t.mc.result = 0 ∧ (t.swarmLink l).state = lkRetrain ∧ (t.swarmLink l).trying = s.lkRateMax l) ∧
     (k.state = lkHello → h.id.val ≠ s.devId.toNat → h.swarm.toNat = s.objOr 0x7000 2 0 → Completes (.jajanHello l h) s fun t =>
       (t.swarmLink l).state = lkUp ∧ (t.swarmLink l).peer = BitVec.ofNat 8 h.id.val) ∧
     (k.state = lkUp →
       (k.replay = f :: r → k.resends < 15 → Completes (.replayTimeout l) s fun t =>
         (t.swarmLink l).resends = k.resends + 1 ∧ (t.swarmLink l).replay = k.replay ∧
         (t.swarmLink l).retries = satAdd k.retries k.replay.length) ∧
       Completes (.idleCtrlTimer l) s (fun t =>
         (∀ c, (t.swarmLink l).freed.get c = k.freed.get c - min 255 (k.freed.get c)) ∧
         ∃ m, (t.swarmLink l).lastCtrl = some m ∧ m.kind = 0 ∧ m.seq = k.txSeq ∧ m.ack = some k.rxSeq) ∧
       Completes (.delayMeasure l ns) s (fun t => (t.swarmLink l).delay = ns ∧ (t.swarmLink l).state = lkUp) ∧
       Completes (.linkUncorrectableCodewords l) s fun t =>
         (t.swarmLink l).state = lkRetrain ∧ (t.swarmLink l).trying = k.rate)) ∧
  (∀ (s : State) (o : Origin) (q : Session) (row : ObjRow),
     let d : Byte := match s.winner with | some d => BitVec.ofNat 8 d | none => 0xFF
     (s.pwr.mode.beamRuns = true → s.swarm.master ≠ 0xFF → s.swarm.master ≠ s.devId.setWidth 8 → 4 ≤ s.swarm.beamAge →
       Completes .masterLost s fun t => t.swarm.master = d ∧ t.objs = s.objs) ∧
     (s.servedBy o q → s.writeGives q 0x7000 0 0x7000 6 1 row 0 → Completes (.swElectWrite o 1) s fun t =>
       t.mc.result = 0 ∧ t.swarm.master = d))

/-- R160, R377 to R388, R441: frames for this device. CTRL gives credit back, NAK resends, BEAM of the master renews it,
SLICE and AUDIO bring a line and a sample of a cell that is away, EVENT sets the shared input's pending bit, CELLIO brings
input words to a guest, DICT brings the response that a mailbox request waits for. R379: a frame that is out of order is not
taken: nothing but the link changes, and the number expected stays. -/
def Obligations.FrameCommands : Prop :=
  (∀ (s : State) (l : Fin 7) (bytes : List Byte) (j : JFrame) (m : PulseMeas) (input : Fin 4) (q : Session),
     let k := s.swarmLink l
     let c := j.cell
     let x := s.cell c
     (s.receives l 0 bytes j → Completes (.jajanCtrl l bytes) s fun t =>
       (t.swarmLink l).rxSeq = k.rxSeq ∧
       ∀ n, (t.swarmLink l).credit.get n = k.credit.get n + j.tag.toNat / 256 ^ n.val % 256) ∧
     (s.receives l 1 bytes j → j.ack = none → k.resends < 15 → (k.replay.any fun f => f.seq == j.tag.setWidth 12) = true →
       Completes (.jajanNak l bytes) s fun t => (t.swarmLink l).resends = k.resends + 1 ∧ (t.swarmLink l).replay = k.replay) ∧
     (s.receives l 3 bytes j → s.swarm.master = BitVec.ofNat 8 j.src.toNat → k.peer.toNat = j.src.toNat →
       Completes (.jajanBeam l bytes m) s fun t => t.swarm.beamAge = 0 ∧ t.swarm.master = s.swarm.master) ∧
     (s.receives l 4 bytes j → s.wholePacket l j → j.home = s.devId → x.kp.away.isSome = true →
       s.objOr (0x4002 + 16 * c.val) 1 1 ≠ 0 → s.vfOn = true → x.host.slice.en = true → x.host.slice.waiting.length < 8 →
       Completes (.jajanSlice l bytes) s fun t =>
         (t.swarmLink l).rxSeq = k.rxSeq + 1 ∧ ∃ p, (t.cell c).host.slice.waiting = x.host.slice.waiting ++ [p] ∧
           p.words = packWords j.payload) ∧
     (s.receives l 5 bytes j → j.home = s.devId → x.kp.away.isSome = true → j.payload.length = 8 →
       Completes (.jajanAudio l bytes) s fun t =>
         (t.cell c).snd.mixL = (BitVec.ofNat 32 (ofBytes (j.payload.take 4))).toInt ∧
         (t.cell c).snd.mixR = (BitVec.ofNat 32 (ofBytes ((j.payload.drop 4).take 4))).toInt) ∧
     (s.receives l 6 bytes j → s.homeOf c = j.home → x.kp.away = none → x.ctl.st.started = true → x.clocksStopped = false →
       Completes (.jajanEvent l bytes input) s fun t =>
         (t.cell c).ic.pend.getLsbD (24 + input.val) = true ∧ (t.core c) = x.core) ∧
     (s.receives l 7 bytes j → s.wholePacket l j → x.kp.guestOn = true → x.kp.guest = some j.home →
       j.tag.toNat / 1024 % 16 = 0 → Completes (.jajanCellio l bytes) s fun t =>
         ∃ p, (t.cell c).host.input.waiting = x.host.input.waiting ++ [p] ∧ p.words = packWords j.payload) ∧
     (s.receives l 8 bytes j → s.wholePacket l j → 12 ≤ j.payload.length → j.payload.getD 0 0 = 1 →
       (msgHead j.payload).flags.getLsbD 1 = true → q.transport = 1 →
       (s.mc.sessions.find? fun z => z.num == (msgHead j.payload).session && z.dev == s.devId && !z.fwd.isEmpty &&
         (msgHead z.fwd).tid == (msgHead j.payload).tid) = some q →
       Completes (.jajanDict l bytes) s fun t =>
         t.mc.mbxDone = true ∧ t.mc.mbxBusy = false ∧ t.mc.mbxRspLen = BitVec.ofNat 32 j.payload.length ∧ t.objs = s.objs)) ∧
  (∀ (s : State) (l : Fin 7) (bytes : List Byte) (j : JFrame),
     s.linkOn l = true → (s.swarmLink l).state = lkUp → JFrame.parse bytes = some j → j.kind < 12 →
     j.seq ≠ (s.swarmLink l).rxSeq →
     ∀ i ∈ [Instr.jajanCtrl l bytes, .jajanNak l bytes, .jajanSlice l bytes, .jajanAudio l bytes, .jajanCellio l bytes,
            .jajanDict l bytes, .jajanPage l bytes, .jajanState l bytes, .migcReady l bytes, .migcAck l bytes],
       Completes i s fun t =>
         t.cells = s.cells ∧ t.objs = s.objs ∧ t.mc = s.mc ∧ (t.swarmLink l).rxSeq = (s.swarmLink l).rxSeq ∧
         ∀ m, m ≠ l → t.swarmLink m = s.swarmLink m)

/-- R390 to R394: a migration. Passes follow each other; the switch window stops the cell and its counting when what is left
is small enough; a deadline without GO goes on here; START is accepted by a device that can host the cell; PAGE stores its
blocks; the last STATE frame leaves the cell HELD; READY is answered by GO; GO starts the cell on its core; ACK releases it
here; CANCEL of a migration that is over gives back what was taken. -/
def Obligations.MigrationCommands : Prop :=
  ∀ (s : State) (l : Fin 7) (bytes : List Byte) (j : JFrame) (n : MigNeeds) (core : Fin 128) (d : CellNo),
    let c := j.cell
    let x := s.cell c
    let y := s.cell d
    let code := j.tag.toNat / 1024 % 8
    let page := j.tag.toNat / 1024 % 1024
    (s.liveCell d = true → y.kp.migState = 1 → y.dirty.isSome = true → Completes (.precopyPassDone d) s fun t =>
      (t.cell d).kp.passes = y.kp.passes + 1 ∧ (t.cell d).dirty = some [] ∧ (t.cell d).mem = y.mem) ∧
    (s.liveCell d = true → y.kp.migState = 1 → y.dirty = some [] → 1 ≤ y.kp.passes → y.beam.line = y.beam.geom.vactive + 2 →
      y.vid.snap = none → Completes (.switchWindowOpen d) s fun t =>
        (t.cell d).kp.migState = 2 ∧ (t.cell d).kp.stopped = true ∧ (t.core d).b = y.core.b ∧ (t.core d).pc = y.core.pc ∧
        (t.cell d).mem = y.mem) ∧
    (s.liveCell d = true → y.kp.migState = 2 → y.kp.gone = false → y.kp.migDefers.toNat + 1 < s.objOr 0x7000 0x0B 16 →
      y.kp.migDefers.toNat < 255 → Completes (.switchDeadline d) s fun t =>
        (t.cell d).kp.migState = 1 ∧ (t.cell d).kp.stopped = false ∧ (t.cell d).kp.migDefers = y.kp.migDefers + 1) ∧
    (s.receives l 9 bytes j → code = 0 → s.canHost c j.home (s.swarmLink l).hello n = true →
      Completes (.migcStart l bytes n) s fun t =>
        (t.cell c).ctl.st = .migrating ∧ (t.cell c).map.pages = n.pages.length ∧ (t.cell c).prof = n.profile ∧
        (t.cell c).kp.pmap = n.pages.map fun a => a.page.val) ∧
    (s.receives l 10 bytes j → s.arriving c j.home = true → page < x.map.pages → j.payload.length = 520 →
      Completes (.jajanPage l bytes) s fun t => ∀ i, i < 512 →
        (t.cell c).readMem (32768 * page + 512 * (ofBytes (j.payload.take 8) % 64) + i) = j.payload.getD (8 + i) 0) ∧
    (s.receives l 11 bytes j → s.arriving c j.home = true → j.last = true → Completes (.jajanState l bytes) s fun t =>
      (t.cell c).kp.migState = 3 ∧ (t.cell c).kp.stateIn = (x.kp.stateIn ++ j.payload).take 32768) ∧
    (s.receives l 9 bytes j → code = 1 → x.kp.migState = 2 → s.homeOf c = j.home → x.kp.migTarget.toNat = j.src.toNat →
      x.kp.gone = false → Completes (.migcReady l bytes) s fun t => (t.cell c).kp.gone = true ∧ (t.cell c).mem = x.mem) ∧
    (s.receives l 9 bytes j → code = 2 → s.arriving c j.home = true → x.kp.migState = 3 → s.coreOk c core = true →
      Completes (.migcGo l bytes core) s fun t =>
        (t.cell c).ctl.st = .running ∧ (t.cell c).kp.core = some core ∧ (t.cell c).kp.away = none ∧
        (t.cell c).kp.guestOn = x.kp.guest.isSome ∧ (t.cell c).mem = x.mem) ∧
    (s.receives l 9 bytes j → code = 3 → x.kp.gone = true → s.homeOf c = j.home → x.kp.migTarget.toNat = j.src.toNat →
      x.kp.guest = none → Completes (.migcAck l bytes) s fun t =>
        (t.cell c).kp.away = some j.src ∧ (t.cell c).kp.migState = 0 ∧ (t.cell c).mem = [] ∧ (t.cell c).kp.core = none) ∧
    (s.receives l 9 bytes j → code = 4 → s.arriving c j.home = true → Completes (.migcCancel l bytes true) s fun t =>
      (t.cell c).kp.guest = none ∧ (t.cell c).kp.migState = 0 ∧ (t.cell c).mem = [] ∧ (t.cell c).kp.pmap = [])

/-! ## The host: functions, queues, mailbox, events, terminal -/

/-- R397, R398, R409: functions and the link. VF_FLR disables and empties the four queues of its cell and clears its
mailbox, PF0_FLR disables every VF and both queues of PF0, VF Enable switches the VFs; a link that comes up or goes down
changes the link's registers and no cell. R402, R403, R407: a ring packet that fits its slot is written with a credit and
TAIL advances; a stall of a queue that holds data, with TAIL_US set, is reported once. -/
def Obligations.HostFunctionsAndDelivery : Prop :=
  (∀ (s : State) (c : CellNo) (g : Fin 6) (w n : Nat),
     s.hostUp = true →
     (s.present c = true → s.vfOn = true → Completes (.vfFlr c) s fun t =>
       (∀ q ∈ [QueueId.slice c, .audio c, .event c, .input c],
         (t.queue q).en = false ∧ (t.queue q).waiting = [] ∧ (t.queue q).opened = [] ∧ (t.queue q).inRing = []) ∧
       (t.cell c).host.mbFull = false ∧ (t.cell c).host.mbRej = false ∧ (t.core c) = s.core c ∧
       (t.cell c).mem = (s.cell c).mem ∧ ∀ d, d ≠ c → t.cell d = s.cell d) ∧
     Completes .pf0Flr s (fun t =>
       t.vfOn = false ∧ t.link.notice.en = false ∧ t.link.command.en = false ∧ t.link.command.waiting = [] ∧ t.objs = s.objs) ∧
     Completes (.vfEnableWrite false) s (fun t => t.vfOn = false ∧ t.link.notice = s.link.notice) ∧
     (s.dictServed = true → s.pwr.mode ≠ .train → Completes (.vfEnableWrite true) s fun t =>
       t = { s with link := { s.link with vfEnable := true } }) ∧
     (g.val ≤ s.objOr 0x2500 5 5 → Completes (.hostLinkChange (.up g w n)) s fun t =>
       t.link.speed = BitVec.ofNat 8 g.val ∧ t.link.width = BitVec.ofNat 8 w ∧ t.link.command = s.link.command ∧
       t.cells = s.cells) ∧
     Completes (.hostLinkChange .down) s (fun t => t.link.speed = 0 ∧ t.link.notice = s.link.notice ∧ t.cells = s.cells) ∧
     Completes (.hostLinkChange .corrected) s (fun t =>
       t = { s with link := { s.link with aerCorr := satInc s.link.aerCorr } })) ∧
  (∀ (s : State) (q : QueueId) (p : Packet) (r : List Packet),
     let k := s.queue q
     s.queueThere q = true →
     (s.queuesMove q = true → qFromHost q = false → k.pop = false → k.credit = true → k.waiting = p :: r →
       8 * p.words.length ≤ k.slotBytes.toNat → Completes (.packetDeliver q) s fun t =>
         (t.queue q).tail = k.tail + 1 ∧ (t.queue q).head = k.head ∧ (t.queue q).inRing = k.inRing ++ [p] ∧
         (t.queue q).lastCpl.1 = BitVec.ofNat 64 (8 * p.words.length) ∧
         (t.queue q).lastSlot = k.tail.toNat % 2 ^ (k.ctl.toNat / 65536 % 16) ∧ (q ≠ .notice → (t.queue q).waiting = r)) ∧
     (s.hostUp = true → s.queueOn q = true → k.tailUs ≠ 0 → k.waiting ≠ [] → Completes (.queueStall q) s fun t =>
       (t.queue q).stalled = true ∧ (k.stalled = true → t = s) ∧ (k.stalled = false → (t.queue q).stat = k.stat ||| 1)))

/-- R403, R404, R405, R408, R409: queue registers and words. RING_BASE is written while the queue is disabled; a write while
it is enabled is ignored with STAT.CFGWR; enabling sets HEAD and TAIL to 0, disabling discards what the queue holds and
keeps them; HEAD advances within what is in the ring, or STAT.HEADERR; a pop answers the oldest word, and TAIL advances with
the last word of a packet; a word of the host joins the open packet, its END word commits a packet that passes the checks
and rewinds one that does not; DROP discards the rest of the packet. -/
def Obligations.QueueRegisters : Prop :=
  ∀ (s : State) (q : QueueId) (v tag : Long) (w : Word) (p : Packet) (r : List Packet),
    let k := s.queue q
    s.queueThere q = true → s.fnUp q = true →
    Completes (.queueCtlWrite q 0 v) s (fun t =>
      (k.en = false → (t.queue q).ringBase = v) ∧
      (k.en = true → (t.queue q).ringBase = k.ringBase ∧ (t.queue q).stat = k.stat ||| 0x10)) ∧
    (k.en = false → v.getLsbD 0 = true → ({ k with ctl := v.setWidth 32 &&& qCtlMask q } : Queue).configOk q = true →
      Completes (.queueCtlWrite q 0x10 v) s fun t =>
        (t.queue q).en = true ∧ (t.queue q).head = 0 ∧ (t.queue q).tail = 0) ∧
    (k.en = true → v.getLsbD 0 = false → Completes (.queueCtlWrite q 0x10 v) s fun t =>
      (t.queue q).en = false ∧ (t.queue q).waiting = [] ∧ (t.queue q).inRing = [] ∧ (t.queue q).head = k.head ∧
      (t.queue q).tail = k.tail) ∧
    (qFromHost q = false → Completes (.queueHeadWrite q w) s fun t =>
      ((w - k.head).toNat ≤ (k.tail - k.head).toNat →
        (t.queue q).head = w ∧ (t.queue q).inRing = k.inRing.drop (w - k.head).toNat ∧ (t.queue q).stat = k.stat) ∧
      ((k.tail - k.head).toNat < (w - k.head).toNat → (t.queue q).head = k.head ∧ (t.queue q).stat = k.stat ||| 4)) ∧
    (k.en = true → k.pop = true → s.pwr.mode ≠ .faultHold →
      (∀ n, n ≠ 16 → Completes (.queuePop q n) s fun t => t = s) ∧
      (k.waiting = p :: r → k.popped < p.words.length → Completes (.queuePop q 16) s fun t =>
        (t.queue q).lastCpl.1 = p.words.getD k.popped 0 ∧
        (k.popped + 1 < p.words.length → (t.queue q).popped = k.popped + 1 ∧ (t.queue q).tail = k.tail) ∧
        (k.popped + 1 = p.words.length → (t.queue q).popped = 0 ∧ (t.queue q).tail = k.tail + 1))) ∧
    (qFromHost q = true → k.en = true → s.pwr.mode ≠ .faultHold →
      Completes (.queueWindowWrite q .low v tag) s (fun t => (t.queue q).staged = v ∧ (t.queue q).opened = k.opened) ∧
      (tagValid tag = true → tagEnd tag = false → k.words < qCapacity q → Completes (.queueWindowWrite q .whole v tag) s fun t =>
        (t.queue q).opened = k.opened ++ [(v, tag)] ∧ (t.queue q).waiting = k.waiting) ∧
      (tagValid tag = true → tagEnd tag = true → k.words < qCapacity q → k.spoiled = false →
        (packetOk q (k.opened ++ [(v, tag)]) = true → (∀ c, q = .input c → (s.cell c).kp.away = none) →
          Completes (.queueWindowWrite q .whole v tag) s fun t =>
            (t.queue q).opened = [] ∧ (t.queue q).tail = k.tail + 1 ∧
            ∃ m, (t.queue q).waiting = k.waiting ++ [m] ∧ m.words = k.opened.map (·.1) ++ [v]) ∧
        (packetOk q (k.opened ++ [(v, tag)]) = false → Completes (.queueWindowWrite q .whole v tag) s fun t =>
          (t.queue q).opened = [] ∧ (t.queue q).waiting = k.waiting ∧ (t.queue q).count = satInc k.count ∧
          (t.queue q).stat = k.stat ||| 2))) ∧
    (qFromHost q = true → Completes (.queueDrop q) s fun t =>
      (t.queue q).opened = [] ∧ (t.queue q).waiting = k.waiting ∧ (t.queue q).tail = k.tail) ∧
    (qFromHost q = false → k.pop = true → 0 < k.popped → Completes (.queueDrop q) s fun t =>
      (t.queue q).popped = 0 ∧ (t.queue q).tail = k.tail + 1)

/-- R401, R418 to R420, R476 to R478: mailbox, event queue and terminal of a cell at home. A host word fills the mailbox, or
is refused while it is full; MB_ACK empties it; byte 7 of EV_DATA pushes the staged word, and one pushed with ENDNEXT ends
its packet; EV_CTL.DROP discards the open packet; each side of the terminal's FIFOs writes behind and reads in front. -/
def Obligations.MailboxEventsTerminal : Prop :=
  ∀ (s : State) (c : CellNo) (v : Byte) (w : Long) (u : Word) (ag : Agent) (i : Fin 8) (b : Byte) (l : List Byte),
    let x := s.cell c
    let h := x.host
    let ev := h.event
    (s.present c = true → s.hostUp = true → s.vfOn = true →
      (h.mbFull = false → x.kp.away = none → Completes (.hostMailboxWrite c .whole false w) s fun t =>
        (t.cell c).host.mbData = w ∧ (t.cell c).host.mbFull = true ∧ (t.cell c).host.mbRej = h.mbRej ∧ (t.core c) = x.core) ∧
      (h.mbFull = true → Completes (.hostMailboxWrite c .whole false w) s fun t =>
        t = s.setCell c { x with host := { h with mbRej := true } }) ∧
      (x.dbg.vt = false → x.dbg.vtTx = b :: l → Completes (.vtHostRxRead c) s fun t =>
        (t.cell c).dbg.vtTx = l ∧ (t.cell c).dbg.vtHostRd = BitVec.ofNat 32 (256 + b.toNat) ∧
        (t.cell c).dbg.vtRx = x.dbg.vtRx) ∧
      (x.dbg.vt = false → x.kp.away = none → x.dbg.vtRx.length < 64 → Completes (.vtHostTxWrite c false u) s fun t =>
        (t.cell c).dbg.vtRx = x.dbg.vtRx ++ [u.setWidth 8] ∧ (t.cell c).dbg.vtHostOvf = x.dbg.vtHostOvf) ∧
      (x.dbg.vt = true → Completes (.vtHostTxWrite c false u) s fun t =>
        (t.cell c).dbg.vtRx = x.dbg.vtRx ∧ (t.cell c).dbg.vtHostOvf = true)) ∧
    (s.startedCell c = true →
      Completes (.mbAckWrite c v) s (fun t =>
        (t.cell c).host.mbFull = false ∧ (t.cell c).host.mbData = h.mbData ∧ (t.core c) = x.core) ∧
      (i.val < 7 → Completes (.eventPush c ag i v) s fun t =>
        s.onlyCell t c ∧ (t.cell c).host.evStage.get i = v ∧ (t.cell c).host.event = ev) ∧
      (i.val = 7 → s.queueOn (.event c) = true → x.kp.guest = none → ev.spoiled = false → ev.words < 64 →
        ev.opened.length < 16 →
        (h.evEndNext = false → Completes (.eventPush c ag i v) s fun t =>
          (t.cell c).host.event.opened =
            ev.opened ++ [(BitVec.ofNat 64 (ofBytes (h.evStage.toList.take 7 ++ [v])), 0)] ∧
          (t.cell c).host.event.waiting = ev.waiting) ∧
        (h.evEndNext = true → Completes (.eventPush c ag i v) s fun t =>
          (t.cell c).host.event.opened = [] ∧ (t.cell c).host.evEndNext = false ∧
          ∃ p, (t.cell c).host.event.waiting = ev.waiting ++ [p] ∧ p.dropped = ev.dropNext ∧
            p.words = ev.opened.map (·.1) ++ [BitVec.ofNat 64 (ofBytes (h.evStage.toList.take 7 ++ [v]))])) ∧
      Completes (.eventDrop c) s (fun t =>
        s.onlyCell t c ∧ (t.cell c).host.event.opened = [] ∧ (t.cell c).host.event.waiting = ev.waiting) ∧
      (x.kp.guest = none → x.dbg.vtTx.length < 64 → Completes (.vtTxWrite c v) s fun t =>
        (t.cell c).dbg.vtTx = x.dbg.vtTx ++ [v] ∧ (t.cell c).dbg.vtTxOvf = x.dbg.vtTxOvf ∧ (t.core c) = x.core) ∧
      (x.kp.guest = none → 64 ≤ x.dbg.vtTx.length → Completes (.vtTxWrite c v) s fun t =>
        (t.cell c).dbg.vtTx = x.dbg.vtTx ∧ (t.cell c).dbg.vtTxOvf = true) ∧
      Completes (.vtRxRead c) s (fun t =>
        s.onlyCell t c ∧ (t.cell c).ctl.rd = x.dbg.vtRx.headD 0 ∧ (t.cell c).dbg.vtRx = x.dbg.vtRx.drop 1))

/-! ## Heads -/

/-- R248, R249, R421, R423 to R428: heads. A head line follows the one before; a frame starts after the last; a sink that
leaves gives NOSINK; a training that succeeds gives ACTIVE at its lanes and rate, and a failed head trains again; an overlay
row that is due and arrives whole is kept for its line; FLIP_SEAL arms a flip to the next address, and SEAL is stored. -/
def Obligations.HeadCommands : Prop :=
  ∀ (s : State) (h : Fin 4) (l : Fin 2) (v : Long) (caps : SinkCaps) (py j n r : Nat) (dir : Word) (bytes : List Byte)
    (rest : List (Nat × Nat)),
    let k := s.heads.get h
    let y := k.layers.get l
    let g := s.headGeom h.val
    s.headUp h = true →
    (k.on = true → k.waiting = false → k.line + 1 < g.vtotal → k.line + 1 ≠ g.vactive → Completes (.headLineStart h) s fun t =>
      (t.heads.get h).line = k.line + 1 ∧ (t.heads.get h).frame = k.frame ∧ (t.heads.get h).link = k.link) ∧
    (k.on = true → k.waiting = false → g.vtotal ≤ k.line + 1 → 2 ≤ g.vactive → Completes (.headLineStart h) s fun t =>
      (t.heads.get h).line = 0 ∧ (t.heads.get h).frame = k.frame + 1) ∧
    (k.on = false → Completes (.headLineStart h) s fun t => t = s) ∧
    (k.on = true → Completes (.hotplug h none) s fun t =>
      (t.heads.get h).sink = none ∧ (t.heads.get h).link = 1 ∧ (t.heads.get h).on = true) ∧
    (k.on = false → Completes (.hotplug h (some caps)) s fun t =>
      (t.heads.get h).sink = some caps ∧ (t.heads.get h).link = k.link) ∧
    (k.link = 2 → Completes (.headTrainDone h true) s fun t =>
      (t.heads.get h).link = 3 ∧ (t.heads.get h).lanes = k.lanes ∧ (t.heads.get h).rate = k.rate) ∧
    (k.link = 4 → k.sink = some caps → s.combos h.val caps = (n, r) :: rest → Completes (.headTrainRetry h) s fun t =>
      (t.heads.get h).link = 2 ∧ (t.heads.get h).lanes = BitVec.ofNat 8 n ∧ (t.heads.get h).rate = BitVec.ofNat 8 r) ∧
    (s.layerRow h l py = some j → s.rowOpen h py = true → s.ov h l 1 0 / 2 % 2 = 0 →
      Completes (.overlayRowArrive h l py dir bytes) s fun t =>
        ((t.heads.get h).layers.get l).rows = (py, (words32 bytes).take (s.ov h l 3 0 % 65536)) :: y.rows ∧
        t.cells = s.cells ∧ (t.heads.get h).line = k.line) ∧
    Completes (.flipSealWrite h l 0x10 true v) s (fun t =>
      ((t.heads.get h).layers.get l).armed = some (y.nextAddr, y.nextPitch) ∧
      ((t.heads.get h).layers.get l).flipSeal = v ∧
      ((t.heads.get h).layers.get l).skips = (if y.armed.isSome then satInc y.skips else y.skips) ∧
      ((t.heads.get h).layers.get l).curAddr = y.curAddr ∧ t.cells = s.cells) ∧
    Completes (.sealWrite h l false true v) s fun t =>
      ((t.heads.get h).layers.get l).sealNow = v ∧ ((t.heads.get h).layers.get l).armed = y.armed ∧ t.cells = s.cells

/-! ## Debug and access control -/

/-- R459, R461 to R463: levels. A read of DBG_CHAL answers a challenge of 16 bytes that names cell, level and session, and
the session holds it; DBG_RESP spends it: an accepted response gives the session its level, a wrong one is counted; DBG_DROP
lowers the level; challenges expire; a lockout ends. R469, R476, R480: the debug data and the terminal of a debugger.
DBG_DATA reads DBG_LEN bytes of space 5 at DBG_ADDR, or writes them, and DBG_ADDR advances by DBG_LEN; DBG_VT_OUT answers
the bytes of the transmit FIFO and removes them; the bytes of DBG_VT_IN enter the receive FIFO. -/
def Obligations.DebugAccess : Prop :=
  (∀ (s : State) (o : Origin) (q : Session) (c : CellNo) (row : ObjRow) (h : Challenge) (resp : List Byte) (v : Byte) (n : Half),
     (s.servedBy o q →
       (s.readsObj q 0x9000 c.val (0x9000 + 16 * c.val) 3 row → Completes (.dbgChalRead c o) s fun t =>
         ∃ nonce z, nonce.length = 12 ∧ t.mc.result = 0 ∧
           t.mc.value = nonce ++ [BitVec.ofNat 8 c.val, q.req c, loByte q.num, hiByte q.num] ∧
           t.mc.sessions.find? (fun k => k.same q) = some z ∧ z.challenges = [⟨c.val, q.req c, nonce⟩] ∧ t.cells = s.cells) ∧
       (s.bytesGive q 0x9000 c.val (0x9000 + 16 * c.val) 4 resp row 0 → q.challenge c = some h →
         Completes (.dbgRespWrite c o resp) s fun t =>
           t.mc.result = 0 ∧ ((s.cell c).kp.guest = none → h.level = 2 → (t.cell c).dbg.full = true) ∧
           ∃ z, t.mc.sessions.find? (fun k => k.same q) = some z ∧ z.challenges = [] ∧ z.level c = h.level) ∧
       (s.bytesGive q 0x9000 c.val (0x9000 + 16 * c.val) 4 resp row 0x14 → Completes (.dbgRespWrite c o resp) s fun t =>
         t.mc.result = 0x14 ∧ t.dbgDev.fails = satInc s.dbgDev.fails ∧ t.cells = s.cells ∧
         ∃ z, t.mc.sessions.find? (fun k => k.same q) = some z ∧ z.challenges = [] ∧ z.level c = q.level c) ∧
       (s.writeGives q 0x9000 c.val (0x9000 + 16 * c.val) 5 v.toNat row 0 → Completes (.dbgDropWrite c o v) s fun t =>
         t.mc.result = 0 ∧ (v < q.level c →
           ∃ z, t.mc.sessions.find? (fun k => k.same q) = some z ∧ z.level c = v) ∧
         (q.level c ≤ v → t.cells = s.cells ∧ t.mc.sessions = s.mc.sessions))) ∧
     Completes (.challengeExpire n) s (fun t =>
       (∀ z ∈ t.mc.sessions, z.num = n → z.challenges = []) ∧
       (t.mc.sessions.map fun z => z.levels) = (s.mc.sessions.map fun z => z.levels) ∧ t.cells = s.cells) ∧
     Completes .dbgLockoutEnd s fun t => t = { s with dbgDev := { s.dbgDev with until_ := none } }) ∧
  (∀ (s : State) (o : Origin) (q : Session) (c : CellNo) (row : ObjRow) (bytes : List Byte),
     let x := s.cell c
     let a := q.sel c 1
     let n := q.sel c 2
     s.servedBy o q →
     (s.readsObj q 0x9001 c.val (0x9001 + 16 * c.val) 4 row → q.sel c 0 = 5 → n ≤ 512 → Completes (.dbgDataRead c o) s fun t =>
       t.mc.result = 0 ∧ t.mc.value = ((List.range n).map fun i => x.readMem (a + i)) ∧ t.cells = s.cells ∧
       ∃ z, t.mc.sessions.find? (fun k => k.same q) = some z ∧ z.sel c 1 = (a + n) % 4294967296) ∧
     (s.bytesGive q 0x9001 c.val (0x9001 + 16 * c.val) 4 bytes row 0 → q.sel c 0 = 5 → Completes (.dbgDataWrite c o bytes) s fun t =>
       t.mc.result = 0 ∧ (∀ i, i < bytes.length → (t.cell c).readMem (a + i) = bytes.getD i 0) ∧
       (∀ i, (i < a ∨ a + bytes.length ≤ i) → (t.cell c).readMem i = x.readMem i) ∧ (t.core c) = x.core) ∧
     (s.readsObj q 0x9003 c.val (0x9003 + 16 * c.val) 1 row → s.hidden q c = false → x.dbg.vt = true → x.dbg.vtTx.length ≤ 64 →
       Completes (.dbgVtOutRead c o) s fun t =>
         t.mc.result = 0 ∧ t.mc.value = x.dbg.vtTx ∧ (t.cell c).dbg.vtTx = [] ∧ (t.cell c).dbg.vtRx = x.dbg.vtRx) ∧
     (s.bytesGive q 0x9003 c.val (0x9003 + 16 * c.val) 2 bytes row 0 → s.hidden q c = false → x.dbg.vt = true →
       x.kp.away = none → x.dbg.vtRx.length + bytes.length ≤ 64 → Completes (.dbgVtInWrite c o bytes) s fun t =>
         t.mc.result = 0 ∧ (t.cell c).dbg.vtRx = x.dbg.vtRx ++ bytes ∧ (t.cell c).dbg.vtTx = x.dbg.vtTx))

/-- R464 to R467: a HALT that is due is taken at the boundary and leaves the cell HALTED with its registers; one of a PAUSED
cell is taken at once; a STEP on a NOP runs it and halts again, and is not counted against pace; the debugger's RESUME goes
back to the state before. R479: the TAP. TRST_N low leads to Test-Logic-Reset with IDCODE; a rising edge of TCK moves the
controller on as IEEE 1149.1 has it, five with TMS high reach Test-Logic-Reset from every state, and a shift state shifts
TDI in; a falling edge in Update-IR takes the instruction. What the instruction's bits name is an operand (the model's
choice, assumption 47). -/
def Obligations.DebugRunAndTap : Prop :=
  (∀ (s : State) (o : Origin) (q : Session) (c : CellNo) (row : ObjRow) (r : List CellCmd) (pix : Nat),
     let x := s.cell c
     (x.dbg.haltReq = true → x.ctl.st = .running → x.haltDue = true → x.entryDue = false → Completes (.dbgHalt c o) s fun t =>
       (t.cell c).ctl.st = .halted ∧ (t.cell c).ctl.prior = .running ∧ (t.cell c).dbg.haltCause = 1 ∧
       (t.cell c).dbg.haltReq = false ∧ (t.cell c).pace.avail = 0 ∧ (t.core c).b = x.core.b ∧ (t.core c).pc = x.core.pc ∧
       (t.cell c).mem = x.mem) ∧
     (x.dbg.haltReq = false → s.servedBy o q → s.writeGives q 0x9000 c.val (0x9000 + 16 * c.val) 6 1 row 0 →
       x.ctl.st = .paused → Completes (.dbgHalt c o) s fun t =>
         t.mc.result = 0 ∧ (t.cell c).ctl.st = .halted ∧ (t.cell c).ctl.prior = .paused ∧
         (t.cell c).ctl.pausePrior = x.ctl.prior ∧ (t.core c).b = x.core.b ∧ (t.core c).pc = x.core.pc) ∧
     (x.ctl.cmds = .step :: r → x.ctl.st = .halted → s.stepReady c = true → x.ctl.prior = .running →
       ({ x with dbg := { x.dbg with skipBreak := decide (0x10 ≤ x.dbg.haltCause.toNat) } } : Cell).breakDue = none →
       x.dbg.ctl.getLsbD 1 = false → x.iRead x.core.pc = .ok 0 → x.core.loops = [] → Completes (.dbgStep c o) s fun t =>
         (t.cell c).ctl.st = .halted ∧ (t.cell c).ctl.cmds = r ∧ (t.cell c).dbg.haltCause = 2 ∧
         (t.core c).pc = x.core.pc + 1 ∧ (t.core c).b = x.core.b ∧ (t.core c).f = x.core.f ∧
         (t.cell c).mem = x.mem ∧ (t.cell c).pace = { x.pace with avail := 0 }) ∧
     (x.ctl.cmds = .dbgResume :: r → x.ctl.st = .halted → Completes (.dbgResume c o pix) s fun t =>
       s.onlyCell t c ∧ (t.cell c).ctl.st = x.ctl.prior ∧ (t.cell c).ctl.cmds = r ∧ (t.cell c).dbg.haltCause = 0 ∧
       (t.core c) = x.core ∧ (t.cell c).mem = x.mem)) ∧
  (∀ (s : State) (tms tdi rising : Bool) (ir : TapInstr),
     s.pwr.mode ≠ .off →
     Completes (.tapClockEdge false rising tms tdi ir) s (fun t => t.tap.st = 0 ∧ t.tap.ir = .idcode) ∧
     Completes (.tapClockEdge true true tms tdi ir) s (fun t =>
       t.tap.st = tapNext s.tap.st tms ∧ ((s.tap.st = 4 ∨ s.tap.st = 11) → t.tap.shift = s.tap.shift.tail ++ [tdi]) ∧
       (t.tap.st ≠ 0 → t.tap.ir = s.tap.ir)) ∧
     Completes (.tapClockEdge true false tms tdi ir) s (fun t =>
       t.tap.st = s.tap.st ∧ t.tap.shift = s.tap.shift ∧ (s.tap.st = 15 → t.tap.ir = ir) ∧
       (s.tap.st = 4 → t.tap.tdo = s.tap.shift.headD false)) ∧
     tapNext (tapNext (tapNext (tapNext (tapNext s.tap.st true) true) true) true) true = 0)

/-! ## Power, boot, reset, measurement -/

/-- R372, R484, R497 to R504: from OFF to READY. VDD_AON leads to HOLD with everything at its power-on value; good rails
lead to SENSE with the straps read once; the fuses lead to LOAD with every domain present on, or an error to FAULT-HOLD with
cause 1; a boot image with an error and no alternate leads to FAULT-HOLD with cause 2, one that is accepted to TRAIN; GO
starts the host's boot window, and an image with an error ends it with its code; TRAIN without a channel leads to FAULT-HOLD
with cause 5, else to READY with the house beam FREE. -/
def Obligations.PowerUpSequence : Prop :=
  ∀ (s : State) (id : BitVec 3) (boot : BitVec 2) (f : FuseData) (r : BootRead) (addr : Long) (len : Word)
    (ch : List ChanTrain) (area : List (BitVec 17)) (img : List Byte),
    let p := s.pwr
    let u := s.clearArea.trainAll ((List.range 8).map fun k => if s.domOn (41 + k) then ch.getD k .unpowered else .unpowered)
    (p.mode = .off → Completes .powerOn s fun t =>
      t.pwr.mode = .hold ∧ t.pwr.rstCause = 1 ∧ t.objs = [] ∧ t.cells = State.reset.cells ∧ t.devTime = 0) ∧
    (p.mode = .hold → Completes (.railsGood id boot) s fun t =>
      t.pwr.id = (if p.idIn then p.id else id) ∧ t.pwr.idIn = true ∧
      (p.trips = 0 → t.pwr.mode = .sense ∧ t.pwr.bootSrc = boot.setWidth 8 ∧ t.domOn 49 = true) ∧
      (p.trips ≠ 0 → t.pwr.mode = .faultHold ∧ t.pwr.fhCause = 6)) ∧
    (p.mode = .sense →
      Completes (.fusesRead none) s (fun t => t.pwr.mode = .faultHold ∧ t.pwr.fhCause = 1) ∧
      (p.bootSrc ≠ 3 → Completes (.fusesRead (some f)) s fun t =>
        t.pwr.mode = .load ∧ t.pwr.fuses = some f ∧ ∀ d, s.domPresent d = true → t.domOn d = true)) ∧
    (p.mode = .load →
      (p.bootSrc = 0 → p.boot.busy = false → Completes (.bootGo addr len) s fun t =>
        t = { s with pwr := { p with boot := { busy := true, addr := addr, len := len } } }) ∧
      (p.bootSrc = 0 → p.boot.busy = true → imgError (r.primary.map (·.take p.boot.len.toNat)) ≠ 0 →
        Completes (.bootImageDone r) s fun t =>
          t.pwr.mode = .load ∧ t.pwr.boot.busy = false ∧ t.pwr.boot.err = true ∧
          t.pwr.boot.code = imgError (r.primary.map (·.take p.boot.len.toNat))) ∧
      (p.bootSrc ≠ 0 → imgError r.primary ≠ 0 → r.alternate = none → Completes (.bootImageDone r) s fun t =>
        t.pwr.mode = .faultHold ∧ t.pwr.fhCause = 2) ∧
      (p.bootSrc ≠ 0 → r.primary = some img → imgError (some img) = 0 →
        ((bootTable img).filter fun e => e.2.2 == 2) = [] → Completes (.bootImageDone r) s fun t =>
          t.pwr.mode = .train ∧ t.pwr.bootImage = 0 ∧ t.pwr.spiMode = BitVec.ofNat 8 r.spiMode.val ∧
          t.pwr.loadUs = BitVec.ofNat 32 r.us ∧ t.objs = s.objs)) ∧
    (p.mode = .train →
      (u.trainedChans = [] → Completes (.trainDone ch area) s fun t => t.pwr.mode = .faultHold ∧ t.pwr.fhCause = 5) ∧
      (u.trainedChans ≠ [] → u.areaOk area = true → area.all u.frameFree = true → p.woken = false → p.held = [] →
        Completes (.trainDone ch area) s fun t =>
          t.pwr.mode = .ready ∧ t.house.lock = .free ∧ t.house.freqOfs = 0 ∧ t.pwr.held = []))

/-- R483, R485 to R488, R494: accepted requests of a mode. SERVE is entered from READY; READY and RETAIN are reached from
SERVE through DRAIN, at whose end the cells that ran are PAUSED; RETAIN and DIAG are entered from READY at once. R494, R495,
R543, R505: an event of the wake set leads from RETAIN to TRAIN, and no event does anything in another mode. -/
def Obligations.ModesAndWake : Prop :=
  (∀ (s : State) (o : Origin) (q : Session) (row : ObjRow) (c : CellNo),
     let p := s.pwr
     let asked (v : Nat) : Prop := s.servedBy o q ∧ s.writeGives q 0x8000 0 0x8000 2 v row 0
     (asked 6 → p.mode = .ready → Completes (.modeReqServe o) s fun t =>
       t.mc.result = 0 ∧ t.pwr.req = 6 ∧ (s.throttled = false → t.pwr.mode = .serve) ∧
       (s.throttled = true → t.pwr.mode = .limited)) ∧
     (asked 5 → (p.mode = .serve ∨ p.mode = .limited) → Completes (.modeReqReady o) s fun t =>
       t.mc.result = 0 ∧ t.pwr.mode = .drain ∧ t.pwr.drainTo = .ready ∧ t.cells = s.cells) ∧
     (asked 9 → (p.mode = .serve ∨ p.mode = .limited) → Completes (.modeReqRetain o) s fun t =>
       t.mc.result = 0 ∧ t.pwr.mode = .drain ∧ t.pwr.drainTo = .retain ∧ t.cells = s.cells) ∧
     (asked 9 → p.mode = .ready → Completes (.modeReqRetain o) s fun t =>
       t.mc.result = 0 ∧ t.pwr.mode = .retain ∧ t.pwr.padHeld = true) ∧
     (asked 10 → p.mode = .ready → Completes (.modeReqDiag o) s fun t =>
       t.mc.result = 0 ∧ t.pwr.mode = .diag ∧ t.cells = s.cells) ∧
     (p.mode = .drain → p.drainTo = .ready → Completes .drainComplete s fun t =>
       t.pwr.mode = .ready ∧ ((s.cell c).ctl.st = .running → (s.cell c).kp.away = none →
         (t.cell c).ctl.st = .paused ∧ (t.cell c).ctl.prior = .running ∧ (t.core c).b = (s.core c).b ∧
         (t.cell c).beam.on = false ∧ t.pwr.drainPaused.getLsbD c.val = true))) ∧
  (∀ (s : State) (p : Fin 128) (rising : Bool),
     ∀ e ∈ [(Instr.wakeNLow, 0, true), (.padWakeEdge p rising, 1, s.padWakes p rising), (.wakeWordWrite, 2, s.domOn 49),
            (.fieldWakeFrame, 3, true), (.wakeTimeAlarm, 4, decide (s.objOr 0x8000 0x10 0 ≤ s.devTime.toNat))],
       (s.pwr.mode = .retain → e.2.2 = true → s.wakeOn e.2.1 = true → Completes e.1 s fun t =>
         t.pwr.mode = .train ∧ t.pwr.woken = true ∧ t.pwr.crystalOff = false) ∧
       ((s.pwr.mode ≠ .retain ∨ e.2.2 = false ∨ s.wakeOn e.2.1 = false) → Completes e.1 s fun t => t = s))

/-- R489 to R493: power domains. An accepted write of PD_EN 0 drains a domain that is on, and one of PD_EN 1 powers up a
domain that is off; the drain ends, with what was left counted; the shutdown and the ramp end. R488, R506 to R508: the
converter and the throttle. A frame gives each sensor its reading, the highest so far, and each tap its voltage; a hot
cluster pair goes down by 5 %, to 50 % at the least, a cool one up by 5 %. -/
def Obligations.DomainsAndMeasurement : Prop :=
  (∀ (s : State) (o : Origin) (q : Session) (row : ObjRow) (d : Fin 63) (left : Nat),
     let k := s.dom d.val
     (s.servedBy o q → s.writeGives q 0x8100 d.val (0x8100 + d.val) 1 0 row 0 → k.st = 2 → Completes (.pdEnWrite d o 0) s fun t =>
       t.mc.result = 0 ∧ (t.dom d.val).st = 3 ∧ t.pdEn d.val = false) ∧
     (s.servedBy o q → s.writeGives q 0x8100 d.val (0x8100 + d.val) 1 1 row 0 → k.st = 0 → Completes (.pdEnWrite d o 1) s fun t =>
       t.mc.result = 0 ∧ (t.dom d.val).st = 1 ∧ t.pdEn d.val = true) ∧
     (k.st = 3 → Completes (.pdDrainEnd d left) s fun t =>
       (t.dom d.val).st = 4 ∧ (left = 0 → (t.dom d.val).forced = k.forced) ∧
       (left ≠ 0 → (t.dom d.val).forced = satInc k.forced)) ∧
     (k.st = 4 → Completes (.pdRampDownEnd d) s fun t => (t.dom d.val).st = 0) ∧
     (k.st = 5 → k.down = true → Completes (.pdRampDownEnd d) s fun t => (t.dom d.val).st = 1) ∧
     (k.st = 1 → Completes (.pdRampUpEnd d) s fun t => (t.dom d.val).st = 2 ∧ ∀ n, n ≠ d.val → t.dom n = s.dom n)) ∧
  (∀ (s : State) (k : Fin 8) (n : Fin 16) (temps : List Int) (taps : List Nat) (ain : List (List Nat)) (v : Int) (mv : Nat),
     let lim := s.tempObj 0x14 800
     let now := (s.conv.ts.get ⟨k.val, by omega⟩).temp.toInt
     let r := s.pwr.throttle.get k
     s.convOn = true →
     ((∀ i : Fin 16, (s.conv.sp.get i).bad < 15) → Completes (.converterFrame temps taps ain) s fun t =>
       (temps[n.val]? = some v → (t.conv.ts.get n).temp = BitVec.ofInt 16 v ∧
         (s.conv.tsRead.getLsbD n.val = false → (t.conv.ts.get n).peak = BitVec.ofInt 16 v)) ∧
       (taps[n.val]? = some mv → (t.conv.sp.get n).mv = BitVec.ofNat 16 mv) ∧ t.pwr.mode = s.pwr.mode) ∧
     Completes (.throttleStep k) s (fun t =>
       (lim ≤ now → 55 ≤ r.toNat → t.pwr.throttle.get k = r - 5) ∧
       (lim ≤ now → r.toNat < 55 → t.pwr.throttle.get k = 50) ∧
       (now < lim - 24 → r.toNat ≤ 95 → t.pwr.throttle.get k = r + 5) ∧
       (lim - 24 ≤ now → now < lim → t = s) ∧ ∀ j, j ≠ k → t.pwr.throttle.get j = s.pwr.throttle.get j))

/-- R484, R496, R504, R507: device resets and FAULT-HOLD. RESET_N, DEV_RESET and FH_AUTO_MS lead to HOLD with their cause,
device time and the journal kept and the dictionary at its defaults; the MC watchdog and a thermal trip lead to FAULT-HOLD;
a trip is released; without supplies the device is OFF. -/
def Obligations.ResetsAndTrips : Prop :=
  ∀ (s : State) (o : Origin) (q : Session) (row : ObjRow) (k : Fin 16),
    let p := s.pwr
    let free : Prop := p.mode ≠ .off ∧ (p.mode = .faultHold → p.fhCause = 6 → p.trips = 0)
    let resets (i : Instr) (cause : Byte) : Prop := Completes i s fun t =>
      t.pwr.mode = .hold ∧ t.pwr.rstCause = cause ∧ t.devTime = s.devTime ∧ t.objs = [] ∧ t.cells = State.reset.cells ∧
      t.pwr.id = p.id
    (free → resets .resetNLow 2) ∧
    (s.servedBy o q → s.writeGives q 0x8000 0 0x8000 0x12 0xA5 row 0 → resets (.devResetWrite (some o) 0xA5) 4) ∧
    (free → s.domOn 49 = true → resets (.devResetWrite none 0xA5) 4) ∧
    (p.mode = .faultHold → p.fhAuto ≠ 0 → (p.fhCause = 6 → p.trips = 0) → resets .fhAutoReset 8) ∧
    (s.seqRuns = true → Completes .mcWdogExpire s fun t => t.pwr.mode = .faultHold ∧ t.pwr.fhCause = 8 ∧ t.pwr.padHeld = true) ∧
    (p.mode ≠ .off → p.mode ≠ .hold → p.mode ≠ .faultHold → Completes (.thermalTrip k) s fun t =>
      t.pwr.mode = .faultHold ∧ t.pwr.fhCause = 6 ∧ t.pwr.trips.getLsbD k.val = true) ∧
    Completes (.thermalTripRelease k) s (fun t =>
      t.pwr.trips.getLsbD k.val = false ∧ (∀ j, j ≠ k.val → t.pwr.trips.getLsbD j = p.trips.getLsbD j) ∧
      t.cells = s.cells ∧ t.pwr.mode = p.mode) ∧
    Completes .suppliesRemoved s fun t => t.pwr.mode = .off ∧ t.objs = [] ∧ t.mc.journal = []

/-! ## Memory channels and pins -/

/-- R515, R517, R519, R521, R534, R538, R541: channels and pins. A trained channel refreshes and tracks drift; one that was
switched on again is trained; the patrol counts a word that it corrects; GV_SET and GV_CLR set and clear bits of GV_OUT; a
settled pin level is taken, and one that is no change does nothing; a bank takes its new voltage. -/
def Obligations.MemoryAndPins : Prop :=
  ∀ (s : State) (ch : Fin 8) (rank : Fin 2) (bank : Fin 32) (page : Option PageNo) (word : Fin 4096) (d : Fin 3) (us : Nat)
    (c : CellNo) (ag : Agent) (high : Bool) (v : Byte) (p : Fin 128) (lvl : Bool) (b : Fin 8),
    let r := s.memu.chans.get ch
    let a := if high then 0x0E91 else 0x0E90
    (r.st = 2 →
      Completes (.rldRefresh ch rank bank) s (fun t =>
        t = s.modChan ch fun r => { r with refreshes := r.refreshes + 1, ref16 := s.objOr 0xC000 4 0 != 0 }) ∧
      Completes (.rldDriftTrack ch) s (fun t => t = s.modChan ch fun r => { r with drifts := r.drifts + 1 }) ∧
      (s.objOr 0xC000 5 24 ≠ 0 → s.dictServed = true → Completes (.patrolScrub (.channel ch) page word .correctable) s fun t =>
        (t.memu.chans.get ch).ce = r.ce + 1 ∧ t.cells = s.cells ∧ t.keeper = s.keeper)) ∧
    (r.st = 1 → s.pwr.mode ≠ .train → s.pwr.mode ≠ .load → d.val ≠ 0 → s.memu.density.toNat = d.val →
      Completes (.channelTrainDone ch (.ok d us)) s fun t =>
        t = s.modChan ch fun r => { r with st := 2, trainUs := BitVec.ofNat 32 us }) ∧
    (s.startedCell c = true → s.domOn 61 = true →
      Completes (.gvSetWrite c ag high v) s (fun t =>
        s.onlyCell t c ∧ (t.cell c).reg8 a = (s.cell c).reg8 a ||| v ∧ ∀ n, n ≠ a → (t.cell c).reg8 n = (s.cell c).reg8 n) ∧
      Completes (.gvClrWrite c ag high v) s (fun t =>
        s.onlyCell t c ∧ (t.cell c).reg8 a = (s.cell c).reg8 a &&& ~~~v ∧
        ∀ n, n ≠ a → (t.cell c).reg8 n = (s.cell c).reg8 n)) ∧
    (s.convOn = true → Completes (.pinFilterSettle p lvl) s fun t =>
      (t.pins.get p).level = lvl ∧ (∀ j, j ≠ p → t.pins.get j = s.pins.get j) ∧
      (lvl = (s.pins.get p).level → t = s)) ∧
    Completes (.bankVoltageChange b d) s fun t =>
      t.banks.get b = BitVec.ofNat 8 d.val ∧ (∀ j, j ≠ b → t.banks.get j = s.banks.get j) ∧ t.pins = s.pins

/-! ## Rules of one sentence or two -/

/-- R112: an entry that would take ED from 255 to 256 is not made: the cell enters FAULTED with code 2, and its registers
and memory are as before. Every entry is `State.enterVector`, and those of TRAP, of a reserved opcode, of a refused load, of
WDW, of PACE and of an interrupt are named. -/
def Obligations.EntryLimit : Prop :=
  ∀ (s : State) (c : CellNo) (n : Fin 4) (cause : BitVec 4) (r : Fin 16) (m : LdMode) (st : BitVec 6) (v : Nat) (pc : Half)
    (a : Option Abandon) (i : Fin 32),
    let x := s.cell c
    let faulted (t : State) : Prop :=
      (t.cell c).ctl.st = .faulted ∧ (t.cell c).ctl.faultCause = 2 ∧ (t.core c) = x.core ∧ (t.cell c).mem = x.mem
    let free : Prop := s.present c = true ∧ s.canEnter c = true
    x.core.ed = 255 →
    faulted (s.enterVector c v pc a) ∧
    (s.issues c [0x95, BitVec.ofNat 8 n.val] = true → Completes (.trap c n) s faulted) ∧
    (s.atBoundary c = true → x.decodePc = .trap { vector := 28, cause := cause } → Completes (.reservedOpcode c) s faulted) ∧
    (s.issues c (ldBytes r m) = true → x.map.xlatD (m.addr x.core) false = .refuse st → Completes (.ld c r m .clean) s faulted) ∧
    (free → x.wd.wdw = true → Completes (.wdwEntry c) s faulted) ∧
    (free → x.wd.wdw = false → x.pace.pend = true → Completes (.paceEntry c) s faulted) ∧
    (free → x.wd.wdw = false → x.pace.pend = false → x.core.flag 5 = true → x.ic.candidate = some i.val →
      Completes (.interruptEntry c) s faulted)

/-- R11: a read of the POP register VT_RX, the only one, returns 00h when its FIFO is empty, and removes nothing. -/
def Obligations.EmptyPopRead : Prop :=
  ∀ (s : State) (c : CellNo), s.startedCell c = true → (s.cell c).dbg.vtRx = [] → Completes (.vtRxRead c) s fun t =>
    s.onlyCell t c ∧ (t.cell c).ctl.rd = 0 ∧ (t.cell c).dbg.vtRx = [] ∧ (t.core c) = s.core c

/-- R277: a write of 1 to BL_GO.CANCEL empties the queue and ends the running operation; ERR is set with BL_ERR code 3, and
the rows already written stand. -/
def Obligations.BlitterCancel : Prop :=
  ∀ (s : State) (c : CellNo) (o : BlitOp), s.startedCell c = true → (s.cell c).blit.run = some o → Completes (.blitCancel c) s fun t =>
    s.onlyCell t c ∧ (t.cell c).blit.run = none ∧ (t.cell c).blit.queue = none ∧ (t.cell c).blit.err = 3 ∧
    (t.cell c).blit.stat = (s.cell c).blit.stat ||| 4 ∧ (t.cell c).mem = (s.cell c).mem

/-- R14: a refused access leaves the object unchanged and answers its result; a refused write is in the journal with its
result, and a refused read is not. Selectors, whose writes are not journalled (R437), are apart. -/
def Obligations.RefusedAccess : Prop :=
  ∀ (s : State) (o : Origin) (q : Session) (l : List Byte) (i : Item) (b : Obj) (code : Byte),
    code ≠ 0 → msgItems (msgHead l) l = [i] → s.findObj i.idx i.sub = some b → s.awayAt b = none →
    (s.canMessage o q 4 l → isSelector b.base b.sub = false → s.writeCode q b i.ty i.bytes false = code →
      Completes (.dictWrite o l) s fun t =>
        t.mc.result = code ∧ t.objs = s.objs ∧ t.cells = s.cells ∧ s.mc.jrSeq + 1 ≤ t.mc.jrSeq ∧
        ∃ e ∈ t.mc.journal, e.index = BitVec.ofNat 16 i.idx ∧ e.sub = BitVec.ofNat 8 i.sub ∧ e.result = code ∧
          e.session = q.num ∧ e.time = s.devTime) ∧
    (s.canMessage o q 3 l → s.readCode q b = code → Completes (.dictRead o l) s fun t =>
      t.mc.result = code ∧ t.mc.value = [] ∧ t.objs = s.objs ∧ t.cells = s.cells ∧ t.mc.journal = s.mc.journal)

/-- R444: a request whose bytes are those of the session's previous one is answered with the kept response and not executed
again: it changes nothing but the frames that are sent; any other request is executed, and its response is kept. -/
def Obligations.KeptResponse : Prop :=
  ∀ (s : State) (o : Origin) (q : Session) (l : List Byte) (i : Item),
    let h := msgHead l
    let parts := canSegments (if s.objOr 0x2601 2 2 ≠ 0 then 62 else 6) q.lastRsp
    (s.dictServed = true → o.transport = 4 → 12 ≤ l.length → l.getD 0 0 = 1 → s.sessionOn 4 h.session = some q → q.lastReq = l →
      parts.length ≤ 64 →
      ∀ op ∈ [(3, Instr.dictRead o l), (4, .dictWrite o l), (5, .dictKeep o l)], h.op = op.1 → Completes op.2 s fun t =>
        (t.mc.can.get 0).tx = canFrames o.node parts ∧ t.objs = s.objs ∧ t.cells = s.cells ∧ t.mc.sessions = s.mc.sessions ∧
        t.mc.journal = s.mc.journal) ∧
    (s.canMessage o q 4 l → msgItems h l = [i] → Completes (.dictWrite o l) s fun t =>
      t.mc.result = (s.writeItem q i.idx i.sub i.ty i.bytes false).2 ∧
      ∀ z, t.mc.sessions.find? (fun k => k.same q) = some z →
        z.lastReq = l ∧ z.lastRsp = rspHead h 0 h.session h.count ++ rspItem i i.ty t.mc.result [])

/-! ## The machine as a whole -/

/-- R2: a command for a cell that the part lacks is refused. -/
def Obligations.AbsentCells : Prop :=
  ∀ (s : State) (c : CellNo) (k : Fin 128) (n : Nat) (v : Byte),
    s.present c = false →
    ∀ i ∈ [Instr.nop c none, .cellStart c k n, .cellStop c, .regWrite c .core 0x40 v, .vidCommit c, .blitStart c,
           .imgLoadDone c none [], .eventDrop c, .vtTxWrite c v, .vfFlr c, .queueDrop (.event c)],
      exec i s = .refused .absentUnit

/-- R96, R378, R484, R496, R489: the machine right after power-on: HOLD with the power-on reset's cause, every cell EMPTY,
PD00 on and every other domain off, device time 0, every link DOWN and every head off. -/
def Obligations.ResetState : Prop :=
  let s := State.reset
  s.pwr.mode = .hold ∧ s.pwr.rstCause = 1 ∧ s.pwr.fhCause = 0 ∧ s.devTime = 0 ∧ s.objs = [] ∧ s.pending = [] ∧ s.mc.jrSeq = 2 ∧
  (∀ c, (s.cell c).ctl.st = .empty ∧ (s.cell c).mem = [] ∧ (s.cell c).map.pages = 0) ∧
  (∀ d, d < 63 → (s.dom d).st = (if d = 0 then 2 else 0)) ∧
  (∀ l, (s.swarmLink l).state = lkDown) ∧ (∀ h, (s.heads.get h).on = false)

/-- The invariant of `StepKeepsInvariant` holds at reset. -/
def Obligations.ResetInvariant : Prop :=
  State.reset.Inv

/-- R163, R452: every step keeps the invariant: the cell space of every cell is in canonical form, and the journal holds the
newest entries, all that have been written up to 8,192. -/
def Obligations.StepKeepsInvariant : Prop :=
  ∀ s t : State, s.Inv → step s = .next t → t.Inv

/-- A step takes the front of the queue and no other command, and no step changes the part: the commands run first in, first
out, and a part has the cells and combs that it has (R1, R2). -/
def Obligations.QueueFirstInFirstOut : Prop :=
  ∀ s t : State, step s = .next t → t.pending = s.pending.tail ∧ t.part = s.part

/-- No step stops with a fault, and one that is refused acts on a cell or comb that the part lacks (R2), or needs the
vendor's microcode, which the spec does not give. -/
def Obligations.StopsAreNamed : Prop :=
  ∀ s : State, (∀ f, step s ≠ .fault f) ∧ ∀ r, step s = .refused r → r = .absentUnit ∨ r = .vendorMicrocode

/-- R163: a byte of cell space reads as it was last written, every other byte as before, and a write keeps the canonical
form, so that equal memories are equal data. -/
def Obligations.MemoryReadsBack : Prop :=
  ∀ (x : Cell) (a b : Nat) (v w : Byte),
    (x.writeMem a v).readMem b = (if b = a then v else x.readMem b) ∧
    (Memory.wf x.mem = true → Memory.wf (x.writeMem a v).mem = true) ∧
    (Memory.wf x.mem = true → (x.writeMem a v).readMem a = x.readMem a → (x.writeMem a v).mem = x.mem) ∧
    (Memory.wf x.mem = true → ((x.writeMem a w).writeMem a v).mem = (x.writeMem a v).mem)
end

