-- ==== Sys2Proof/Laws/Sparse.lean ====
section
/-! SUPPORT. Canonical sparse tables: a read after a write, and the canonical form that every operation keeps. -/

namespace Sys2Proof.Machine

variable {β : Type} (d : Nat → β)

@[simp] theorem Table.read_nil (a : Nat) : Table.read d ([] : Table β) a = d a := rfl

theorem Table.read_cons (k : Nat) (v : β) (r : Table β) (a : Nat) :
    Table.read d ((k, v) :: r) a = if k = a then v else Table.read d r a := rfl

theorem Table.read_insert (t : Table β) (a b : Nat) (v : β) : Table.read d (t.insert a v) b = if b = a then v else Table.read d t b := by
  induction t with
  | nil => simp [Table.insert, Table.read, eq_comm]
  | cons e r ih =>
    obtain ⟨k, w⟩ := e
    simp only [Table.insert]
    split
    · next h => subst h; simp only [Table.read_cons]; by_cases hb : b = k <;> simp [hb, eq_comm]
    · split
      · simp only [Table.read_cons, eq_comm (a := a)]
      · next h1 h2 =>
        simp only [Table.read_cons, ih]
        by_cases hb : b = a
        · subst hb; simp [h1]
        · simp [hb]

theorem Table.read_erase (t : Table β) (a b : Nat) : Table.read d (t.erase a) b = if b = a then d b else Table.read d t b := by
  induction t with
  | nil => simp [Table.erase]
  | cons e r ih =>
    obtain ⟨k, w⟩ := e
    simp only [Table.erase]
    split
    · next h => subst h; rw [ih, Table.read_cons]; by_cases hb : b = k <;> simp [hb, eq_comm]
    · next h =>
      simp only [Table.read_cons, ih]
      by_cases hb : b = a
      · subst hb; simp [h]
      · simp [hb]

/-- A read after a write. -/
@[simp] theorem Table.read_write [DecidableEq β] (t : Table β) (a b : Nat) (v : β) :
    Table.read d (t.write d a v) b = if b = a then v else Table.read d t b := by
  unfold Table.write
  split
  · next h => rw [Table.read_erase]; split <;> simp_all
  · exact Table.read_insert d t a b v

/-! ## The canonical form -/

/-- Every key lies above `lo`: what `rising` and `risingFrom` say of the tail. -/
theorem Table.rising_cons (k : Nat) (v : β) (r : Table β) : Table.rising ((k, v) :: r) = Table.risingFrom k r := rfl

theorem Table.risingFrom_cons (lo k : Nat) (v : β) (r : Table β) :
    Table.risingFrom lo ((k, v) :: r) = (decide (lo < k) && Table.risingFrom k r) := rfl

theorem Table.risingFrom_mono {lo lo' : Nat} {t : Table β} (hl : lo ≤ lo') (h : Table.risingFrom lo' t = true) : Table.risingFrom lo t = true := by
  cases t with
  | nil => rfl
  | cons e r => obtain ⟨k, w⟩ := e; simp only [Table.risingFrom_cons, Bool.and_eq_true, decide_eq_true_eq] at h ⊢; exact ⟨by omega, h.2⟩

theorem Table.risingFrom_insert {lo : Nat} {t : Table β} (a : Nat) (v : β) (hl : lo < a) (h : Table.risingFrom lo t = true) :
    Table.risingFrom lo (t.insert a v) = true := by
  induction t generalizing lo with
  | nil => simp [Table.insert, Table.risingFrom, hl]
  | cons e r ih =>
    obtain ⟨k, w⟩ := e
    simp only [Table.risingFrom_cons, Bool.and_eq_true, decide_eq_true_eq] at h
    simp only [Table.insert]
    split
    · next he => subst he; simp [Table.risingFrom_cons, h]
    · split
      · next h2 => simp [Table.risingFrom_cons, hl, h2, h.2]
      · next h1 h2 => simp only [Table.risingFrom_cons, Bool.and_eq_true, decide_eq_true_eq]; exact ⟨h.1, ih (by omega) h.2⟩

theorem Table.risingFrom_erase {lo : Nat} {t : Table β} (a : Nat) (h : Table.risingFrom lo t = true) : Table.risingFrom lo (t.erase a) = true := by
  induction t generalizing lo with
  | nil => rfl
  | cons e r ih =>
    obtain ⟨k, w⟩ := e
    simp only [Table.risingFrom_cons, Bool.and_eq_true, decide_eq_true_eq] at h
    simp only [Table.erase]
    split
    · exact ih (Table.risingFrom_mono (by omega) h.2)
    · simp only [Table.risingFrom_cons, Bool.and_eq_true, decide_eq_true_eq]; exact ⟨h.1, ih h.2⟩

theorem Table.rising_insert {t : Table β} (a : Nat) (v : β) (h : t.rising = true) : (t.insert a v).rising = true := by
  cases t with
  | nil => rfl
  | cons e r =>
    obtain ⟨k, w⟩ := e
    rw [Table.rising_cons] at h
    simp only [Table.insert]
    split
    · next he => subst he; exact h
    · split
      · next h2 => simp [Table.rising_cons, Table.risingFrom_cons, h2, h]
      · next h1 h2 => exact Table.risingFrom_insert a v (by omega) h

theorem Table.rising_erase {t : Table β} (a : Nat) (h : t.rising = true) : (t.erase a).rising = true := by
  induction t with
  | nil => rfl
  | cons e r ih =>
    obtain ⟨k, w⟩ := e
    rw [Table.rising_cons] at h
    simp only [Table.erase]
    split
    · apply ih
      cases r with
      | nil => rfl
      | cons f r => obtain ⟨k, w⟩ := f; simp only [Table.risingFrom_cons, Bool.and_eq_true] at h; exact h.2
    · exact Table.risingFrom_erase a h

variable [DecidableEq β]

theorem Table.minimal_insert {t : Table β} (a : Nat) (v : β) (hv : v ≠ d a) (h : t.minimal d = true) : (t.insert a v).minimal d = true := by
  induction t with
  | nil => simp [Table.insert, Table.minimal, hv]
  | cons e r ih =>
    obtain ⟨k, w⟩ := e
    simp only [Table.minimal, Bool.and_eq_true] at h
    simp only [Table.insert]
    split
    · simp [Table.minimal, hv, h.2]
    · split
      · simp only [Table.minimal, Bool.and_eq_true]; exact ⟨by simp [hv], h⟩
      · simp only [Table.minimal, Bool.and_eq_true]; exact ⟨h.1, ih h.2⟩

theorem Table.minimal_erase {t : Table β} (a : Nat) (h : t.minimal d = true) : (t.erase a).minimal d = true := by
  induction t with
  | nil => rfl
  | cons e r ih =>
    obtain ⟨k, w⟩ := e
    simp only [Table.minimal, Bool.and_eq_true] at h
    simp only [Table.erase]
    split
    · exact ih h.2
    · simp only [Table.minimal, Bool.and_eq_true]; exact ⟨h.1, ih h.2⟩

@[simp] theorem Table.wf_nil : Table.wf d ([] : Table β) = true := rfl

/-- A write keeps the canonical form. -/
theorem Table.wf_write {t : Table β} (a : Nat) (v : β) (h : Table.wf d t = true) : Table.wf d (t.write d a v) = true := by
  simp only [Table.wf, Bool.and_eq_true] at h ⊢
  unfold Table.write
  split
  · exact ⟨Table.rising_erase a h.1, Table.minimal_erase d a h.2⟩
  · next hv => exact ⟨Table.rising_insert a v h.1, Table.minimal_insert d a v hv h.2⟩

theorem Table.wf_writeList {t : Table β} (a : Nat) (l : List β) (h : Table.wf d t = true) : Table.wf d (t.writeList d a l) = true := by
  induction l generalizing t a with
  | nil => exact h
  | cons v r ih => exact ih (a + 1) (Table.wf_write d a v h)

/-- A run of bytes that was written reads back, and every other key reads as before. -/
theorem Table.read_writeList (t : Table β) (a b : Nat) (l : List β) :
    Table.read d (t.writeList d a l) b = if h : a ≤ b ∧ b < a + l.length then l[b - a]'(by omega) else Table.read d t b := by
  induction l generalizing t a with
  | nil => simp only [Table.writeList, List.length_nil, Nat.add_zero]; rw [dif_neg (by omega)]
  | cons v r ih =>
    simp only [Table.writeList, ih, Table.read_write, List.length_cons]
    by_cases h0 : b = a
    · subst h0; rw [dif_neg (by omega), dif_pos (by omega)]; simp
    · by_cases h1 : a + 1 ≤ b ∧ b < a + 1 + r.length
      · rw [dif_pos h1, dif_pos (by omega)]
        have : b - a = (b - (a + 1)) + 1 := by omega
        simp only [this, List.getElem_cons_succ]
      · rw [dif_neg h1, dif_neg (by omega), if_neg h0]

/-! ## Equal contents are equal data -/

theorem Table.read_of_risingFrom {lo : Nat} {t : Table β} (h : Table.risingFrom lo t = true) {a : Nat} (ha : a ≤ lo) :
    Table.read d t a = d a := by
  induction t generalizing lo with
  | nil => rfl
  | cons e r ih =>
    obtain ⟨k, w⟩ := e
    simp only [Table.risingFrom_cons, Bool.and_eq_true, decide_eq_true_eq] at h
    rw [Table.read_cons, if_neg (by omega)]
    exact ih h.2 (by omega)

theorem Table.rising_tail {k : Nat} {w : β} {r : Table β} (h : Table.rising ((k, w) :: r) = true) : r.rising = true := by
  cases r with
  | nil => rfl
  | cons e r =>
    obtain ⟨j, v⟩ := e
    simp only [Table.rising_cons, Table.risingFrom_cons, Bool.and_eq_true] at h
    exact h.2

/-- Two tables in canonical form that read the same are the same list. -/
theorem Table.ext_of_wf {t u : Table β} (ht : Table.wf d t = true) (hu : Table.wf d u = true)
    (h : ∀ a, Table.read d t a = Table.read d u a) : t = u := by
  induction t generalizing u with
  | nil =>
    cases u with
    | nil => rfl
    | cons e r =>
      obtain ⟨k, w⟩ := e
      simp only [Table.wf, Table.minimal, Bool.and_eq_true, Bool.not_eq_true', decide_eq_false_iff_not] at hu
      have := h k
      simp only [Table.read_nil, Table.read_cons, if_true] at this
      exact absurd this.symm hu.2.1
  | cons e r ih =>
    obtain ⟨k, w⟩ := e
    cases u with
    | nil =>
      simp only [Table.wf, Table.minimal, Bool.and_eq_true, Bool.not_eq_true', decide_eq_false_iff_not] at ht
      have := h k
      simp only [Table.read_nil, Table.read_cons, if_true] at this
      exact absurd this ht.2.1
    | cons f q =>
      obtain ⟨j, v⟩ := f
      simp only [Table.wf, Table.minimal, Bool.and_eq_true, Bool.not_eq_true', decide_eq_false_iff_not] at ht hu
      have tr : Table.risingFrom k r = true := ht.1
      have ur : Table.risingFrom j q = true := hu.1
      have hkj : k = j := by
        rcases Nat.lt_trichotomy k j with hlt | heq | hgt
        · have := h k
          rw [Table.read_cons, if_pos rfl, Table.read_cons, if_neg (by omega), Table.read_of_risingFrom d ur (by omega)] at this
          exact absurd this ht.2.1
        · exact heq
        · have := h j
          rw [Table.read_cons, if_neg (by omega), Table.read_cons, if_pos rfl, Table.read_of_risingFrom d tr (by omega)] at this
          exact absurd this.symm hu.2.1
      subst hkj
      have hwv : w = v := by simpa only [Table.read_cons, if_true] using h k
      subst hwv
      have hrq : r = q := by
        apply ih
        · simp only [Table.wf, Bool.and_eq_true]; exact ⟨Table.rising_tail ht.1, ht.2.2⟩
        · simp only [Table.wf, Bool.and_eq_true]; exact ⟨Table.rising_tail hu.1, hu.2.2⟩
        · intro a
          by_cases hak : a = k
          · subst hak; rw [Table.read_of_risingFrom d tr (by omega), Table.read_of_risingFrom d ur (by omega)]
          · have := h a
            rwa [Table.read_cons, Table.read_cons, if_neg (by omega), if_neg (by omega)] at this
      rw [hrq]

end Sys2Proof.Machine
end

