-- ==== Sys2Proof/Laws/Memory.lean ====
section
/-! SUPPORT. Cell space: what a write changes, what it keeps, and the canonical form, which every memory operation keeps. -/

namespace Sys2Proof.Machine

variable (x : Cell) (a b : Nat) (v : Byte)

@[simp] theorem Cell.writeMem_readMem : (x.writeMem a v).readMem b = if b = a then v else x.readMem b :=
  Table.read_write memDefault x.mem a b v

@[simp] theorem Cell.writeMem_ctl : (x.writeMem a v).ctl = x.ctl := rfl
@[simp] theorem Cell.writeMem_prof : (x.writeMem a v).prof = x.prof := rfl
@[simp] theorem Cell.writeMem_core : (x.writeMem a v).core = x.core := rfl
@[simp] theorem Cell.writeMem_pace : (x.writeMem a v).pace = x.pace := rfl
@[simp] theorem Cell.writeMem_beam : (x.writeMem a v).beam = x.beam := rfl
@[simp] theorem Cell.writeMem_ic : (x.writeMem a v).ic = x.ic := rfl
@[simp] theorem Cell.writeMem_map : (x.writeMem a v).map = x.map := rfl
@[simp] theorem Cell.writeMem_img : (x.writeMem a v).img = x.img := rfl
@[simp] theorem Cell.writeMem_regs : (x.writeMem a v).regs = x.regs := rfl
@[simp] theorem Cell.writeMem_live : (x.writeMem a v).live = x.live := rfl
@[simp] theorem Cell.writeMem_host : (x.writeMem a v).host = x.host := rfl
@[simp] theorem Cell.writeMem_xs : (x.writeMem a v).xs = x.xs := rfl
@[simp] theorem Cell.writeMem_dbg : (x.writeMem a v).dbg = x.dbg := rfl
@[simp] theorem Cell.writeMem_wd : (x.writeMem a v).wd = x.wd := rfl
@[simp] theorem Cell.writeMem_kp : (x.writeMem a v).kp = x.kp := rfl
@[simp] theorem Cell.writeMem_blit : (x.writeMem a v).blit = x.blit := rfl
@[simp] theorem Cell.writeMem_fg : (x.writeMem a v).fg = x.fg := rfl
@[simp] theorem Cell.writeMem_ck : (x.writeMem a v).ck = x.ck := rfl
@[simp] theorem Cell.writeMem_tm : (x.writeMem a v).tm = x.tm := rfl
@[simp] theorem Cell.writeMem_snd : (x.writeMem a v).snd = x.snd := rfl
@[simp] theorem Cell.writeMem_capt : (x.writeMem a v).capt = x.capt := rfl

/-- The canonical form of a cell's space. -/
theorem Cell.writeMem_wf (h : Memory.wf x.mem = true) : Memory.wf (x.writeMem a v).mem = true := Table.wf_write memDefault a v h

/-- What a run of writes changes: the space, and what notes a store; `f` of the rest is kept. -/
theorem Cell.writeMemList_keeps {α : Type} (f : Cell → α) (hf : ∀ x a v, f (Cell.writeMem x a v) = f x) (l : List Byte) :
    f (x.writeMemList a l) = f x := by
  induction l generalizing x a with
  | nil => rfl
  | cons w r ih => simp only [Cell.writeMemList, ih, hf]

theorem Cell.writeMemList_wf (l : List Byte) (h : Memory.wf x.mem = true) : Memory.wf (x.writeMemList a l).mem = true := by
  induction l generalizing x a with
  | nil => exact h
  | cons w r ih => exact ih _ _ (x.writeMem_wf a w h)

theorem Cell.writeMemList_readMem (l : List Byte) :
    (x.writeMemList a l).readMem b = if h : a ≤ b ∧ b < a + l.length then l[b - a]'(by omega) else x.readMem b := by
  induction l generalizing x a with
  | nil => simp only [Cell.writeMemList, List.length_nil, Nat.add_zero]; rw [dif_neg (by omega)]
  | cons w r ih =>
    simp only [Cell.writeMemList, ih, Cell.writeMem_readMem, List.length_cons]
    by_cases h0 : b = a
    · subst h0; rw [dif_neg (by omega), dif_pos (by omega)]; simp
    · by_cases h1 : a + 1 ≤ b ∧ b < a + 1 + r.length
      · rw [dif_pos h1, dif_pos (by omega)]
        have : b - a = (b - (a + 1)) + 1 := by omega
        simp only [this, List.getElem_cons_succ]
      · rw [dif_neg h1, dif_neg (by omega), if_neg h0]

/-- Stores at translated addresses keep the canonical form. -/
theorem Cell.putMem_wf (ps : List Nat) (l : List Byte) (h : Memory.wf x.mem = true) : Memory.wf (x.putMem ps l).mem = true := by
  induction ps generalizing x l with
  | nil => cases l <;> exact h
  | cons p r ih =>
    cases l with
    | nil => exact h
    | cons w q => exact ih _ _ (x.writeMem_wf p w h)

/-- Stores at translated addresses leave every other address alone. -/
theorem Cell.putMem_readMem_ne (ps : List Nat) (l : List Byte) (h : b ∉ ps) : (x.putMem ps l).readMem b = x.readMem b := by
  induction ps generalizing x l with
  | nil => cases l <;> rfl
  | cons p r ih =>
    simp only [List.mem_cons, not_or] at h
    cases l with
    | nil => rfl
    | cons w q => rw [Cell.putMem, ih _ _ h.2, Cell.writeMem_readMem, if_neg h.1]

/-- The end of a row of the blitter stores nothing. -/
theorem Cell.blitRow_mem (o : BlitOp) (y : Cell) : (y.blitRow o).mem = y.mem := by
  unfold Cell.blitRow
  simp only []
  split <;> simp [Cell.blitFlags, Cell.blitEnd, Cell.edge] <;> (repeat' split) <;> rfl

/-- Blocks of a page that arrive over the swarm. -/
theorem Cell.putBlocks_wf (page : Nat) (l : List Byte) (h : Memory.wf x.mem = true) : Memory.wf (x.putBlocks page l).mem = true := by
  have one : ∀ (y : Cell) (k : List Byte), Memory.wf y.mem = true →
      Memory.wf (if k.length = 520 then y.writeMemList (32768 * page + 512 * (ofBytes (k.take 8) % 64)) (k.drop 8) else y).mem = true := by
    intro y k hy
    split
    · exact Cell.writeMemList_wf _ _ _ hy
    · exact hy
  exact one _ _ (one _ _ h)

/-- The entries of an image's body from key `n` on: keys from `n` up, no zero among the values. -/
theorem imgMem_zipIdx (l : List Byte) (n : Nat) :
    Table.minimal memDefault ((l.zipIdx n).filterMap fun p => if p.1 = 0 then none else some (p.2, p.1)) = true ∧
    ∀ lo, lo < n → Table.risingFrom lo ((l.zipIdx n).filterMap fun p => if p.1 = 0 then none else some (p.2, p.1)) = true := by
  induction l generalizing n with
  | nil => exact ⟨rfl, fun _ _ => rfl⟩
  | cons w r ih =>
    obtain ⟨h1, h2⟩ := ih (n + 1)
    simp only [List.zipIdx_cons, List.filterMap_cons]
    split
    · next h => exact ⟨h1, fun lo hl => h2 lo (by omega)⟩
    · next h e he =>
      split at he
      · cases he
      · next hw =>
        cases he
        refine ⟨?_, fun lo hl => ?_⟩
        · simp only [Table.minimal, h1, Bool.and_true, Bool.not_eq_true', memDefault]; exact decide_eq_false hw
        · simp only [Table.risingFrom_cons, h2 n (by omega), Bool.and_true, decide_eq_true_eq]; exact hl

/-- A loaded image leaves cell space in canonical form. -/
theorem imgMem_wf (l : List Byte) : Memory.wf (imgMem l) = true := by
  have h := imgMem_zipIdx l 0
  simp only [Memory.wf, Table.wf, Bool.and_eq_true]
  refine ⟨?_, h.1⟩
  cases l with
  | nil => rfl
  | cons w r =>
    obtain ⟨h1, h2⟩ := imgMem_zipIdx r 1
    simp only [imgMem, List.zipIdx_cons, List.filterMap_cons]
    split
    · next hn =>
      have := h2 0 (by omega)
      revert this
      generalize (r.zipIdx (0 + 1)).filterMap _ = t
      cases t with
      | nil => intro _; rfl
      | cons e t => obtain ⟨k, u⟩ := e; simp only [Table.risingFrom_cons, Table.rising_cons, Bool.and_eq_true]; exact fun h => h.2
    · next hn e he =>
      split at he
      · cases he
      · cases he; rw [Table.rising_cons]; exact h2 0 (by omega)

/-- A burst of the blitter. -/
theorem Cell.blitBurst_wf (o : BlitOp) (ctr : Nat) (h : Memory.wf x.mem = true) : Memory.wf (x.blitBurst o ctr).mem = true := by
  have fold : ∀ (g : Cell → Nat → Nat) (f : Cell → Nat → Byte) (l : List Nat) (y : Cell), Memory.wf y.mem = true →
      Memory.wf (l.foldl (fun y i => y.writeMem (g y i) (f y i)) y).mem = true := by
    intro g f l
    induction l with
    | nil => exact fun y hy => hy
    | cons i r ih => exact fun y hy => ih _ (y.writeMem_wf _ _ hy)
  unfold Cell.blitBurst
  simp only []
  have key := fold (fun _ i => x.blit.next + i)
    (fun y i => if x.blit.selfOver then o.freeByte x.blit.rows (x.blit.next + i) (y.readMem (x.blit.next + i)) (Config.freeByte (ctr + i))
      else y.blitByte o x.blit.rows (x.blit.next + i))
    (List.range (min (o.dstHi x.blit.rows) ((x.blit.next / 64 + 1) * 64) - x.blit.next)) x h
  split
  · rw [show ∀ y : Cell, (y.blitRow o).mem = y.mem from Cell.blitRow_mem o]; exact key
  · exact key

theorem State.reset_mem_wf (c : CellNo) : Memory.wf (State.reset.cell c).mem = true := by
  have h : (State.reset.cell c).mem = [] := by revert c; decide +kernel
  rw [h]; rfl

end Sys2Proof.Machine
end

