-- ==== Sys2Proof/Laws/State.lean ====
section
/-! SUPPORT. The updates of State, field by field: what each changes and that it keeps every other field. Updates of one
block of a cell rewrite to `setCell`, so that these lemmas serve them too. -/

namespace Sys2Proof.Machine


/-! ## setCell -/

@[simp] theorem State.setCell_part (s : State) (c : CellNo) (x : Cell) : (s.setCell c x).part = s.part := rfl
@[simp] theorem State.setCell_devTime (s : State) (c : CellNo) (x : Cell) : (s.setCell c x).devTime = s.devTime := rfl
@[simp] theorem State.setCell_house (s : State) (c : CellNo) (x : Cell) : (s.setCell c x).house = s.house := rfl
@[simp] theorem State.setCell_combs (s : State) (c : CellNo) (x : Cell) : (s.setCell c x).combs = s.combs := rfl
@[simp] theorem State.setCell_slots (s : State) (c : CellNo) (x : Cell) : (s.setCell c x).slots = s.slots := rfl
@[simp] theorem State.setCell_audClk (s : State) (c : CellNo) (x : Cell) : (s.setCell c x).audClk = s.audClk := rfl
@[simp] theorem State.setCell_ports (s : State) (c : CellNo) (x : Cell) : (s.setCell c x).ports = s.ports := rfl
@[simp] theorem State.setCell_blitTurn (s : State) (c : CellNo) (x : Cell) : (s.setCell c x).blitTurn = s.blitTurn := rfl
@[simp] theorem State.setCell_freeCtr (s : State) (c : CellNo) (x : Cell) : (s.setCell c x).freeCtr = s.freeCtr := rfl
@[simp] theorem State.setCell_stores (s : State) (c : CellNo) (x : Cell) : (s.setCell c x).stores = s.stores := rfl
@[simp] theorem State.setCell_cells (s : State) (c : CellNo) (x : Cell) : (s.setCell c x).cells = s.cells.set c x := rfl
@[simp] theorem State.setCell_sources (s : State) (c : CellNo) (x : Cell) : (s.setCell c x).sources = s.sources := rfl
@[simp] theorem State.setCell_link (s : State) (c : CellNo) (x : Cell) : (s.setCell c x).link = s.link := rfl
@[simp] theorem State.setCell_mc (s : State) (c : CellNo) (x : Cell) : (s.setCell c x).mc = s.mc := rfl
@[simp] theorem State.setCell_keeper (s : State) (c : CellNo) (x : Cell) : (s.setCell c x).keeper = s.keeper := rfl
@[simp] theorem State.setCell_swarm (s : State) (c : CellNo) (x : Cell) : (s.setCell c x).swarm = s.swarm := rfl
@[simp] theorem State.setCell_heads (s : State) (c : CellNo) (x : Cell) : (s.setCell c x).heads = s.heads := rfl
@[simp] theorem State.setCell_pwr (s : State) (c : CellNo) (x : Cell) : (s.setCell c x).pwr = s.pwr := rfl
@[simp] theorem State.setCell_conv (s : State) (c : CellNo) (x : Cell) : (s.setCell c x).conv = s.conv := rfl
@[simp] theorem State.setCell_memu (s : State) (c : CellNo) (x : Cell) : (s.setCell c x).memu = s.memu := rfl
@[simp] theorem State.setCell_pins (s : State) (c : CellNo) (x : Cell) : (s.setCell c x).pins = s.pins := rfl
@[simp] theorem State.setCell_banks (s : State) (c : CellNo) (x : Cell) : (s.setCell c x).banks = s.banks := rfl
@[simp] theorem State.setCell_tap (s : State) (c : CellNo) (x : Cell) : (s.setCell c x).tap = s.tap := rfl
@[simp] theorem State.setCell_dbgDev (s : State) (c : CellNo) (x : Cell) : (s.setCell c x).dbgDev = s.dbgDev := rfl
@[simp] theorem State.setCell_objs (s : State) (c : CellNo) (x : Cell) : (s.setCell c x).objs = s.objs := rfl
@[simp] theorem State.setCell_pending (s : State) (c : CellNo) (x : Cell) : (s.setCell c x).pending = s.pending := rfl

/-! ## modMc -/

@[simp] theorem State.modMc_part (s : State) (f : Mc → Mc) : (s.modMc f).part = s.part := rfl
@[simp] theorem State.modMc_devTime (s : State) (f : Mc → Mc) : (s.modMc f).devTime = s.devTime := rfl
@[simp] theorem State.modMc_house (s : State) (f : Mc → Mc) : (s.modMc f).house = s.house := rfl
@[simp] theorem State.modMc_combs (s : State) (f : Mc → Mc) : (s.modMc f).combs = s.combs := rfl
@[simp] theorem State.modMc_slots (s : State) (f : Mc → Mc) : (s.modMc f).slots = s.slots := rfl
@[simp] theorem State.modMc_audClk (s : State) (f : Mc → Mc) : (s.modMc f).audClk = s.audClk := rfl
@[simp] theorem State.modMc_ports (s : State) (f : Mc → Mc) : (s.modMc f).ports = s.ports := rfl
@[simp] theorem State.modMc_blitTurn (s : State) (f : Mc → Mc) : (s.modMc f).blitTurn = s.blitTurn := rfl
@[simp] theorem State.modMc_freeCtr (s : State) (f : Mc → Mc) : (s.modMc f).freeCtr = s.freeCtr := rfl
@[simp] theorem State.modMc_stores (s : State) (f : Mc → Mc) : (s.modMc f).stores = s.stores := rfl
@[simp] theorem State.modMc_cells (s : State) (f : Mc → Mc) : (s.modMc f).cells = s.cells := rfl
@[simp] theorem State.modMc_sources (s : State) (f : Mc → Mc) : (s.modMc f).sources = s.sources := rfl
@[simp] theorem State.modMc_link (s : State) (f : Mc → Mc) : (s.modMc f).link = s.link := rfl
@[simp] theorem State.modMc_mc (s : State) (f : Mc → Mc) : (s.modMc f).mc = f s.mc := rfl
@[simp] theorem State.modMc_keeper (s : State) (f : Mc → Mc) : (s.modMc f).keeper = s.keeper := rfl
@[simp] theorem State.modMc_swarm (s : State) (f : Mc → Mc) : (s.modMc f).swarm = s.swarm := rfl
@[simp] theorem State.modMc_heads (s : State) (f : Mc → Mc) : (s.modMc f).heads = s.heads := rfl
@[simp] theorem State.modMc_pwr (s : State) (f : Mc → Mc) : (s.modMc f).pwr = s.pwr := rfl
@[simp] theorem State.modMc_conv (s : State) (f : Mc → Mc) : (s.modMc f).conv = s.conv := rfl
@[simp] theorem State.modMc_memu (s : State) (f : Mc → Mc) : (s.modMc f).memu = s.memu := rfl
@[simp] theorem State.modMc_pins (s : State) (f : Mc → Mc) : (s.modMc f).pins = s.pins := rfl
@[simp] theorem State.modMc_banks (s : State) (f : Mc → Mc) : (s.modMc f).banks = s.banks := rfl
@[simp] theorem State.modMc_tap (s : State) (f : Mc → Mc) : (s.modMc f).tap = s.tap := rfl
@[simp] theorem State.modMc_dbgDev (s : State) (f : Mc → Mc) : (s.modMc f).dbgDev = s.dbgDev := rfl
@[simp] theorem State.modMc_objs (s : State) (f : Mc → Mc) : (s.modMc f).objs = s.objs := rfl
@[simp] theorem State.modMc_pending (s : State) (f : Mc → Mc) : (s.modMc f).pending = s.pending := rfl
@[simp] theorem State.modMc_cell (s : State) (f : Mc → Mc) (d : CellNo) : (s.modMc f).cell d = s.cell d := rfl

/-! ## modLink -/

@[simp] theorem State.modLink_part (s : State) (f : HostLink → HostLink) : (s.modLink f).part = s.part := rfl
@[simp] theorem State.modLink_devTime (s : State) (f : HostLink → HostLink) : (s.modLink f).devTime = s.devTime := rfl
@[simp] theorem State.modLink_house (s : State) (f : HostLink → HostLink) : (s.modLink f).house = s.house := rfl
@[simp] theorem State.modLink_combs (s : State) (f : HostLink → HostLink) : (s.modLink f).combs = s.combs := rfl
@[simp] theorem State.modLink_slots (s : State) (f : HostLink → HostLink) : (s.modLink f).slots = s.slots := rfl
@[simp] theorem State.modLink_audClk (s : State) (f : HostLink → HostLink) : (s.modLink f).audClk = s.audClk := rfl
@[simp] theorem State.modLink_ports (s : State) (f : HostLink → HostLink) : (s.modLink f).ports = s.ports := rfl
@[simp] theorem State.modLink_blitTurn (s : State) (f : HostLink → HostLink) : (s.modLink f).blitTurn = s.blitTurn := rfl
@[simp] theorem State.modLink_freeCtr (s : State) (f : HostLink → HostLink) : (s.modLink f).freeCtr = s.freeCtr := rfl
@[simp] theorem State.modLink_stores (s : State) (f : HostLink → HostLink) : (s.modLink f).stores = s.stores := rfl
@[simp] theorem State.modLink_cells (s : State) (f : HostLink → HostLink) : (s.modLink f).cells = s.cells := rfl
@[simp] theorem State.modLink_sources (s : State) (f : HostLink → HostLink) : (s.modLink f).sources = s.sources := rfl
@[simp] theorem State.modLink_link (s : State) (f : HostLink → HostLink) : (s.modLink f).link = f s.link := rfl
@[simp] theorem State.modLink_mc (s : State) (f : HostLink → HostLink) : (s.modLink f).mc = s.mc := rfl
@[simp] theorem State.modLink_keeper (s : State) (f : HostLink → HostLink) : (s.modLink f).keeper = s.keeper := rfl
@[simp] theorem State.modLink_swarm (s : State) (f : HostLink → HostLink) : (s.modLink f).swarm = s.swarm := rfl
@[simp] theorem State.modLink_heads (s : State) (f : HostLink → HostLink) : (s.modLink f).heads = s.heads := rfl
@[simp] theorem State.modLink_pwr (s : State) (f : HostLink → HostLink) : (s.modLink f).pwr = s.pwr := rfl
@[simp] theorem State.modLink_conv (s : State) (f : HostLink → HostLink) : (s.modLink f).conv = s.conv := rfl
@[simp] theorem State.modLink_memu (s : State) (f : HostLink → HostLink) : (s.modLink f).memu = s.memu := rfl
@[simp] theorem State.modLink_pins (s : State) (f : HostLink → HostLink) : (s.modLink f).pins = s.pins := rfl
@[simp] theorem State.modLink_banks (s : State) (f : HostLink → HostLink) : (s.modLink f).banks = s.banks := rfl
@[simp] theorem State.modLink_tap (s : State) (f : HostLink → HostLink) : (s.modLink f).tap = s.tap := rfl
@[simp] theorem State.modLink_dbgDev (s : State) (f : HostLink → HostLink) : (s.modLink f).dbgDev = s.dbgDev := rfl
@[simp] theorem State.modLink_objs (s : State) (f : HostLink → HostLink) : (s.modLink f).objs = s.objs := rfl
@[simp] theorem State.modLink_pending (s : State) (f : HostLink → HostLink) : (s.modLink f).pending = s.pending := rfl
@[simp] theorem State.modLink_cell (s : State) (f : HostLink → HostLink) (d : CellNo) : (s.modLink f).cell d = s.cell d := rfl

/-! ## modPwr -/

@[simp] theorem State.modPwr_part (s : State) (f : Pwr → Pwr) : (s.modPwr f).part = s.part := rfl
@[simp] theorem State.modPwr_devTime (s : State) (f : Pwr → Pwr) : (s.modPwr f).devTime = s.devTime := rfl
@[simp] theorem State.modPwr_house (s : State) (f : Pwr → Pwr) : (s.modPwr f).house = s.house := rfl
@[simp] theorem State.modPwr_combs (s : State) (f : Pwr → Pwr) : (s.modPwr f).combs = s.combs := rfl
@[simp] theorem State.modPwr_slots (s : State) (f : Pwr → Pwr) : (s.modPwr f).slots = s.slots := rfl
@[simp] theorem State.modPwr_audClk (s : State) (f : Pwr → Pwr) : (s.modPwr f).audClk = s.audClk := rfl
@[simp] theorem State.modPwr_ports (s : State) (f : Pwr → Pwr) : (s.modPwr f).ports = s.ports := rfl
@[simp] theorem State.modPwr_blitTurn (s : State) (f : Pwr → Pwr) : (s.modPwr f).blitTurn = s.blitTurn := rfl
@[simp] theorem State.modPwr_freeCtr (s : State) (f : Pwr → Pwr) : (s.modPwr f).freeCtr = s.freeCtr := rfl
@[simp] theorem State.modPwr_stores (s : State) (f : Pwr → Pwr) : (s.modPwr f).stores = s.stores := rfl
@[simp] theorem State.modPwr_cells (s : State) (f : Pwr → Pwr) : (s.modPwr f).cells = s.cells := rfl
@[simp] theorem State.modPwr_sources (s : State) (f : Pwr → Pwr) : (s.modPwr f).sources = s.sources := rfl
@[simp] theorem State.modPwr_link (s : State) (f : Pwr → Pwr) : (s.modPwr f).link = s.link := rfl
@[simp] theorem State.modPwr_mc (s : State) (f : Pwr → Pwr) : (s.modPwr f).mc = s.mc := rfl
@[simp] theorem State.modPwr_keeper (s : State) (f : Pwr → Pwr) : (s.modPwr f).keeper = s.keeper := rfl
@[simp] theorem State.modPwr_swarm (s : State) (f : Pwr → Pwr) : (s.modPwr f).swarm = s.swarm := rfl
@[simp] theorem State.modPwr_heads (s : State) (f : Pwr → Pwr) : (s.modPwr f).heads = s.heads := rfl
@[simp] theorem State.modPwr_pwr (s : State) (f : Pwr → Pwr) : (s.modPwr f).pwr = f s.pwr := rfl
@[simp] theorem State.modPwr_conv (s : State) (f : Pwr → Pwr) : (s.modPwr f).conv = s.conv := rfl
@[simp] theorem State.modPwr_memu (s : State) (f : Pwr → Pwr) : (s.modPwr f).memu = s.memu := rfl
@[simp] theorem State.modPwr_pins (s : State) (f : Pwr → Pwr) : (s.modPwr f).pins = s.pins := rfl
@[simp] theorem State.modPwr_banks (s : State) (f : Pwr → Pwr) : (s.modPwr f).banks = s.banks := rfl
@[simp] theorem State.modPwr_tap (s : State) (f : Pwr → Pwr) : (s.modPwr f).tap = s.tap := rfl
@[simp] theorem State.modPwr_dbgDev (s : State) (f : Pwr → Pwr) : (s.modPwr f).dbgDev = s.dbgDev := rfl
@[simp] theorem State.modPwr_objs (s : State) (f : Pwr → Pwr) : (s.modPwr f).objs = s.objs := rfl
@[simp] theorem State.modPwr_pending (s : State) (f : Pwr → Pwr) : (s.modPwr f).pending = s.pending := rfl
@[simp] theorem State.modPwr_cell (s : State) (f : Pwr → Pwr) (d : CellNo) : (s.modPwr f).cell d = s.cell d := rfl

/-! ## modSwarm -/

@[simp] theorem State.modSwarm_part (s : State) (f : Swarm → Swarm) : (s.modSwarm f).part = s.part := rfl
@[simp] theorem State.modSwarm_devTime (s : State) (f : Swarm → Swarm) : (s.modSwarm f).devTime = s.devTime := rfl
@[simp] theorem State.modSwarm_house (s : State) (f : Swarm → Swarm) : (s.modSwarm f).house = s.house := rfl
@[simp] theorem State.modSwarm_combs (s : State) (f : Swarm → Swarm) : (s.modSwarm f).combs = s.combs := rfl
@[simp] theorem State.modSwarm_slots (s : State) (f : Swarm → Swarm) : (s.modSwarm f).slots = s.slots := rfl
@[simp] theorem State.modSwarm_audClk (s : State) (f : Swarm → Swarm) : (s.modSwarm f).audClk = s.audClk := rfl
@[simp] theorem State.modSwarm_ports (s : State) (f : Swarm → Swarm) : (s.modSwarm f).ports = s.ports := rfl
@[simp] theorem State.modSwarm_blitTurn (s : State) (f : Swarm → Swarm) : (s.modSwarm f).blitTurn = s.blitTurn := rfl
@[simp] theorem State.modSwarm_freeCtr (s : State) (f : Swarm → Swarm) : (s.modSwarm f).freeCtr = s.freeCtr := rfl
@[simp] theorem State.modSwarm_stores (s : State) (f : Swarm → Swarm) : (s.modSwarm f).stores = s.stores := rfl
@[simp] theorem State.modSwarm_cells (s : State) (f : Swarm → Swarm) : (s.modSwarm f).cells = s.cells := rfl
@[simp] theorem State.modSwarm_sources (s : State) (f : Swarm → Swarm) : (s.modSwarm f).sources = s.sources := rfl
@[simp] theorem State.modSwarm_link (s : State) (f : Swarm → Swarm) : (s.modSwarm f).link = s.link := rfl
@[simp] theorem State.modSwarm_mc (s : State) (f : Swarm → Swarm) : (s.modSwarm f).mc = s.mc := rfl
@[simp] theorem State.modSwarm_keeper (s : State) (f : Swarm → Swarm) : (s.modSwarm f).keeper = s.keeper := rfl
@[simp] theorem State.modSwarm_swarm (s : State) (f : Swarm → Swarm) : (s.modSwarm f).swarm = f s.swarm := rfl
@[simp] theorem State.modSwarm_heads (s : State) (f : Swarm → Swarm) : (s.modSwarm f).heads = s.heads := rfl
@[simp] theorem State.modSwarm_pwr (s : State) (f : Swarm → Swarm) : (s.modSwarm f).pwr = s.pwr := rfl
@[simp] theorem State.modSwarm_conv (s : State) (f : Swarm → Swarm) : (s.modSwarm f).conv = s.conv := rfl
@[simp] theorem State.modSwarm_memu (s : State) (f : Swarm → Swarm) : (s.modSwarm f).memu = s.memu := rfl
@[simp] theorem State.modSwarm_pins (s : State) (f : Swarm → Swarm) : (s.modSwarm f).pins = s.pins := rfl
@[simp] theorem State.modSwarm_banks (s : State) (f : Swarm → Swarm) : (s.modSwarm f).banks = s.banks := rfl
@[simp] theorem State.modSwarm_tap (s : State) (f : Swarm → Swarm) : (s.modSwarm f).tap = s.tap := rfl
@[simp] theorem State.modSwarm_dbgDev (s : State) (f : Swarm → Swarm) : (s.modSwarm f).dbgDev = s.dbgDev := rfl
@[simp] theorem State.modSwarm_objs (s : State) (f : Swarm → Swarm) : (s.modSwarm f).objs = s.objs := rfl
@[simp] theorem State.modSwarm_pending (s : State) (f : Swarm → Swarm) : (s.modSwarm f).pending = s.pending := rfl
@[simp] theorem State.modSwarm_cell (s : State) (f : Swarm → Swarm) (d : CellNo) : (s.modSwarm f).cell d = s.cell d := rfl

/-! ## modLinkL -/

@[simp] theorem State.modLinkL_part (s : State) (l : Fin 7) (f : Link → Link) : (s.modLinkL l f).part = s.part := rfl
@[simp] theorem State.modLinkL_devTime (s : State) (l : Fin 7) (f : Link → Link) : (s.modLinkL l f).devTime = s.devTime := rfl
@[simp] theorem State.modLinkL_house (s : State) (l : Fin 7) (f : Link → Link) : (s.modLinkL l f).house = s.house := rfl
@[simp] theorem State.modLinkL_combs (s : State) (l : Fin 7) (f : Link → Link) : (s.modLinkL l f).combs = s.combs := rfl
@[simp] theorem State.modLinkL_slots (s : State) (l : Fin 7) (f : Link → Link) : (s.modLinkL l f).slots = s.slots := rfl
@[simp] theorem State.modLinkL_audClk (s : State) (l : Fin 7) (f : Link → Link) : (s.modLinkL l f).audClk = s.audClk := rfl
@[simp] theorem State.modLinkL_ports (s : State) (l : Fin 7) (f : Link → Link) : (s.modLinkL l f).ports = s.ports := rfl
@[simp] theorem State.modLinkL_blitTurn (s : State) (l : Fin 7) (f : Link → Link) : (s.modLinkL l f).blitTurn = s.blitTurn := rfl
@[simp] theorem State.modLinkL_freeCtr (s : State) (l : Fin 7) (f : Link → Link) : (s.modLinkL l f).freeCtr = s.freeCtr := rfl
@[simp] theorem State.modLinkL_stores (s : State) (l : Fin 7) (f : Link → Link) : (s.modLinkL l f).stores = s.stores := rfl
@[simp] theorem State.modLinkL_cells (s : State) (l : Fin 7) (f : Link → Link) : (s.modLinkL l f).cells = s.cells := rfl
@[simp] theorem State.modLinkL_sources (s : State) (l : Fin 7) (f : Link → Link) : (s.modLinkL l f).sources = s.sources := rfl
@[simp] theorem State.modLinkL_link (s : State) (l : Fin 7) (f : Link → Link) : (s.modLinkL l f).link = s.link := rfl
@[simp] theorem State.modLinkL_mc (s : State) (l : Fin 7) (f : Link → Link) : (s.modLinkL l f).mc = s.mc := rfl
@[simp] theorem State.modLinkL_keeper (s : State) (l : Fin 7) (f : Link → Link) : (s.modLinkL l f).keeper = s.keeper := rfl
@[simp] theorem State.modLinkL_swarm (s : State) (l : Fin 7) (f : Link → Link) : (s.modLinkL l f).swarm = { s.swarm with links := s.swarm.links.set l (f (s.swarm.links.get l)) } := rfl
@[simp] theorem State.modLinkL_heads (s : State) (l : Fin 7) (f : Link → Link) : (s.modLinkL l f).heads = s.heads := rfl
@[simp] theorem State.modLinkL_pwr (s : State) (l : Fin 7) (f : Link → Link) : (s.modLinkL l f).pwr = s.pwr := rfl
@[simp] theorem State.modLinkL_conv (s : State) (l : Fin 7) (f : Link → Link) : (s.modLinkL l f).conv = s.conv := rfl
@[simp] theorem State.modLinkL_memu (s : State) (l : Fin 7) (f : Link → Link) : (s.modLinkL l f).memu = s.memu := rfl
@[simp] theorem State.modLinkL_pins (s : State) (l : Fin 7) (f : Link → Link) : (s.modLinkL l f).pins = s.pins := rfl
@[simp] theorem State.modLinkL_banks (s : State) (l : Fin 7) (f : Link → Link) : (s.modLinkL l f).banks = s.banks := rfl
@[simp] theorem State.modLinkL_tap (s : State) (l : Fin 7) (f : Link → Link) : (s.modLinkL l f).tap = s.tap := rfl
@[simp] theorem State.modLinkL_dbgDev (s : State) (l : Fin 7) (f : Link → Link) : (s.modLinkL l f).dbgDev = s.dbgDev := rfl
@[simp] theorem State.modLinkL_objs (s : State) (l : Fin 7) (f : Link → Link) : (s.modLinkL l f).objs = s.objs := rfl
@[simp] theorem State.modLinkL_pending (s : State) (l : Fin 7) (f : Link → Link) : (s.modLinkL l f).pending = s.pending := rfl
@[simp] theorem State.modLinkL_cell (s : State) (l : Fin 7) (f : Link → Link) (d : CellNo) : (s.modLinkL l f).cell d = s.cell d := rfl

/-! ## modKeeper -/

@[simp] theorem State.modKeeper_part (s : State) (f : Keeper → Keeper) : (s.modKeeper f).part = s.part := rfl
@[simp] theorem State.modKeeper_devTime (s : State) (f : Keeper → Keeper) : (s.modKeeper f).devTime = s.devTime := rfl
@[simp] theorem State.modKeeper_house (s : State) (f : Keeper → Keeper) : (s.modKeeper f).house = s.house := rfl
@[simp] theorem State.modKeeper_combs (s : State) (f : Keeper → Keeper) : (s.modKeeper f).combs = s.combs := rfl
@[simp] theorem State.modKeeper_slots (s : State) (f : Keeper → Keeper) : (s.modKeeper f).slots = s.slots := rfl
@[simp] theorem State.modKeeper_audClk (s : State) (f : Keeper → Keeper) : (s.modKeeper f).audClk = s.audClk := rfl
@[simp] theorem State.modKeeper_ports (s : State) (f : Keeper → Keeper) : (s.modKeeper f).ports = s.ports := rfl
@[simp] theorem State.modKeeper_blitTurn (s : State) (f : Keeper → Keeper) : (s.modKeeper f).blitTurn = s.blitTurn := rfl
@[simp] theorem State.modKeeper_freeCtr (s : State) (f : Keeper → Keeper) : (s.modKeeper f).freeCtr = s.freeCtr := rfl
@[simp] theorem State.modKeeper_stores (s : State) (f : Keeper → Keeper) : (s.modKeeper f).stores = s.stores := rfl
@[simp] theorem State.modKeeper_cells (s : State) (f : Keeper → Keeper) : (s.modKeeper f).cells = s.cells := rfl
@[simp] theorem State.modKeeper_sources (s : State) (f : Keeper → Keeper) : (s.modKeeper f).sources = s.sources := rfl
@[simp] theorem State.modKeeper_link (s : State) (f : Keeper → Keeper) : (s.modKeeper f).link = s.link := rfl
@[simp] theorem State.modKeeper_mc (s : State) (f : Keeper → Keeper) : (s.modKeeper f).mc = s.mc := rfl
@[simp] theorem State.modKeeper_keeper (s : State) (f : Keeper → Keeper) : (s.modKeeper f).keeper = f s.keeper := rfl
@[simp] theorem State.modKeeper_swarm (s : State) (f : Keeper → Keeper) : (s.modKeeper f).swarm = s.swarm := rfl
@[simp] theorem State.modKeeper_heads (s : State) (f : Keeper → Keeper) : (s.modKeeper f).heads = s.heads := rfl
@[simp] theorem State.modKeeper_pwr (s : State) (f : Keeper → Keeper) : (s.modKeeper f).pwr = s.pwr := rfl
@[simp] theorem State.modKeeper_conv (s : State) (f : Keeper → Keeper) : (s.modKeeper f).conv = s.conv := rfl
@[simp] theorem State.modKeeper_memu (s : State) (f : Keeper → Keeper) : (s.modKeeper f).memu = s.memu := rfl
@[simp] theorem State.modKeeper_pins (s : State) (f : Keeper → Keeper) : (s.modKeeper f).pins = s.pins := rfl
@[simp] theorem State.modKeeper_banks (s : State) (f : Keeper → Keeper) : (s.modKeeper f).banks = s.banks := rfl
@[simp] theorem State.modKeeper_tap (s : State) (f : Keeper → Keeper) : (s.modKeeper f).tap = s.tap := rfl
@[simp] theorem State.modKeeper_dbgDev (s : State) (f : Keeper → Keeper) : (s.modKeeper f).dbgDev = s.dbgDev := rfl
@[simp] theorem State.modKeeper_objs (s : State) (f : Keeper → Keeper) : (s.modKeeper f).objs = s.objs := rfl
@[simp] theorem State.modKeeper_pending (s : State) (f : Keeper → Keeper) : (s.modKeeper f).pending = s.pending := rfl
@[simp] theorem State.modKeeper_cell (s : State) (f : Keeper → Keeper) (d : CellNo) : (s.modKeeper f).cell d = s.cell d := rfl

/-! ## modHouse -/

@[simp] theorem State.modHouse_part (s : State) (f : HouseBeam → HouseBeam) : (s.modHouse f).part = s.part := rfl
@[simp] theorem State.modHouse_devTime (s : State) (f : HouseBeam → HouseBeam) : (s.modHouse f).devTime = s.devTime := rfl
@[simp] theorem State.modHouse_house (s : State) (f : HouseBeam → HouseBeam) : (s.modHouse f).house = f s.house := rfl
@[simp] theorem State.modHouse_combs (s : State) (f : HouseBeam → HouseBeam) : (s.modHouse f).combs = s.combs := rfl
@[simp] theorem State.modHouse_slots (s : State) (f : HouseBeam → HouseBeam) : (s.modHouse f).slots = s.slots := rfl
@[simp] theorem State.modHouse_audClk (s : State) (f : HouseBeam → HouseBeam) : (s.modHouse f).audClk = s.audClk := rfl
@[simp] theorem State.modHouse_ports (s : State) (f : HouseBeam → HouseBeam) : (s.modHouse f).ports = s.ports := rfl
@[simp] theorem State.modHouse_blitTurn (s : State) (f : HouseBeam → HouseBeam) : (s.modHouse f).blitTurn = s.blitTurn := rfl
@[simp] theorem State.modHouse_freeCtr (s : State) (f : HouseBeam → HouseBeam) : (s.modHouse f).freeCtr = s.freeCtr := rfl
@[simp] theorem State.modHouse_stores (s : State) (f : HouseBeam → HouseBeam) : (s.modHouse f).stores = s.stores := rfl
@[simp] theorem State.modHouse_cells (s : State) (f : HouseBeam → HouseBeam) : (s.modHouse f).cells = s.cells := rfl
@[simp] theorem State.modHouse_sources (s : State) (f : HouseBeam → HouseBeam) : (s.modHouse f).sources = s.sources := rfl
@[simp] theorem State.modHouse_link (s : State) (f : HouseBeam → HouseBeam) : (s.modHouse f).link = s.link := rfl
@[simp] theorem State.modHouse_mc (s : State) (f : HouseBeam → HouseBeam) : (s.modHouse f).mc = s.mc := rfl
@[simp] theorem State.modHouse_keeper (s : State) (f : HouseBeam → HouseBeam) : (s.modHouse f).keeper = s.keeper := rfl
@[simp] theorem State.modHouse_swarm (s : State) (f : HouseBeam → HouseBeam) : (s.modHouse f).swarm = s.swarm := rfl
@[simp] theorem State.modHouse_heads (s : State) (f : HouseBeam → HouseBeam) : (s.modHouse f).heads = s.heads := rfl
@[simp] theorem State.modHouse_pwr (s : State) (f : HouseBeam → HouseBeam) : (s.modHouse f).pwr = s.pwr := rfl
@[simp] theorem State.modHouse_conv (s : State) (f : HouseBeam → HouseBeam) : (s.modHouse f).conv = s.conv := rfl
@[simp] theorem State.modHouse_memu (s : State) (f : HouseBeam → HouseBeam) : (s.modHouse f).memu = s.memu := rfl
@[simp] theorem State.modHouse_pins (s : State) (f : HouseBeam → HouseBeam) : (s.modHouse f).pins = s.pins := rfl
@[simp] theorem State.modHouse_banks (s : State) (f : HouseBeam → HouseBeam) : (s.modHouse f).banks = s.banks := rfl
@[simp] theorem State.modHouse_tap (s : State) (f : HouseBeam → HouseBeam) : (s.modHouse f).tap = s.tap := rfl
@[simp] theorem State.modHouse_dbgDev (s : State) (f : HouseBeam → HouseBeam) : (s.modHouse f).dbgDev = s.dbgDev := rfl
@[simp] theorem State.modHouse_objs (s : State) (f : HouseBeam → HouseBeam) : (s.modHouse f).objs = s.objs := rfl
@[simp] theorem State.modHouse_pending (s : State) (f : HouseBeam → HouseBeam) : (s.modHouse f).pending = s.pending := rfl
@[simp] theorem State.modHouse_cell (s : State) (f : HouseBeam → HouseBeam) (d : CellNo) : (s.modHouse f).cell d = s.cell d := rfl

/-! ## modComb -/

@[simp] theorem State.modComb_part (s : State) (k : Fin 24) (f : Comb → Comb) : (s.modComb k f).part = s.part := rfl
@[simp] theorem State.modComb_devTime (s : State) (k : Fin 24) (f : Comb → Comb) : (s.modComb k f).devTime = s.devTime := rfl
@[simp] theorem State.modComb_house (s : State) (k : Fin 24) (f : Comb → Comb) : (s.modComb k f).house = s.house := rfl
@[simp] theorem State.modComb_combs (s : State) (k : Fin 24) (f : Comb → Comb) : (s.modComb k f).combs = s.combs.set k (f (s.combs.get k)) := rfl
@[simp] theorem State.modComb_slots (s : State) (k : Fin 24) (f : Comb → Comb) : (s.modComb k f).slots = s.slots := rfl
@[simp] theorem State.modComb_audClk (s : State) (k : Fin 24) (f : Comb → Comb) : (s.modComb k f).audClk = s.audClk := rfl
@[simp] theorem State.modComb_ports (s : State) (k : Fin 24) (f : Comb → Comb) : (s.modComb k f).ports = s.ports := rfl
@[simp] theorem State.modComb_blitTurn (s : State) (k : Fin 24) (f : Comb → Comb) : (s.modComb k f).blitTurn = s.blitTurn := rfl
@[simp] theorem State.modComb_freeCtr (s : State) (k : Fin 24) (f : Comb → Comb) : (s.modComb k f).freeCtr = s.freeCtr := rfl
@[simp] theorem State.modComb_stores (s : State) (k : Fin 24) (f : Comb → Comb) : (s.modComb k f).stores = s.stores := rfl
@[simp] theorem State.modComb_cells (s : State) (k : Fin 24) (f : Comb → Comb) : (s.modComb k f).cells = s.cells := rfl
@[simp] theorem State.modComb_sources (s : State) (k : Fin 24) (f : Comb → Comb) : (s.modComb k f).sources = s.sources := rfl
@[simp] theorem State.modComb_link (s : State) (k : Fin 24) (f : Comb → Comb) : (s.modComb k f).link = s.link := rfl
@[simp] theorem State.modComb_mc (s : State) (k : Fin 24) (f : Comb → Comb) : (s.modComb k f).mc = s.mc := rfl
@[simp] theorem State.modComb_keeper (s : State) (k : Fin 24) (f : Comb → Comb) : (s.modComb k f).keeper = s.keeper := rfl
@[simp] theorem State.modComb_swarm (s : State) (k : Fin 24) (f : Comb → Comb) : (s.modComb k f).swarm = s.swarm := rfl
@[simp] theorem State.modComb_heads (s : State) (k : Fin 24) (f : Comb → Comb) : (s.modComb k f).heads = s.heads := rfl
@[simp] theorem State.modComb_pwr (s : State) (k : Fin 24) (f : Comb → Comb) : (s.modComb k f).pwr = s.pwr := rfl
@[simp] theorem State.modComb_conv (s : State) (k : Fin 24) (f : Comb → Comb) : (s.modComb k f).conv = s.conv := rfl
@[simp] theorem State.modComb_memu (s : State) (k : Fin 24) (f : Comb → Comb) : (s.modComb k f).memu = s.memu := rfl
@[simp] theorem State.modComb_pins (s : State) (k : Fin 24) (f : Comb → Comb) : (s.modComb k f).pins = s.pins := rfl
@[simp] theorem State.modComb_banks (s : State) (k : Fin 24) (f : Comb → Comb) : (s.modComb k f).banks = s.banks := rfl
@[simp] theorem State.modComb_tap (s : State) (k : Fin 24) (f : Comb → Comb) : (s.modComb k f).tap = s.tap := rfl
@[simp] theorem State.modComb_dbgDev (s : State) (k : Fin 24) (f : Comb → Comb) : (s.modComb k f).dbgDev = s.dbgDev := rfl
@[simp] theorem State.modComb_objs (s : State) (k : Fin 24) (f : Comb → Comb) : (s.modComb k f).objs = s.objs := rfl
@[simp] theorem State.modComb_pending (s : State) (k : Fin 24) (f : Comb → Comb) : (s.modComb k f).pending = s.pending := rfl
@[simp] theorem State.modComb_cell (s : State) (k : Fin 24) (f : Comb → Comb) (d : CellNo) : (s.modComb k f).cell d = s.cell d := rfl

/-! ## modHead -/

@[simp] theorem State.modHead_part (s : State) (h : Fin 4) (f : Head → Head) : (s.modHead h f).part = s.part := rfl
@[simp] theorem State.modHead_devTime (s : State) (h : Fin 4) (f : Head → Head) : (s.modHead h f).devTime = s.devTime := rfl
@[simp] theorem State.modHead_house (s : State) (h : Fin 4) (f : Head → Head) : (s.modHead h f).house = s.house := rfl
@[simp] theorem State.modHead_combs (s : State) (h : Fin 4) (f : Head → Head) : (s.modHead h f).combs = s.combs := rfl
@[simp] theorem State.modHead_slots (s : State) (h : Fin 4) (f : Head → Head) : (s.modHead h f).slots = s.slots := rfl
@[simp] theorem State.modHead_audClk (s : State) (h : Fin 4) (f : Head → Head) : (s.modHead h f).audClk = s.audClk := rfl
@[simp] theorem State.modHead_ports (s : State) (h : Fin 4) (f : Head → Head) : (s.modHead h f).ports = s.ports := rfl
@[simp] theorem State.modHead_blitTurn (s : State) (h : Fin 4) (f : Head → Head) : (s.modHead h f).blitTurn = s.blitTurn := rfl
@[simp] theorem State.modHead_freeCtr (s : State) (h : Fin 4) (f : Head → Head) : (s.modHead h f).freeCtr = s.freeCtr := rfl
@[simp] theorem State.modHead_stores (s : State) (h : Fin 4) (f : Head → Head) : (s.modHead h f).stores = s.stores := rfl
@[simp] theorem State.modHead_cells (s : State) (h : Fin 4) (f : Head → Head) : (s.modHead h f).cells = s.cells := rfl
@[simp] theorem State.modHead_sources (s : State) (h : Fin 4) (f : Head → Head) : (s.modHead h f).sources = s.sources := rfl
@[simp] theorem State.modHead_link (s : State) (h : Fin 4) (f : Head → Head) : (s.modHead h f).link = s.link := rfl
@[simp] theorem State.modHead_mc (s : State) (h : Fin 4) (f : Head → Head) : (s.modHead h f).mc = s.mc := rfl
@[simp] theorem State.modHead_keeper (s : State) (h : Fin 4) (f : Head → Head) : (s.modHead h f).keeper = s.keeper := rfl
@[simp] theorem State.modHead_swarm (s : State) (h : Fin 4) (f : Head → Head) : (s.modHead h f).swarm = s.swarm := rfl
@[simp] theorem State.modHead_heads (s : State) (h : Fin 4) (f : Head → Head) : (s.modHead h f).heads = s.heads.set h (f (s.heads.get h)) := rfl
@[simp] theorem State.modHead_pwr (s : State) (h : Fin 4) (f : Head → Head) : (s.modHead h f).pwr = s.pwr := rfl
@[simp] theorem State.modHead_conv (s : State) (h : Fin 4) (f : Head → Head) : (s.modHead h f).conv = s.conv := rfl
@[simp] theorem State.modHead_memu (s : State) (h : Fin 4) (f : Head → Head) : (s.modHead h f).memu = s.memu := rfl
@[simp] theorem State.modHead_pins (s : State) (h : Fin 4) (f : Head → Head) : (s.modHead h f).pins = s.pins := rfl
@[simp] theorem State.modHead_banks (s : State) (h : Fin 4) (f : Head → Head) : (s.modHead h f).banks = s.banks := rfl
@[simp] theorem State.modHead_tap (s : State) (h : Fin 4) (f : Head → Head) : (s.modHead h f).tap = s.tap := rfl
@[simp] theorem State.modHead_dbgDev (s : State) (h : Fin 4) (f : Head → Head) : (s.modHead h f).dbgDev = s.dbgDev := rfl
@[simp] theorem State.modHead_objs (s : State) (h : Fin 4) (f : Head → Head) : (s.modHead h f).objs = s.objs := rfl
@[simp] theorem State.modHead_pending (s : State) (h : Fin 4) (f : Head → Head) : (s.modHead h f).pending = s.pending := rfl
@[simp] theorem State.modHead_cell (s : State) (h : Fin 4) (f : Head → Head) (d : CellNo) : (s.modHead h f).cell d = s.cell d := rfl

/-! ## modPort -/

@[simp] theorem State.modPort_part (s : State) (n : Fin 4) (f : HsPort → HsPort) : (s.modPort n f).part = s.part := rfl
@[simp] theorem State.modPort_devTime (s : State) (n : Fin 4) (f : HsPort → HsPort) : (s.modPort n f).devTime = s.devTime := rfl
@[simp] theorem State.modPort_house (s : State) (n : Fin 4) (f : HsPort → HsPort) : (s.modPort n f).house = s.house := rfl
@[simp] theorem State.modPort_combs (s : State) (n : Fin 4) (f : HsPort → HsPort) : (s.modPort n f).combs = s.combs := rfl
@[simp] theorem State.modPort_slots (s : State) (n : Fin 4) (f : HsPort → HsPort) : (s.modPort n f).slots = s.slots := rfl
@[simp] theorem State.modPort_audClk (s : State) (n : Fin 4) (f : HsPort → HsPort) : (s.modPort n f).audClk = s.audClk := rfl
@[simp] theorem State.modPort_ports (s : State) (n : Fin 4) (f : HsPort → HsPort) : (s.modPort n f).ports = s.ports.set n (f (s.ports.get n)) := rfl
@[simp] theorem State.modPort_blitTurn (s : State) (n : Fin 4) (f : HsPort → HsPort) : (s.modPort n f).blitTurn = s.blitTurn := rfl
@[simp] theorem State.modPort_freeCtr (s : State) (n : Fin 4) (f : HsPort → HsPort) : (s.modPort n f).freeCtr = s.freeCtr := rfl
@[simp] theorem State.modPort_stores (s : State) (n : Fin 4) (f : HsPort → HsPort) : (s.modPort n f).stores = s.stores := rfl
@[simp] theorem State.modPort_cells (s : State) (n : Fin 4) (f : HsPort → HsPort) : (s.modPort n f).cells = s.cells := rfl
@[simp] theorem State.modPort_sources (s : State) (n : Fin 4) (f : HsPort → HsPort) : (s.modPort n f).sources = s.sources := rfl
@[simp] theorem State.modPort_link (s : State) (n : Fin 4) (f : HsPort → HsPort) : (s.modPort n f).link = s.link := rfl
@[simp] theorem State.modPort_mc (s : State) (n : Fin 4) (f : HsPort → HsPort) : (s.modPort n f).mc = s.mc := rfl
@[simp] theorem State.modPort_keeper (s : State) (n : Fin 4) (f : HsPort → HsPort) : (s.modPort n f).keeper = s.keeper := rfl
@[simp] theorem State.modPort_swarm (s : State) (n : Fin 4) (f : HsPort → HsPort) : (s.modPort n f).swarm = s.swarm := rfl
@[simp] theorem State.modPort_heads (s : State) (n : Fin 4) (f : HsPort → HsPort) : (s.modPort n f).heads = s.heads := rfl
@[simp] theorem State.modPort_pwr (s : State) (n : Fin 4) (f : HsPort → HsPort) : (s.modPort n f).pwr = s.pwr := rfl
@[simp] theorem State.modPort_conv (s : State) (n : Fin 4) (f : HsPort → HsPort) : (s.modPort n f).conv = s.conv := rfl
@[simp] theorem State.modPort_memu (s : State) (n : Fin 4) (f : HsPort → HsPort) : (s.modPort n f).memu = s.memu := rfl
@[simp] theorem State.modPort_pins (s : State) (n : Fin 4) (f : HsPort → HsPort) : (s.modPort n f).pins = s.pins := rfl
@[simp] theorem State.modPort_banks (s : State) (n : Fin 4) (f : HsPort → HsPort) : (s.modPort n f).banks = s.banks := rfl
@[simp] theorem State.modPort_tap (s : State) (n : Fin 4) (f : HsPort → HsPort) : (s.modPort n f).tap = s.tap := rfl
@[simp] theorem State.modPort_dbgDev (s : State) (n : Fin 4) (f : HsPort → HsPort) : (s.modPort n f).dbgDev = s.dbgDev := rfl
@[simp] theorem State.modPort_objs (s : State) (n : Fin 4) (f : HsPort → HsPort) : (s.modPort n f).objs = s.objs := rfl
@[simp] theorem State.modPort_pending (s : State) (n : Fin 4) (f : HsPort → HsPort) : (s.modPort n f).pending = s.pending := rfl
@[simp] theorem State.modPort_cell (s : State) (n : Fin 4) (f : HsPort → HsPort) (d : CellNo) : (s.modPort n f).cell d = s.cell d := rfl

/-! ## modPin -/

@[simp] theorem State.modPin_part (s : State) (p : Fin 128) (f : Pin → Pin) : (s.modPin p f).part = s.part := rfl
@[simp] theorem State.modPin_devTime (s : State) (p : Fin 128) (f : Pin → Pin) : (s.modPin p f).devTime = s.devTime := rfl
@[simp] theorem State.modPin_house (s : State) (p : Fin 128) (f : Pin → Pin) : (s.modPin p f).house = s.house := rfl
@[simp] theorem State.modPin_combs (s : State) (p : Fin 128) (f : Pin → Pin) : (s.modPin p f).combs = s.combs := rfl
@[simp] theorem State.modPin_slots (s : State) (p : Fin 128) (f : Pin → Pin) : (s.modPin p f).slots = s.slots := rfl
@[simp] theorem State.modPin_audClk (s : State) (p : Fin 128) (f : Pin → Pin) : (s.modPin p f).audClk = s.audClk := rfl
@[simp] theorem State.modPin_ports (s : State) (p : Fin 128) (f : Pin → Pin) : (s.modPin p f).ports = s.ports := rfl
@[simp] theorem State.modPin_blitTurn (s : State) (p : Fin 128) (f : Pin → Pin) : (s.modPin p f).blitTurn = s.blitTurn := rfl
@[simp] theorem State.modPin_freeCtr (s : State) (p : Fin 128) (f : Pin → Pin) : (s.modPin p f).freeCtr = s.freeCtr := rfl
@[simp] theorem State.modPin_stores (s : State) (p : Fin 128) (f : Pin → Pin) : (s.modPin p f).stores = s.stores := rfl
@[simp] theorem State.modPin_cells (s : State) (p : Fin 128) (f : Pin → Pin) : (s.modPin p f).cells = s.cells := rfl
@[simp] theorem State.modPin_sources (s : State) (p : Fin 128) (f : Pin → Pin) : (s.modPin p f).sources = s.sources := rfl
@[simp] theorem State.modPin_link (s : State) (p : Fin 128) (f : Pin → Pin) : (s.modPin p f).link = s.link := rfl
@[simp] theorem State.modPin_mc (s : State) (p : Fin 128) (f : Pin → Pin) : (s.modPin p f).mc = s.mc := rfl
@[simp] theorem State.modPin_keeper (s : State) (p : Fin 128) (f : Pin → Pin) : (s.modPin p f).keeper = s.keeper := rfl
@[simp] theorem State.modPin_swarm (s : State) (p : Fin 128) (f : Pin → Pin) : (s.modPin p f).swarm = s.swarm := rfl
@[simp] theorem State.modPin_heads (s : State) (p : Fin 128) (f : Pin → Pin) : (s.modPin p f).heads = s.heads := rfl
@[simp] theorem State.modPin_pwr (s : State) (p : Fin 128) (f : Pin → Pin) : (s.modPin p f).pwr = s.pwr := rfl
@[simp] theorem State.modPin_conv (s : State) (p : Fin 128) (f : Pin → Pin) : (s.modPin p f).conv = s.conv := rfl
@[simp] theorem State.modPin_memu (s : State) (p : Fin 128) (f : Pin → Pin) : (s.modPin p f).memu = s.memu := rfl
@[simp] theorem State.modPin_pins (s : State) (p : Fin 128) (f : Pin → Pin) : (s.modPin p f).pins = s.pins.set p (f (s.pins.get p)) := rfl
@[simp] theorem State.modPin_banks (s : State) (p : Fin 128) (f : Pin → Pin) : (s.modPin p f).banks = s.banks := rfl
@[simp] theorem State.modPin_tap (s : State) (p : Fin 128) (f : Pin → Pin) : (s.modPin p f).tap = s.tap := rfl
@[simp] theorem State.modPin_dbgDev (s : State) (p : Fin 128) (f : Pin → Pin) : (s.modPin p f).dbgDev = s.dbgDev := rfl
@[simp] theorem State.modPin_objs (s : State) (p : Fin 128) (f : Pin → Pin) : (s.modPin p f).objs = s.objs := rfl
@[simp] theorem State.modPin_pending (s : State) (p : Fin 128) (f : Pin → Pin) : (s.modPin p f).pending = s.pending := rfl
@[simp] theorem State.modPin_cell (s : State) (p : Fin 128) (f : Pin → Pin) (d : CellNo) : (s.modPin p f).cell d = s.cell d := rfl

/-! ## modSource -/

@[simp] theorem State.modSource_part (s : State) (n : Fin 153) (f : SharedSrc → SharedSrc) : (s.modSource n f).part = s.part := rfl
@[simp] theorem State.modSource_devTime (s : State) (n : Fin 153) (f : SharedSrc → SharedSrc) : (s.modSource n f).devTime = s.devTime := rfl
@[simp] theorem State.modSource_house (s : State) (n : Fin 153) (f : SharedSrc → SharedSrc) : (s.modSource n f).house = s.house := rfl
@[simp] theorem State.modSource_combs (s : State) (n : Fin 153) (f : SharedSrc → SharedSrc) : (s.modSource n f).combs = s.combs := rfl
@[simp] theorem State.modSource_slots (s : State) (n : Fin 153) (f : SharedSrc → SharedSrc) : (s.modSource n f).slots = s.slots := rfl
@[simp] theorem State.modSource_audClk (s : State) (n : Fin 153) (f : SharedSrc → SharedSrc) : (s.modSource n f).audClk = s.audClk := rfl
@[simp] theorem State.modSource_ports (s : State) (n : Fin 153) (f : SharedSrc → SharedSrc) : (s.modSource n f).ports = s.ports := rfl
@[simp] theorem State.modSource_blitTurn (s : State) (n : Fin 153) (f : SharedSrc → SharedSrc) : (s.modSource n f).blitTurn = s.blitTurn := rfl
@[simp] theorem State.modSource_freeCtr (s : State) (n : Fin 153) (f : SharedSrc → SharedSrc) : (s.modSource n f).freeCtr = s.freeCtr := rfl
@[simp] theorem State.modSource_stores (s : State) (n : Fin 153) (f : SharedSrc → SharedSrc) : (s.modSource n f).stores = s.stores := rfl
@[simp] theorem State.modSource_cells (s : State) (n : Fin 153) (f : SharedSrc → SharedSrc) : (s.modSource n f).cells = s.cells := rfl
@[simp] theorem State.modSource_sources (s : State) (n : Fin 153) (f : SharedSrc → SharedSrc) : (s.modSource n f).sources = s.sources.set n (f (s.sources.get n)) := rfl
@[simp] theorem State.modSource_link (s : State) (n : Fin 153) (f : SharedSrc → SharedSrc) : (s.modSource n f).link = s.link := rfl
@[simp] theorem State.modSource_mc (s : State) (n : Fin 153) (f : SharedSrc → SharedSrc) : (s.modSource n f).mc = s.mc := rfl
@[simp] theorem State.modSource_keeper (s : State) (n : Fin 153) (f : SharedSrc → SharedSrc) : (s.modSource n f).keeper = s.keeper := rfl
@[simp] theorem State.modSource_swarm (s : State) (n : Fin 153) (f : SharedSrc → SharedSrc) : (s.modSource n f).swarm = s.swarm := rfl
@[simp] theorem State.modSource_heads (s : State) (n : Fin 153) (f : SharedSrc → SharedSrc) : (s.modSource n f).heads = s.heads := rfl
@[simp] theorem State.modSource_pwr (s : State) (n : Fin 153) (f : SharedSrc → SharedSrc) : (s.modSource n f).pwr = s.pwr := rfl
@[simp] theorem State.modSource_conv (s : State) (n : Fin 153) (f : SharedSrc → SharedSrc) : (s.modSource n f).conv = s.conv := rfl
@[simp] theorem State.modSource_memu (s : State) (n : Fin 153) (f : SharedSrc → SharedSrc) : (s.modSource n f).memu = s.memu := rfl
@[simp] theorem State.modSource_pins (s : State) (n : Fin 153) (f : SharedSrc → SharedSrc) : (s.modSource n f).pins = s.pins := rfl
@[simp] theorem State.modSource_banks (s : State) (n : Fin 153) (f : SharedSrc → SharedSrc) : (s.modSource n f).banks = s.banks := rfl
@[simp] theorem State.modSource_tap (s : State) (n : Fin 153) (f : SharedSrc → SharedSrc) : (s.modSource n f).tap = s.tap := rfl
@[simp] theorem State.modSource_dbgDev (s : State) (n : Fin 153) (f : SharedSrc → SharedSrc) : (s.modSource n f).dbgDev = s.dbgDev := rfl
@[simp] theorem State.modSource_objs (s : State) (n : Fin 153) (f : SharedSrc → SharedSrc) : (s.modSource n f).objs = s.objs := rfl
@[simp] theorem State.modSource_pending (s : State) (n : Fin 153) (f : SharedSrc → SharedSrc) : (s.modSource n f).pending = s.pending := rfl
@[simp] theorem State.modSource_cell (s : State) (n : Fin 153) (f : SharedSrc → SharedSrc) (d : CellNo) : (s.modSource n f).cell d = s.cell d := rfl

/-! ## modChan -/

@[simp] theorem State.modChan_part (s : State) (c : Fin 8) (f : Rl → Rl) : (s.modChan c f).part = s.part := rfl
@[simp] theorem State.modChan_devTime (s : State) (c : Fin 8) (f : Rl → Rl) : (s.modChan c f).devTime = s.devTime := rfl
@[simp] theorem State.modChan_house (s : State) (c : Fin 8) (f : Rl → Rl) : (s.modChan c f).house = s.house := rfl
@[simp] theorem State.modChan_combs (s : State) (c : Fin 8) (f : Rl → Rl) : (s.modChan c f).combs = s.combs := rfl
@[simp] theorem State.modChan_slots (s : State) (c : Fin 8) (f : Rl → Rl) : (s.modChan c f).slots = s.slots := rfl
@[simp] theorem State.modChan_audClk (s : State) (c : Fin 8) (f : Rl → Rl) : (s.modChan c f).audClk = s.audClk := rfl
@[simp] theorem State.modChan_ports (s : State) (c : Fin 8) (f : Rl → Rl) : (s.modChan c f).ports = s.ports := rfl
@[simp] theorem State.modChan_blitTurn (s : State) (c : Fin 8) (f : Rl → Rl) : (s.modChan c f).blitTurn = s.blitTurn := rfl
@[simp] theorem State.modChan_freeCtr (s : State) (c : Fin 8) (f : Rl → Rl) : (s.modChan c f).freeCtr = s.freeCtr := rfl
@[simp] theorem State.modChan_stores (s : State) (c : Fin 8) (f : Rl → Rl) : (s.modChan c f).stores = s.stores := rfl
@[simp] theorem State.modChan_cells (s : State) (c : Fin 8) (f : Rl → Rl) : (s.modChan c f).cells = s.cells := rfl
@[simp] theorem State.modChan_sources (s : State) (c : Fin 8) (f : Rl → Rl) : (s.modChan c f).sources = s.sources := rfl
@[simp] theorem State.modChan_link (s : State) (c : Fin 8) (f : Rl → Rl) : (s.modChan c f).link = s.link := rfl
@[simp] theorem State.modChan_mc (s : State) (c : Fin 8) (f : Rl → Rl) : (s.modChan c f).mc = s.mc := rfl
@[simp] theorem State.modChan_keeper (s : State) (c : Fin 8) (f : Rl → Rl) : (s.modChan c f).keeper = s.keeper := rfl
@[simp] theorem State.modChan_swarm (s : State) (c : Fin 8) (f : Rl → Rl) : (s.modChan c f).swarm = s.swarm := rfl
@[simp] theorem State.modChan_heads (s : State) (c : Fin 8) (f : Rl → Rl) : (s.modChan c f).heads = s.heads := rfl
@[simp] theorem State.modChan_pwr (s : State) (c : Fin 8) (f : Rl → Rl) : (s.modChan c f).pwr = s.pwr := rfl
@[simp] theorem State.modChan_conv (s : State) (c : Fin 8) (f : Rl → Rl) : (s.modChan c f).conv = s.conv := rfl
@[simp] theorem State.modChan_memu (s : State) (c : Fin 8) (f : Rl → Rl) : (s.modChan c f).memu = { s.memu with chans := s.memu.chans.set c (f (s.memu.chans.get c)) } := rfl
@[simp] theorem State.modChan_pins (s : State) (c : Fin 8) (f : Rl → Rl) : (s.modChan c f).pins = s.pins := rfl
@[simp] theorem State.modChan_banks (s : State) (c : Fin 8) (f : Rl → Rl) : (s.modChan c f).banks = s.banks := rfl
@[simp] theorem State.modChan_tap (s : State) (c : Fin 8) (f : Rl → Rl) : (s.modChan c f).tap = s.tap := rfl
@[simp] theorem State.modChan_dbgDev (s : State) (c : Fin 8) (f : Rl → Rl) : (s.modChan c f).dbgDev = s.dbgDev := rfl
@[simp] theorem State.modChan_objs (s : State) (c : Fin 8) (f : Rl → Rl) : (s.modChan c f).objs = s.objs := rfl
@[simp] theorem State.modChan_pending (s : State) (c : Fin 8) (f : Rl → Rl) : (s.modChan c f).pending = s.pending := rfl
@[simp] theorem State.modChan_cell (s : State) (c : Fin 8) (f : Rl → Rl) (d : CellNo) : (s.modChan c f).cell d = s.cell d := rfl

/-! ## modSeq -/

@[simp] theorem State.modSeq_part (s : State) (q : SeqUnit) (f : Sequencer → Sequencer) : (s.modSeq q f).part = s.part := rfl
@[simp] theorem State.modSeq_devTime (s : State) (q : SeqUnit) (f : Sequencer → Sequencer) : (s.modSeq q f).devTime = s.devTime := rfl
@[simp] theorem State.modSeq_house (s : State) (q : SeqUnit) (f : Sequencer → Sequencer) : (s.modSeq q f).house = s.house := rfl
@[simp] theorem State.modSeq_combs (s : State) (q : SeqUnit) (f : Sequencer → Sequencer) : (s.modSeq q f).combs = s.combs := rfl
@[simp] theorem State.modSeq_slots (s : State) (q : SeqUnit) (f : Sequencer → Sequencer) : (s.modSeq q f).slots = s.slots := rfl
@[simp] theorem State.modSeq_audClk (s : State) (q : SeqUnit) (f : Sequencer → Sequencer) : (s.modSeq q f).audClk = s.audClk := rfl
@[simp] theorem State.modSeq_ports (s : State) (q : SeqUnit) (f : Sequencer → Sequencer) : (s.modSeq q f).ports = s.ports := rfl
@[simp] theorem State.modSeq_blitTurn (s : State) (q : SeqUnit) (f : Sequencer → Sequencer) : (s.modSeq q f).blitTurn = s.blitTurn := rfl
@[simp] theorem State.modSeq_freeCtr (s : State) (q : SeqUnit) (f : Sequencer → Sequencer) : (s.modSeq q f).freeCtr = s.freeCtr := rfl
@[simp] theorem State.modSeq_cells (s : State) (q : SeqUnit) (f : Sequencer → Sequencer) : (s.modSeq q f).cells = s.cells := rfl
@[simp] theorem State.modSeq_sources (s : State) (q : SeqUnit) (f : Sequencer → Sequencer) : (s.modSeq q f).sources = s.sources := rfl
@[simp] theorem State.modSeq_link (s : State) (q : SeqUnit) (f : Sequencer → Sequencer) : (s.modSeq q f).link = s.link := rfl
@[simp] theorem State.modSeq_mc (s : State) (q : SeqUnit) (f : Sequencer → Sequencer) : (s.modSeq q f).mc = s.mc := rfl
@[simp] theorem State.modSeq_keeper (s : State) (q : SeqUnit) (f : Sequencer → Sequencer) : (s.modSeq q f).keeper = s.keeper := rfl
@[simp] theorem State.modSeq_swarm (s : State) (q : SeqUnit) (f : Sequencer → Sequencer) : (s.modSeq q f).swarm = s.swarm := rfl
@[simp] theorem State.modSeq_heads (s : State) (q : SeqUnit) (f : Sequencer → Sequencer) : (s.modSeq q f).heads = s.heads := rfl
@[simp] theorem State.modSeq_pwr (s : State) (q : SeqUnit) (f : Sequencer → Sequencer) : (s.modSeq q f).pwr = s.pwr := rfl
@[simp] theorem State.modSeq_conv (s : State) (q : SeqUnit) (f : Sequencer → Sequencer) : (s.modSeq q f).conv = s.conv := rfl
@[simp] theorem State.modSeq_memu (s : State) (q : SeqUnit) (f : Sequencer → Sequencer) : (s.modSeq q f).memu = s.memu := rfl
@[simp] theorem State.modSeq_pins (s : State) (q : SeqUnit) (f : Sequencer → Sequencer) : (s.modSeq q f).pins = s.pins := rfl
@[simp] theorem State.modSeq_banks (s : State) (q : SeqUnit) (f : Sequencer → Sequencer) : (s.modSeq q f).banks = s.banks := rfl
@[simp] theorem State.modSeq_tap (s : State) (q : SeqUnit) (f : Sequencer → Sequencer) : (s.modSeq q f).tap = s.tap := rfl
@[simp] theorem State.modSeq_dbgDev (s : State) (q : SeqUnit) (f : Sequencer → Sequencer) : (s.modSeq q f).dbgDev = s.dbgDev := rfl
@[simp] theorem State.modSeq_objs (s : State) (q : SeqUnit) (f : Sequencer → Sequencer) : (s.modSeq q f).objs = s.objs := rfl
@[simp] theorem State.modSeq_pending (s : State) (q : SeqUnit) (f : Sequencer → Sequencer) : (s.modSeq q f).pending = s.pending := rfl
@[simp] theorem State.modSeq_cell (s : State) (q : SeqUnit) (f : Sequencer → Sequencer) (d : CellNo) : (s.modSeq q f).cell d = s.cell d := rfl

/-! ## objPut -/

@[simp] theorem State.objPut_part (s : State) (idx sub d v : Nat) : (s.objPut idx sub d v).part = s.part := rfl
@[simp] theorem State.objPut_devTime (s : State) (idx sub d v : Nat) : (s.objPut idx sub d v).devTime = s.devTime := rfl
@[simp] theorem State.objPut_house (s : State) (idx sub d v : Nat) : (s.objPut idx sub d v).house = s.house := rfl
@[simp] theorem State.objPut_combs (s : State) (idx sub d v : Nat) : (s.objPut idx sub d v).combs = s.combs := rfl
@[simp] theorem State.objPut_slots (s : State) (idx sub d v : Nat) : (s.objPut idx sub d v).slots = s.slots := rfl
@[simp] theorem State.objPut_audClk (s : State) (idx sub d v : Nat) : (s.objPut idx sub d v).audClk = s.audClk := rfl
@[simp] theorem State.objPut_ports (s : State) (idx sub d v : Nat) : (s.objPut idx sub d v).ports = s.ports := rfl
@[simp] theorem State.objPut_blitTurn (s : State) (idx sub d v : Nat) : (s.objPut idx sub d v).blitTurn = s.blitTurn := rfl
@[simp] theorem State.objPut_freeCtr (s : State) (idx sub d v : Nat) : (s.objPut idx sub d v).freeCtr = s.freeCtr := rfl
@[simp] theorem State.objPut_stores (s : State) (idx sub d v : Nat) : (s.objPut idx sub d v).stores = s.stores := rfl
@[simp] theorem State.objPut_cells (s : State) (idx sub d v : Nat) : (s.objPut idx sub d v).cells = s.cells := rfl
@[simp] theorem State.objPut_sources (s : State) (idx sub d v : Nat) : (s.objPut idx sub d v).sources = s.sources := rfl
@[simp] theorem State.objPut_link (s : State) (idx sub d v : Nat) : (s.objPut idx sub d v).link = s.link := rfl
@[simp] theorem State.objPut_mc (s : State) (idx sub d v : Nat) : (s.objPut idx sub d v).mc = s.mc := rfl
@[simp] theorem State.objPut_keeper (s : State) (idx sub d v : Nat) : (s.objPut idx sub d v).keeper = s.keeper := rfl
@[simp] theorem State.objPut_swarm (s : State) (idx sub d v : Nat) : (s.objPut idx sub d v).swarm = s.swarm := rfl
@[simp] theorem State.objPut_heads (s : State) (idx sub d v : Nat) : (s.objPut idx sub d v).heads = s.heads := rfl
@[simp] theorem State.objPut_pwr (s : State) (idx sub d v : Nat) : (s.objPut idx sub d v).pwr = s.pwr := rfl
@[simp] theorem State.objPut_conv (s : State) (idx sub d v : Nat) : (s.objPut idx sub d v).conv = s.conv := rfl
@[simp] theorem State.objPut_memu (s : State) (idx sub d v : Nat) : (s.objPut idx sub d v).memu = s.memu := rfl
@[simp] theorem State.objPut_pins (s : State) (idx sub d v : Nat) : (s.objPut idx sub d v).pins = s.pins := rfl
@[simp] theorem State.objPut_banks (s : State) (idx sub d v : Nat) : (s.objPut idx sub d v).banks = s.banks := rfl
@[simp] theorem State.objPut_tap (s : State) (idx sub d v : Nat) : (s.objPut idx sub d v).tap = s.tap := rfl
@[simp] theorem State.objPut_dbgDev (s : State) (idx sub d v : Nat) : (s.objPut idx sub d v).dbgDev = s.dbgDev := rfl
@[simp] theorem State.objPut_objs (s : State) (idx sub d v : Nat) : (s.objPut idx sub d v).objs = Table.write (fun _ => BitVec.ofNat 64 d) s.objs (idx * 256 + sub) (BitVec.ofNat 64 v) := rfl
@[simp] theorem State.objPut_pending (s : State) (idx sub d v : Nat) : (s.objPut idx sub d v).pending = s.pending := rfl
@[simp] theorem State.objPut_cell (s : State) (idx sub d v : Nat) (d : CellNo) : (s.objPut idx sub d v).cell d = s.cell d := rfl

/-! ## The blocks of a cell -/

@[simp] theorem State.modCell_eq (s : State) (c : CellNo) (f : Cell → Cell) : s.modCell c f = s.setCell c (f (s.cell c)) := rfl
@[simp] theorem State.modCtl_eq (s : State) (c : CellNo) (f : CellCtl → CellCtl) :
    s.modCtl c f = s.setCell c { s.cell c with ctl := f (s.cell c).ctl } := rfl
@[simp] theorem State.modCore_eq (s : State) (c : CellNo) (f : Core → Core) :
    s.modCore c f = s.setCell c { s.cell c with core := f (s.cell c).core } := rfl
@[simp] theorem State.modPace_eq (s : State) (c : CellNo) (f : Pace → Pace) :
    s.modPace c f = s.setCell c { s.cell c with pace := f (s.cell c).pace } := rfl
@[simp] theorem State.modBeam_eq (s : State) (c : CellNo) (f : CellBeam → CellBeam) :
    s.modBeam c f = s.setCell c { s.cell c with beam := f (s.cell c).beam } := rfl
@[simp] theorem State.modIc_eq (s : State) (c : CellNo) (f : Ic → Ic) :
    s.modIc c f = s.setCell c { s.cell c with ic := f (s.cell c).ic } := rfl
@[simp] theorem State.modMap_eq (s : State) (c : CellNo) (f : Mapper → Mapper) :
    s.modMap c f = s.setCell c { s.cell c with map := f (s.cell c).map } := rfl
@[simp] theorem State.modHost_eq (s : State) (c : CellNo) (f : CellHost → CellHost) :
    s.modHost c f = s.setCell c { s.cell c with host := f (s.cell c).host } := rfl
@[simp] theorem State.modVid_eq (s : State) (c : CellNo) (f : CellVid → CellVid) :
    s.modVid c f = s.setCell c { s.cell c with vid := f (s.cell c).vid } := rfl
@[simp] theorem State.modDbg_eq (s : State) (c : CellNo) (f : CellDbg → CellDbg) :
    s.modDbg c f = s.setCell c { s.cell c with dbg := f (s.cell c).dbg } := rfl
@[simp] theorem State.modKp_eq (s : State) (c : CellNo) (f : CellKp → CellKp) :
    s.modKp c f = s.setCell c { s.cell c with kp := f (s.cell c).kp } := rfl

/-! ## Reading a cell -/

@[simp] theorem State.setCell_cell (s : State) (c d : CellNo) (x : Cell) :
    (s.setCell c x).cell d = if d = c then x else s.cell d := by
  show (s.cells.set c.val x c.isLt)[d.val] = if d = c then x else s.cells[d.val]
  simp only [Vector.getElem_set, Fin.ext_iff, eq_comm]

theorem State.setCell_cell_self (s : State) (c : CellNo) (x : Cell) : (s.setCell c x).cell c = x := by simp

theorem State.setCell_cell_ne (s : State) {c d : CellNo} (x : Cell) (h : d ≠ c) : (s.setCell c x).cell d = s.cell d := by simp [h]

@[simp] theorem State.setCell_setCell (s : State) (c : CellNo) (x y : Cell) : (s.setCell c x).setCell c y = s.setCell c y := by
  unfold State.setCell
  simp only [State.mk.injEq, Vector.set_set, and_self]

@[simp] theorem State.setCell_self (s : State) (c : CellNo) : s.setCell c (s.cell c) = s := by
  show { s with cells := s.cells.set c.val s.cells[c.val] c.isLt } = s
  simp only [Vector.set_getElem_self]

/-! ## What is read from the fields that an update keeps -/

@[simp] theorem State.setCell_present (s : State) (c d : CellNo) (x : Cell) : (s.setCell c x).present d = s.present d := rfl
@[simp] theorem State.setCell_cellsRun (s : State) (c : CellNo) (x : Cell) : (s.setCell c x).cellsRun = s.cellsRun := rfl
@[simp] theorem State.setCell_objOr (s : State) (c : CellNo) (x : Cell) (i j d : Nat) : (s.setCell c x).objOr i j d = s.objOr i j d := rfl
@[simp] theorem State.setCell_pte (s : State) (c : CellNo) (x : Cell) (i : Nat) : (s.setCell c x).pte i = s.pte i := rfl
@[simp] theorem State.setCell_dom (s : State) (c : CellNo) (x : Cell) (d : Nat) : (s.setCell c x).dom d = s.dom d := rfl
@[simp] theorem State.setCell_swarmLink (s : State) (c : CellNo) (x : Cell) (l : Fin 7) : (s.setCell c x).swarmLink l = s.swarmLink l := rfl
@[simp] theorem State.modMc_present (s : State) (f : Mc → Mc) (d : CellNo) : (s.modMc f).present d = s.present d := rfl
@[simp] theorem State.modMc_objOr (s : State) (f : Mc → Mc) (i j d : Nat) : (s.modMc f).objOr i j d = s.objOr i j d := rfl
@[simp] theorem State.modLink_present (s : State) (f : HostLink → HostLink) (d : CellNo) : (s.modLink f).present d = s.present d := rfl
@[simp] theorem State.modLink_objOr (s : State) (f : HostLink → HostLink) (i j d : Nat) : (s.modLink f).objOr i j d = s.objOr i j d := rfl

/-! ## Updates built on others -/

@[simp] theorem State.setPte_eq (s : State) (i : Nat) (e : Long) :
    s.setPte i e = s.modKeeper fun k => { k with pt := Table.write (fun _ => 0) k.pt i e } := rfl
@[simp] theorem State.setCan_eq (s : State) (k : Fin 2) (v : Can) : s.setCan k v = s.modMc fun m => { m with can := m.can.set k v } := rfl
@[simp] theorem State.modDom_eq (s : State) (d : Nat) (f : Dom → Dom) :
    s.modDom d f = s.modPwr fun p => { p with doms := p.doms.setIfInBounds d (f (s.dom d)) } := rfl

@[simp] theorem State.modMc_modMc (s : State) (f g : Mc → Mc) : (s.modMc f).modMc g = s.modMc fun m => g (f m) := rfl
@[simp] theorem State.modLink_modLink (s : State) (f g : HostLink → HostLink) : (s.modLink f).modLink g = s.modLink fun m => g (f m) := rfl
@[simp] theorem State.modPwr_modPwr (s : State) (f g : Pwr → Pwr) : (s.modPwr f).modPwr g = s.modPwr fun m => g (f m) := rfl

end Sys2Proof.Machine
end

