-- ==== Sys2Proof/Laws/Ops.lean ====
section
/-! SUPPORT. The shared operations over the whole state: what notices, messages and journal entries change, and the
relation `Kept`, which every command's effect satisfies: the queue and the part stand, and the invariant stays. -/

namespace Sys2Proof.Machine

/-! ## What a command may not change -/

/-- From `s` to `t` the queue and the part stand, and the invariant of `State.Inv` is kept. -/
def State.Kept (s t : State) : Prop := t.pending = s.pending ∧ t.part = s.part ∧ (s.Inv → t.Inv)

theorem State.Kept.refl (s : State) : s.Kept s := ⟨rfl, rfl, id⟩

theorem State.Kept.trans {s t u : State} (h : s.Kept t) (k : t.Kept u) : s.Kept u :=
  ⟨k.1.trans h.1, k.2.1.trans h.2.1, fun i => k.2.2 (h.2.2 i)⟩

/-- A change outside the queue, the part, cell space and the journal. -/
theorem State.Kept.of_eq {s t : State} (hp : t.pending = s.pending) (hq : t.part = s.part) (hc : t.cells = s.cells)
    (hj : t.mc.journal = s.mc.journal) (hn : t.mc.jrSeq = s.mc.jrSeq) : s.Kept t := by
  refine ⟨hp, hq, fun h => ⟨fun c => ?_, ?_⟩⟩
  · have e : t.cell c = s.cell c := by unfold State.cell; rw [hc]
    rw [e]; exact h.1 c
  · rw [hj, hn]; exact h.2

/-- A record update of the state outside the part, the cells, the journal and the queue. -/
theorem State.Kept.mk {s t : State} {f_devTime} {f_house} {f_combs} {f_slots} {f_audClk} {f_ports} {f_blitTurn} {f_freeCtr} {f_stores} {f_sources} {f_link} {f_mc} {f_keeper} {f_swarm} {f_heads} {f_pwr} {f_conv} {f_memu} {f_pins} {f_banks} {f_tap} {f_dbgDev} {f_objs} (h : s.Kept t) (hj : f_mc.journal = t.mc.journal) (hn : f_mc.jrSeq = t.mc.jrSeq) :
    s.Kept (State.mk t.part f_devTime f_house f_combs f_slots f_audClk f_ports f_blitTurn f_freeCtr f_stores t.cells f_sources f_link f_mc f_keeper f_swarm f_heads f_pwr f_conv f_memu f_pins f_banks f_tap f_dbgDev f_objs t.pending) := h.trans (.of_eq rfl rfl rfl hj hn)

/-- A cell replaced by one whose space is in canonical form if the old one's is. -/
theorem State.Kept.setCell_wf {s t : State} (h : s.Kept t) (c : CellNo) {x : Cell}
    (w : Memory.wf (t.cell c).mem = true → Memory.wf x.mem = true) : s.Kept (t.setCell c x) := by
  refine h.trans ⟨rfl, rfl, fun i => ⟨fun d => ?_, i.2⟩⟩
  rw [State.setCell_cell]
  split
  · exact w (i.1 c)
  · exact i.1 d

/-- A cell changed outside its space. -/
theorem State.Kept.setCell {s t : State} (h : s.Kept t) (c : CellNo) {x : Cell} (w : x.mem = (t.cell c).mem) :
    s.Kept (t.setCell c x) := h.setCell_wf c fun q => w ▸ q

/-- A cell changed by a function that keeps its space. -/
theorem State.Kept.modCell {s t : State} (h : s.Kept t) (c : CellNo) {f : Cell → Cell} (w : (f (t.cell c)).mem = (t.cell c).mem) :
    s.Kept (t.modCell c f) := h.setCell c w

theorem State.Kept.modCtl {s t : State} (h : s.Kept t) (c : CellNo) (f : CellCtl → CellCtl) : s.Kept (t.modCtl c f) := h.modCell c rfl
theorem State.Kept.modCore {s t : State} (h : s.Kept t) (c : CellNo) (f : Core → Core) : s.Kept (t.modCore c f) := h.modCell c rfl
theorem State.Kept.modPace {s t : State} (h : s.Kept t) (c : CellNo) (f : Pace → Pace) : s.Kept (t.modPace c f) := h.modCell c rfl
theorem State.Kept.modBeam {s t : State} (h : s.Kept t) (c : CellNo) (f : CellBeam → CellBeam) : s.Kept (t.modBeam c f) := h.modCell c rfl
theorem State.Kept.modIc {s t : State} (h : s.Kept t) (c : CellNo) (f : Ic → Ic) : s.Kept (t.modIc c f) := h.modCell c rfl
theorem State.Kept.modMap {s t : State} (h : s.Kept t) (c : CellNo) (f : Mapper → Mapper) : s.Kept (t.modMap c f) := h.modCell c rfl
theorem State.Kept.modHost {s t : State} (h : s.Kept t) (c : CellNo) (f : CellHost → CellHost) : s.Kept (t.modHost c f) := h.modCell c rfl
theorem State.Kept.modVid {s t : State} (h : s.Kept t) (c : CellNo) (f : CellVid → CellVid) : s.Kept (t.modVid c f) := h.modCell c rfl
theorem State.Kept.modDbg {s t : State} (h : s.Kept t) (c : CellNo) (f : CellDbg → CellDbg) : s.Kept (t.modDbg c f) := h.modCell c rfl
theorem State.Kept.modKp {s t : State} (h : s.Kept t) (c : CellNo) (f : CellKp → CellKp) : s.Kept (t.modKp c f) := h.modCell c rfl

/-- The management controller changed outside the journal. -/
theorem State.Kept.modMc {s t : State} (h : s.Kept t) {f : Mc → Mc} (hj : (f t.mc).journal = t.mc.journal)
    (hn : (f t.mc).jrSeq = t.mc.jrSeq) : s.Kept (t.modMc f) := h.trans (.of_eq rfl rfl rfl hj hn)

theorem State.Kept.modLink {s t : State} (h : s.Kept t) (f : HostLink → HostLink) : s.Kept (t.modLink f) :=
  h.trans (.of_eq rfl rfl rfl rfl rfl)
theorem State.Kept.modPwr {s t : State} (h : s.Kept t) (f : Pwr → Pwr) : s.Kept (t.modPwr f) :=
  h.trans (.of_eq rfl rfl rfl rfl rfl)
theorem State.Kept.modSwarm {s t : State} (h : s.Kept t) (f : Swarm → Swarm) : s.Kept (t.modSwarm f) :=
  h.trans (.of_eq rfl rfl rfl rfl rfl)
theorem State.Kept.modLinkL {s t : State} (h : s.Kept t) (l : Fin 7) (f : Link → Link) : s.Kept (t.modLinkL l f) :=
  h.trans (.of_eq rfl rfl rfl rfl rfl)
theorem State.Kept.modKeeper {s t : State} (h : s.Kept t) (f : Keeper → Keeper) : s.Kept (t.modKeeper f) :=
  h.trans (.of_eq rfl rfl rfl rfl rfl)
theorem State.Kept.modHouse {s t : State} (h : s.Kept t) (f : HouseBeam → HouseBeam) : s.Kept (t.modHouse f) :=
  h.trans (.of_eq rfl rfl rfl rfl rfl)
theorem State.Kept.modComb {s t : State} (h : s.Kept t) (k : Fin 24) (f : Comb → Comb) : s.Kept (t.modComb k f) :=
  h.trans (.of_eq rfl rfl rfl rfl rfl)
theorem State.Kept.modHead {s t : State} (h : s.Kept t) (n : Fin 4) (f : Head → Head) : s.Kept (t.modHead n f) :=
  h.trans (.of_eq rfl rfl rfl rfl rfl)
theorem State.Kept.modPort {s t : State} (h : s.Kept t) (n : Fin 4) (f : HsPort → HsPort) : s.Kept (t.modPort n f) :=
  h.trans (.of_eq rfl rfl rfl rfl rfl)
theorem State.Kept.modPin {s t : State} (h : s.Kept t) (p : Fin 128) (f : Pin → Pin) : s.Kept (t.modPin p f) :=
  h.trans (.of_eq rfl rfl rfl rfl rfl)
theorem State.Kept.modSource {s t : State} (h : s.Kept t) (n : Fin 153) (f : SharedSrc → SharedSrc) : s.Kept (t.modSource n f) :=
  h.trans (.of_eq rfl rfl rfl rfl rfl)
theorem State.Kept.modChan {s t : State} (h : s.Kept t) (c : Fin 8) (f : Rl → Rl) : s.Kept (t.modChan c f) :=
  h.trans (.of_eq rfl rfl rfl rfl rfl)
theorem State.Kept.modSeq {s t : State} (h : s.Kept t) (q : SeqUnit) (f : Sequencer → Sequencer) : s.Kept (t.modSeq q f) :=
  h.trans (.of_eq rfl rfl rfl rfl rfl)
theorem State.Kept.objPut {s t : State} (h : s.Kept t) (idx sub d v : Nat) : s.Kept (t.objPut idx sub d v) :=
  h.trans (.of_eq rfl rfl rfl rfl rfl)

/-- A fold of kept steps is kept. -/
theorem State.Kept.foldl {α : Type} {f : State → α → State} {s t : State} (hf : ∀ (u : State) (a : α), s.Kept u → s.Kept (f u a))
    (l : List α) (h : s.Kept t) : s.Kept (l.foldl f t) := by
  induction l generalizing t with
  | nil => exact h
  | cons a r ih => exact ih (hf t a h)

/-! ## Journal entries (R452) -/

theorem State.Kept.journal {s t : State} (h : s.Kept t) (e : JEntry) : s.Kept (t.journal e) := by
  refine h.trans ⟨rfl, rfl, fun h => ⟨h.1, ?_⟩⟩
  have hl := h.2
  simp only [State.journal, State.modMc_mc, List.length_take, List.length_cons]
  omega

theorem State.Kept.event {s t : State} (h : s.Kept t) (code sub : Nat) (old new : Long) : s.Kept (t.event code sub old new) :=
  h.journal _

/-- The newest entry is the one just written. -/
theorem State.journal_newest (s : State) (e : JEntry) : (s.journal e).mc.journal.head? = some e := rfl

/-! ## Notices: what they change -/

/-- A notice or a message changes the host link, and of the management controller only the count and the copy of notices
that sessions receive. -/
theorem State.raise_eq (s : State) (code unit : Nat) (b : Bool) (arg : Nat) (p : List Long) :
    ∃ l n w, s.raise code unit b arg p = { s with link := l, mc := { s.mc with notifySent := n, notifyLast := w } } := by
  have hin : ∀ (u : State) ws, ∃ l, u.noticeIn ws = { u with link := l } := by
    intro u ws
    unfold State.noticeIn
    dsimp only
    split <;> split <;> exact ⟨_, rfl⟩
  have howed : ∀ u : State, ∃ l, u.noticeOwed = { u with link := l } := by
    intro u
    unfold State.noticeOwed
    split
    · obtain ⟨l, e⟩ := hin u [noticeWord u.devId 0x18 0 false u.link.nqLost.toNat, u.devTime]
      rw [e]; exact ⟨_, rfl⟩
    · exact ⟨u.link, rfl⟩
  have hset : ∀ u : State, (∃ n w, u = { s with mc := { s.mc with notifySent := n, notifyLast := w } }) → ∀ ws : List Long,
      ∃ l n w, (if !(u.noticeOwed).link.notice.en then u.noticeOwed
        else if (u.noticeOwed).link.nqLost = 0 && decide ((u.noticeOwed).link.notice.words + ws.length ≤ 128) then
          (u.noticeOwed).noticeIn ws
        else (u.noticeOwed).modLink fun l => { l with nqLostTotal := satInc l.nqLostTotal, nqLost := satInc l.nqLost })
        = { s with link := l, mc := { s.mc with notifySent := n, notifyLast := w } } := by
    rintro u ⟨n, w, rfl⟩ ws
    obtain ⟨l, e⟩ := howed { s with mc := { s.mc with notifySent := n, notifyLast := w } }
    rw [e]
    split
    · exact ⟨l, n, w, rfl⟩
    · split
      · obtain ⟨l', e'⟩ := hin { s with link := l, mc := { s.mc with notifySent := n, notifyLast := w } } ws
        exact ⟨l', n, w, e'⟩
      · exact ⟨_, n, w, rfl⟩
  unfold State.raise
  dsimp only
  split
  · exact hset _ ⟨_, _, rfl⟩ _
  · exact hset _ ⟨s.mc.notifySent, s.mc.notifyLast, rfl⟩ _

section Raise

variable (s : State) (code unit : Nat) (b : Bool) (arg : Nat) (p : List Long)

@[simp] theorem State.raise_part : (s.raise code unit b arg p).part = s.part := by
  obtain ⟨_, _, _, e⟩ := s.raise_eq code unit b arg p; rw [e]
@[simp] theorem State.raise_devTime : (s.raise code unit b arg p).devTime = s.devTime := by
  obtain ⟨_, _, _, e⟩ := s.raise_eq code unit b arg p; rw [e]
@[simp] theorem State.raise_house : (s.raise code unit b arg p).house = s.house := by
  obtain ⟨_, _, _, e⟩ := s.raise_eq code unit b arg p; rw [e]
@[simp] theorem State.raise_combs : (s.raise code unit b arg p).combs = s.combs := by
  obtain ⟨_, _, _, e⟩ := s.raise_eq code unit b arg p; rw [e]
@[simp] theorem State.raise_slots : (s.raise code unit b arg p).slots = s.slots := by
  obtain ⟨_, _, _, e⟩ := s.raise_eq code unit b arg p; rw [e]
@[simp] theorem State.raise_audClk : (s.raise code unit b arg p).audClk = s.audClk := by
  obtain ⟨_, _, _, e⟩ := s.raise_eq code unit b arg p; rw [e]
@[simp] theorem State.raise_ports : (s.raise code unit b arg p).ports = s.ports := by
  obtain ⟨_, _, _, e⟩ := s.raise_eq code unit b arg p; rw [e]
@[simp] theorem State.raise_blitTurn : (s.raise code unit b arg p).blitTurn = s.blitTurn := by
  obtain ⟨_, _, _, e⟩ := s.raise_eq code unit b arg p; rw [e]
@[simp] theorem State.raise_freeCtr : (s.raise code unit b arg p).freeCtr = s.freeCtr := by
  obtain ⟨_, _, _, e⟩ := s.raise_eq code unit b arg p; rw [e]
@[simp] theorem State.raise_stores : (s.raise code unit b arg p).stores = s.stores := by
  obtain ⟨_, _, _, e⟩ := s.raise_eq code unit b arg p; rw [e]
@[simp] theorem State.raise_cells : (s.raise code unit b arg p).cells = s.cells := by
  obtain ⟨_, _, _, e⟩ := s.raise_eq code unit b arg p; rw [e]
@[simp] theorem State.raise_sources : (s.raise code unit b arg p).sources = s.sources := by
  obtain ⟨_, _, _, e⟩ := s.raise_eq code unit b arg p; rw [e]
@[simp] theorem State.raise_keeper : (s.raise code unit b arg p).keeper = s.keeper := by
  obtain ⟨_, _, _, e⟩ := s.raise_eq code unit b arg p; rw [e]
@[simp] theorem State.raise_swarm : (s.raise code unit b arg p).swarm = s.swarm := by
  obtain ⟨_, _, _, e⟩ := s.raise_eq code unit b arg p; rw [e]
@[simp] theorem State.raise_heads : (s.raise code unit b arg p).heads = s.heads := by
  obtain ⟨_, _, _, e⟩ := s.raise_eq code unit b arg p; rw [e]
@[simp] theorem State.raise_pwr : (s.raise code unit b arg p).pwr = s.pwr := by
  obtain ⟨_, _, _, e⟩ := s.raise_eq code unit b arg p; rw [e]
@[simp] theorem State.raise_conv : (s.raise code unit b arg p).conv = s.conv := by
  obtain ⟨_, _, _, e⟩ := s.raise_eq code unit b arg p; rw [e]
@[simp] theorem State.raise_memu : (s.raise code unit b arg p).memu = s.memu := by
  obtain ⟨_, _, _, e⟩ := s.raise_eq code unit b arg p; rw [e]
@[simp] theorem State.raise_pins : (s.raise code unit b arg p).pins = s.pins := by
  obtain ⟨_, _, _, e⟩ := s.raise_eq code unit b arg p; rw [e]
@[simp] theorem State.raise_banks : (s.raise code unit b arg p).banks = s.banks := by
  obtain ⟨_, _, _, e⟩ := s.raise_eq code unit b arg p; rw [e]
@[simp] theorem State.raise_tap : (s.raise code unit b arg p).tap = s.tap := by
  obtain ⟨_, _, _, e⟩ := s.raise_eq code unit b arg p; rw [e]
@[simp] theorem State.raise_dbgDev : (s.raise code unit b arg p).dbgDev = s.dbgDev := by
  obtain ⟨_, _, _, e⟩ := s.raise_eq code unit b arg p; rw [e]
@[simp] theorem State.raise_objs : (s.raise code unit b arg p).objs = s.objs := by
  obtain ⟨_, _, _, e⟩ := s.raise_eq code unit b arg p; rw [e]
@[simp] theorem State.raise_pending : (s.raise code unit b arg p).pending = s.pending := by
  obtain ⟨_, _, _, e⟩ := s.raise_eq code unit b arg p; rw [e]
@[simp] theorem State.raise_cell (c : CellNo) : (s.raise code unit b arg p).cell c = s.cell c := by
  obtain ⟨_, _, _, e⟩ := s.raise_eq code unit b arg p; rw [e]; rfl
@[simp] theorem State.raise_journal : (s.raise code unit b arg p).mc.journal = s.mc.journal := by
  obtain ⟨_, _, _, e⟩ := s.raise_eq code unit b arg p; rw [e]
@[simp] theorem State.raise_jrSeq : (s.raise code unit b arg p).mc.jrSeq = s.mc.jrSeq := by
  obtain ⟨_, _, _, e⟩ := s.raise_eq code unit b arg p; rw [e]
@[simp] theorem State.raise_sessions : (s.raise code unit b arg p).mc.sessions = s.mc.sessions := by
  obtain ⟨_, _, _, e⟩ := s.raise_eq code unit b arg p; rw [e]

theorem State.Kept.raise {s t : State} (h : s.Kept t) (code unit : Nat) (b : Bool) (arg : Nat) (p : List Long) :
    s.Kept (t.raise code unit b arg p) := h.trans (.of_eq (by simp) (by simp) (by simp) (by simp) (by simp))

theorem State.Kept.raiseEvent {s t : State} (h : s.Kept t) (code unit : Nat) (b : Bool) (arg : Nat) :
    s.Kept (t.raiseEvent code unit b arg) := (h.raise code unit b arg []).event _ _ _ _

@[simp] theorem State.raiseEvent_cells : (s.raiseEvent code unit b arg).cells = s.cells := s.raise_cells code unit b arg []
@[simp] theorem State.raiseEvent_cell (c : CellNo) : (s.raiseEvent code unit b arg).cell c = s.cell c := s.raise_cell code unit b arg [] c
@[simp] theorem State.raiseEvent_pwr : (s.raiseEvent code unit b arg).pwr = s.pwr := s.raise_pwr code unit b arg []
@[simp] theorem State.raiseEvent_swarm : (s.raiseEvent code unit b arg).swarm = s.swarm := s.raise_swarm code unit b arg []
@[simp] theorem State.raiseEvent_keeper : (s.raiseEvent code unit b arg).keeper = s.keeper := s.raise_keeper code unit b arg []
@[simp] theorem State.raiseEvent_stores : (s.raiseEvent code unit b arg).stores = s.stores := s.raise_stores code unit b arg []
@[simp] theorem State.raiseEvent_house : (s.raiseEvent code unit b arg).house = s.house := s.raise_house code unit b arg []
@[simp] theorem State.raiseEvent_objs : (s.raiseEvent code unit b arg).objs = s.objs := s.raise_objs code unit b arg []
@[simp] theorem State.raiseEvent_part : (s.raiseEvent code unit b arg).part = s.part := s.raise_part code unit b arg []
@[simp] theorem State.raiseEvent_pending : (s.raiseEvent code unit b arg).pending = s.pending := s.raise_pending code unit b arg []

end Raise

/-! ## Edges -/

@[simp] theorem Cell.edge_mem (x : Cell) (n : Nat) : (x.edge n).mem = x.mem := rfl
@[simp] theorem Cell.edge_core (x : Cell) (n : Nat) : (x.edge n).core = x.core := rfl
@[simp] theorem Cell.edge_ctl (x : Cell) (n : Nat) : (x.edge n).ctl = x.ctl := rfl
@[simp] theorem Cell.edge_map (x : Cell) (n : Nat) : (x.edge n).map = x.map := rfl

/-- An edge changes the interrupt controller of one cell. -/
@[simp] theorem State.edge_eq (s : State) (c : CellNo) (n : Nat) : s.edge c n = s.setCell c ((s.cell c).edge n) := rfl

theorem State.Kept.edge {s t : State} (h : s.Kept t) (c : CellNo) (n : Nat) : s.Kept (t.edge c n) := h.modCell c rfl

/-- A source's pending bit rises, and where it stood already its IC_MISS bit (R148). -/
theorem Ic.edge_pend (i : Ic) (n : Nat) (h : sourceExists n = true) : (i.edge n).pend.getLsbD n = true := by
  have hn : n < 32 := by unfold sourceExists at h; simp at h; exact h.2
  unfold Ic.edge
  split
  · simp_all
  · split
    · assumption
    · simp [putBit, hn]

/-! ## Commands -/

/-- A command of a cell that exists is the effect that follows (R2). -/
theorem onCell_present {c : CellNo} {s : State} (h : s.present c = true) (k : Res) : onCell c s k = k := by
  simp [onCell, h]

/-- A command of a cell that the part lacks is refused by name (R2). -/
theorem onCell_absent {c : CellNo} {s : State} (h : s.present c = false) (k : Res) : onCell c s k = .refused .absentUnit := by
  simp [onCell, h]

theorem onLive_runs {c : CellNo} {s : State} (h : s.present c = true) (r : s.cellsRun = true) (k : Res) : onLive c s k = k := by
  simp [onLive, onCell, h, r]

theorem onLive_idle {c : CellNo} {s : State} (h : s.present c = true) (r : s.cellsRun = false) (k : Res) : onLive c s k = .next s := by
  simp [onLive, onCell, h, r]

/-- What answers a next state by way of `onCell` answers it on a cell that exists. -/
theorem onCell_next {c : CellNo} {s t : State} {k : Res} (h : onCell c s k = .next t) : s.present c = true ∧ k = .next t := by
  unfold onCell at h
  split at h
  · exact ⟨‹_›, h⟩
  · cases h

theorem onLive_next {c : CellNo} {s t : State} {k : Res} (h : onLive c s k = .next t) :
    s.present c = true ∧ (k = .next t ∨ t = s) := by
  obtain ⟨hp, hk⟩ := onCell_next h
  split at hk
  · exact ⟨hp, .inl hk⟩
  · cases hk; exact ⟨hp, .inr rfl⟩

/-! ## The step -/

theorem step_nil {s : State} (h : s.pending = []) : step s = .next s.idle := by simp [step, h]

theorem step_cons {s : State} {i : Instr} {r : List Instr} (h : s.pending = i :: r) : step s = exec i { s with pending := r } := by
  simp [step, h]

theorem State.Kept.idle {s t : State} (h : s.Kept t) : s.Kept t.idle := by
  refine h.trans ?_
  unfold State.idle
  split
  · exact .refl t
  · split <;> exact .of_eq rfl rfl rfl rfl rfl

/-- What a step leaves to show once every command is `Kept`: the queue is one command shorter. -/
theorem step_of_kept (h : ∀ i s t, exec i s = .next t → s.Kept t) {s t : State} (e : step s = .next t) :
    t.pending = s.pending.tail ∧ t.part = s.part ∧ (s.Inv → t.Inv) := by
  rcases hp : s.pending with _ | ⟨i, r⟩
  · rw [step_nil hp] at e
    cases e
    have k := (State.Kept.refl s).idle
    exact ⟨k.1.trans (by simp [hp]), k.2.1, k.2.2⟩
  · rw [step_cons hp] at e
    obtain ⟨a, b, d⟩ := h i _ t e
    exact ⟨a, b, fun v => d v⟩

end Sys2Proof.Machine
end

