-- ==== Sys2Proof/Laws/Ek.lean ====
section
/-! SUPPORT. The EK8 core: registers and flags, the completion of an instruction, the frame around every instruction, and
entries; each shared operation with what it can do. -/

namespace Sys2Proof.Machine

/-! ## Registers -/

section Registers

variable (k : Core) (d n : Fin 16) (w u : Fin 8) (v : Byte) (h : Half) (m : Byte)

@[simp] theorem Core.setB_rb : (k.setB d v).rb n = if n = d then v else k.rb n := by
  show (k.b.set d.val v d.isLt)[n.val] = if n = d then v else k.b[n.val]
  simp only [Vector.getElem_set, Fin.ext_iff, eq_comm]
@[simp] theorem Core.setB_f : (k.setB d v).f = k.f := rfl
@[simp] theorem Core.setB_pc : (k.setB d v).pc = k.pc := rfl
@[simp] theorem Core.setB_sp : (k.setB d v).sp = k.sp := rfl
@[simp] theorem Core.setB_ed : (k.setB d v).ed = k.ed := rfl
@[simp] theorem Core.setB_loops : (k.setB d v).loops = k.loops := rfl
@[simp] theorem Core.setB_mhml : (k.setB d v).mhml = k.mhml := rfl
@[simp] theorem Core.setB_prod : (k.setB d v).prod = k.prod := rfl

@[simp] theorem Core.putF_rb : (k.putF m v).rb n = k.rb n := rfl
@[simp] theorem Core.putF_b : (k.putF m v).b = k.b := rfl
@[simp] theorem Core.putF_f : (k.putF m v).f = setFlags k.f m v := rfl
@[simp] theorem Core.putF_pc : (k.putF m v).pc = k.pc := rfl
@[simp] theorem Core.putF_sp : (k.putF m v).sp = k.sp := rfl
@[simp] theorem Core.putF_ed : (k.putF m v).ed = k.ed := rfl
@[simp] theorem Core.putF_loops : (k.putF m v).loops = k.loops := rfl
@[simp] theorem Core.putF_mhml : (k.putF m v).mhml = k.mhml := rfl
@[simp] theorem Core.putF_prod : (k.putF m v).prod = k.prod := rfl
@[simp] theorem Core.putF_rw : (k.putF m v).rw w = k.rw w := rfl

@[simp] theorem Core.setW_f : (k.setW w h).f = k.f := rfl
@[simp] theorem Core.setW_pc : (k.setW w h).pc = k.pc := rfl
@[simp] theorem Core.setW_sp : (k.setW w h).sp = k.sp := rfl
@[simp] theorem Core.setW_ed : (k.setW w h).ed = k.ed := rfl
@[simp] theorem Core.setW_loops : (k.setW w h).loops = k.loops := rfl
@[simp] theorem Core.setW_mhml : (k.setW w h).mhml = k.mhml := rfl
@[simp] theorem Core.setW_prod : (k.setW w h).prod = k.prod := rfl

@[simp] theorem hiByte_loByte (h : Half) : hiByte h ++ loByte h = h := by
  ext i hi
  simp only [hiByte, loByte, BitVec.getElem_append]
  split <;> simp_all
  rw [BitVec.getLsbD_eq_getElem (by omega)]
  congr 1; omega

/-- A word register reads as it was written (R59). -/
@[simp] theorem Core.setW_rw_self : (k.setW w h).rw w = h := by
  have e : pairLo w ≠ pairHi w := by simp only [pairLo, pairHi, ne_eq, Fin.mk.injEq]; omega
  simp [Core.rw, Core.setW, e]

/-- The other word registers are as before (R59). -/
theorem Core.setW_rw_ne (e : u ≠ w) : (k.setW w h).rw u = k.rw u := by
  have e' : u.val ≠ w.val := fun q => e (Fin.ext q)
  have e1 : pairHi u ≠ pairHi w := by simp only [pairHi, ne_eq, Fin.mk.injEq]; omega
  have e2 : pairHi u ≠ pairLo w := by simp only [pairHi, pairLo, ne_eq, Fin.mk.injEq]; omega
  have e3 : pairLo u ≠ pairHi w := by simp only [pairHi, pairLo, ne_eq, Fin.mk.injEq]; omega
  have e4 : pairLo u ≠ pairLo w := by simp only [pairLo, ne_eq, Fin.mk.injEq]; omega
  simp [Core.rw, Core.setW, e1, e2, e3, e4]

/-- A byte register after a word was written. -/
theorem Core.setW_rb : (k.setW w h).rb n = if n = pairHi w then hiByte h else if n = pairLo w then loByte h else k.rb n := by
  simp [Core.setW]

/-- A flag bit under a mask: of the new flags where the mask has it, else as before. -/
theorem setFlags_getLsbD (f m v : Byte) (i : Nat) :
    (setFlags f m v).getLsbD i = if m.getLsbD i then v.getLsbD i else f.getLsbD i := by
  simp only [setFlags, BitVec.getLsbD_or, BitVec.getLsbD_and, BitVec.getLsbD_not]
  by_cases hi : i < 8
  · cases hm : m.getLsbD i <;> simp [hi]
  · simp [BitVec.getLsbD_of_ge, Nat.le_of_not_lt hi]

theorem flagIf_getLsbD (b : Bool) (m : Byte) (i : Nat) : (flagIf b m).getLsbD i = (b && m.getLsbD i) := by
  cases b <;> simp [flagIf]

end Registers

/-! ## Products in flight (R87, R88) -/

section Products

variable (k : Core) (n : Nat)

@[simp] theorem Core.land_rb (d : Fin 16) : k.land.rb d = k.rb d := by unfold Core.land; split <;> rfl
@[simp] theorem Core.land_b : k.land.b = k.b := by unfold Core.land; split <;> rfl
@[simp] theorem Core.land_f : k.land.f = k.f := by unfold Core.land; split <;> rfl
@[simp] theorem Core.land_pc : k.land.pc = k.pc := by unfold Core.land; split <;> rfl
@[simp] theorem Core.land_sp : k.land.sp = k.sp := by unfold Core.land; split <;> rfl
@[simp] theorem Core.land_ed : k.land.ed = k.ed := by unfold Core.land; split <;> rfl
@[simp] theorem Core.land_loops : k.land.loops = k.loops := by unfold Core.land; split <;> rfl
@[simp] theorem Core.land_prod : k.land.prod = none := by unfold Core.land; split <;> simp_all

@[simp] theorem Core.age_rb (d : Fin 16) : (k.age n).rb d = k.rb d := by unfold Core.age; split <;> (try split) <;> rfl
@[simp] theorem Core.age_b : (k.age n).b = k.b := by unfold Core.age; split <;> (try split) <;> rfl
@[simp] theorem Core.age_f : (k.age n).f = k.f := by unfold Core.age; split <;> (try split) <;> rfl
@[simp] theorem Core.age_sp : (k.age n).sp = k.sp := by unfold Core.age; split <;> (try split) <;> rfl
@[simp] theorem Core.age_ed : (k.age n).ed = k.ed := by unfold Core.age; split <;> (try split) <;> rfl

/-- With no product in flight no time passes for it. -/
theorem Core.age_none (h : k.prod = none) : k.age n = k := by unfold Core.age; rw [h]

end Products

/-! ## Completion of an instruction (R83, R103) -/

section Completion

variable (x : Cell)

/-- What counting an instruction changes: the pace, the open locked sequence, and the debug and watchdog records of one
that ends. -/
theorem Cell.counted_eq : ∃ q d w, x.counted =
    { x with pace := x.pace.count, ctl := { x.ctl with locked := q }, dbg := d, wd := w } := by
  unfold Cell.counted
  dsimp only
  generalize (if x.dbg.haltReq && x.lockedOpen then { x.dbg with haltAge := x.dbg.haltAge + 1 } else x.dbg : CellDbg) = d
  unfold Cell.expireLocked
  split
  · exact ⟨_, d, x.wd, rfl⟩
  · split
    · exact ⟨_, d, x.wd, rfl⟩
    · rename_i q _ _
      dsimp only
      cases q.reg <;> exact ⟨none, d, _, rfl⟩

@[simp] theorem Cell.counted_mem : x.counted.mem = x.mem := by obtain ⟨_, _, _, e⟩ := x.counted_eq; rw [e]
@[simp] theorem Cell.counted_core : x.counted.core = x.core := by obtain ⟨_, _, _, e⟩ := x.counted_eq; rw [e]
@[simp] theorem Cell.counted_map : x.counted.map = x.map := by obtain ⟨_, _, _, e⟩ := x.counted_eq; rw [e]
@[simp] theorem Cell.counted_ic : x.counted.ic = x.ic := by obtain ⟨_, _, _, e⟩ := x.counted_eq; rw [e]
@[simp] theorem Cell.counted_pace : x.counted.pace = x.pace.count := by obtain ⟨_, _, _, e⟩ := x.counted_eq; rw [e]
@[simp] theorem Cell.counted_st : x.counted.ctl.st = x.ctl.st := by obtain ⟨_, _, _, e⟩ := x.counted_eq; rw [e]

theorem Cell.counted_keepsAll : x.keepsAll x.counted := by
  obtain ⟨_, _, _, e⟩ := x.counted_eq
  rw [e]
  exact ⟨rfl, rfl, rfl, rfl, rfl, rfl, rfl, rfl, rfl, rfl, rfl, rfl, rfl, rfl, rfl, rfl, rfl, rfl, rfl, rfl, rfl, rfl, rfl, rfl⟩

theorem Cell.keepsAll_trans {x y z : Cell} (h : x.keepsAll y) (k : y.keepsAll z) : x.keepsAll z := by
  unfold Cell.keepsAll at *
  simp_all

variable (n : Nat) (pc : Half) (l : List LoopEnt)

@[simp] theorem Cell.complete_core :
    (x.complete n pc l).core = { x.core.age n with pc := pc, loops := l, entered := false } := by simp [Cell.complete]
@[simp] theorem Cell.complete_mem : (x.complete n pc l).mem = x.mem := by simp [Cell.complete]
@[simp] theorem Cell.complete_map : (x.complete n pc l).map = x.map := by simp [Cell.complete]
@[simp] theorem Cell.complete_pace : (x.complete n pc l).pace = x.pace.count := by simp [Cell.complete]

theorem Cell.complete_keepsAll : x.keepsAll (x.complete n pc l) :=
  Cell.keepsAll_trans ⟨rfl, rfl, rfl, rfl, rfl, rfl, rfl, rfl, rfl, rfl, rfl, rfl, rfl, rfl, rfl, rfl, rfl, rfl, rfl, rfl, rfl, rfl,
    rfl, rfl⟩ (Cell.counted_keepsAll _)

/-- With an empty loop stack the next address is the sequential one (R83). -/
@[simp] theorem loopBack_nil (ed : Byte) (nxt : Half) : loopBack ed nxt [] = (nxt, []) := rfl

end Completion

/-! ## The frame around an instruction -/

section Frame

variable {c : CellNo} {s : State} {bs : List Byte}

/-- Where the core issues, the instruction's body runs. -/
theorem runInstr_issues (h : s.issues c bs = true) (cycles taken : Nat) (body : CellNo → State → EkRes) :
    runInstr c bs cycles taken body s = s.runBody c bs.length cycles taken body := by
  simp only [State.issues, Bool.and_eq_true, decide_eq_true_eq, Option.isNone_iff_eq_none] at h
  obtain ⟨⟨⟨hp, hi⟩, hb⟩, hf⟩ := h
  simp [runInstr, onCell, hp, hi, hb, hf]

/-- What an instruction's command can do: it is refused on an absent cell, it does nothing, its cell halts at a break patch,
its fetch traps, or its body runs. -/
theorem runInstr_cases (cycles taken : Nat) (body : CellNo → State → EkRes) (bs : List Byte) :
    (s.present c = false ∧ runInstr c bs cycles taken body s = .refused .absentUnit) ∨
    runInstr c bs cycles taken body s = .next s ∨
    (∃ k, (s.cell c).breakDue = some k ∧ runInstr c bs cycles taken body s = .next (s.haltCell c (BitVec.ofNat 8 (0x10 + k)))) ∨
    (∃ a, (s.cell c).fetch (s.cell c).core.pc bs = .refused a ∧ runInstr c bs cycles taken body s = .next (s.takeTrap c a)) ∨
    (s.issues c bs = true ∧ runInstr c bs cycles taken body s = s.runBody c bs.length cycles taken body) := by
  by_cases hi : s.issues c bs = true
  · exact .inr (.inr (.inr (.inr ⟨hi, runInstr_issues hi ..⟩)))
  · unfold runInstr
    by_cases hp : s.present c = true
    · rw [onCell_present hp]
      split
      · exact .inr (.inl rfl)
      · split
        · exact .inr (.inr (.inl ⟨_, ‹_›, rfl⟩))
        · split
          · exact .inr (.inl rfl)
          · exact .inr (.inr (.inr (.inl ⟨_, ‹_›, rfl⟩)))
          · simp_all [State.issues]
    · exact .inl ⟨by simpa using hp, onCell_absent (by simpa using hp) _⟩

/-- An instruction that works on core registers: the new state, whole. -/
theorem runBody_core (len cycles taken : Nat) (f : Core → Core) : s.runBody c len cycles taken (coreBody f) =
    .next (s.setCell c (({ s.cell c with core := f (s.cell c).core }).complete cycles
      (loopBack (f (s.cell c).core).ed ((s.cell c).core.pc + BitVec.ofNat 16 len) (f (s.cell c).core).loops).1
      (loopBack (f (s.cell c).core).ed ((s.cell c).core.pc + BitVec.ofNat 16 len) (f (s.cell c).core).loops).2)) := by
  simp [State.runBody, coreBody, State.finishSeq]

/-- The new cell of such an instruction keeps everything else of its cell. -/
theorem coreBody_keepsAll (x : Cell) (k : Core) (n : Nat) (pc : Half) (l : List LoopEnt) :
    x.keepsAll (({ x with core := k }).complete n pc l) :=
  Cell.keepsAll_trans ⟨rfl, rfl, rfl, rfl, rfl, rfl, rfl, rfl, rfl, rfl, rfl, rfl, rfl, rfl, rfl, rfl, rfl, rfl, rfl, rfl, rfl, rfl,
    rfl, rfl⟩ (Cell.complete_keepsAll _ n pc l)

/-- A cell replaced is the only cell changed. -/
theorem State.onlyCell_setCell (x : Cell) : s.onlyCell (s.setCell c x) c := by simp [State.onlyCell]

end Frame

/-! ## Faults and entries -/

section Entries

variable (s : State) (c : CellNo)

theorem State.Kept.migLost {s t : State} (h : s.Kept t) (c : CellNo) : s.Kept (t.migLost c) := by
  unfold State.migLost
  dsimp only
  split
  · exact h
  · with_reducible apply State.Kept.raiseEvent
    with_reducible refine State.Kept.mk ?_ rfl rfl
    with_reducible refine State.Kept.setCell h c ?_
    rfl

theorem State.Kept.cellFault {s t : State} (h : s.Kept t) (c : CellNo) (code : Byte) : s.Kept (t.cellFault c code) :=
  ((h.migLost c).modCtl c _).raiseEvent _ _ _ _

/-- A faulted cell is FAULTED with its code (R100). -/
theorem State.cellFault_faulted (code : Byte) :
    ((s.cellFault c code).cell c).ctl.st = .faulted ∧ ((s.cellFault c code).cell c).ctl.faultCause = code := by
  simp [State.cellFault]

@[simp] theorem Cell.latchTrap_mem (x : Cell) (a : Abandon) (pc : Half) : (x.latchTrap a pc).mem = x.mem := rfl
@[simp] theorem Cell.latchTrap_core (x : Cell) (a : Abandon) (pc : Half) : (x.latchTrap a pc).core = x.core := rfl
@[simp] theorem Cell.mapRefused_mem (x : Cell) (a : Abandon) : (x.mapRefused a).mem = x.mem := rfl
@[simp] theorem Cell.mapRefused_core (x : Cell) (a : Abandon) : (x.mapRefused a).core = x.core := rfl

@[simp] theorem Cell.recordRefusal_mem (x : Cell) (l : Option Abandon) : (x.recordRefusal l).mem = x.mem := by
  unfold Cell.recordRefusal; split
  · rfl
  · split <;> rfl
@[simp] theorem Cell.recordRefusal_core (x : Cell) (l : Option Abandon) : (x.recordRefusal l).core = x.core := by
  unfold Cell.recordRefusal; split
  · rfl
  · split <;> rfl

theorem Cell.enter_wf (x : Cell) (t r : Half) (ps : List Nat) (h : Memory.wf x.mem = true) : Memory.wf (x.enter t r ps).mem = true :=
  Cell.putMem_wf _ ps _ h

/-- What an entry can do: ED would pass 255 and the cell faults with code 2 (R112), the mapper refuses one of its accesses
and the cell faults with code 4 (R558), or the entry is made (R90). -/
theorem State.enterVector_cases (vector : Nat) (ret : Half) (latch : Option Abandon) :
    let x := (s.cell c).recordRefusal latch
    ((s.cell c).core.ed = 255 ∧ s.enterVector c vector ret latch = (s.setCell c x).cellFault c 2) ∨
    (∃ e, (s.cell c).core.ed ≠ 255 ∧ x.entryPlan vector = .error e ∧
      s.enterVector c vector ret latch = (s.setCell c ((x.latchTrap e ret).mapRefused e)).cellFault c 4) ∨
    (∃ t ps, (s.cell c).core.ed ≠ 255 ∧ x.entryPlan vector = .ok (t, ps) ∧
      s.enterVector c vector ret latch =
        s.setCell c (((latch.elim x fun a => x.latchTrap a ret).enter t ret ps).counted)) := by
  intro x
  have hc : x.core = (s.cell c).core := Cell.recordRefusal_core _ _
  unfold State.enterVector
  dsimp only
  split
  · exact .inl ⟨by rw [← hc]; assumption, rfl⟩
  · have hn : (s.cell c).core.ed ≠ 255 := by rw [← hc]; assumption
    split
    · exact .inr (.inl ⟨_, hn, ‹_›, rfl⟩)
    · refine .inr (.inr ⟨_, _, hn, ‹_›, ?_⟩)
      cases latch <;> rfl

theorem State.Kept.enterVector {s t : State} (h : s.Kept t) (c : CellNo) (vector : Nat) (ret : Half) (latch : Option Abandon) :
    s.Kept (t.enterVector c vector ret latch) := by
  rcases t.enterVector_cases c vector ret latch with ⟨_, e⟩ | ⟨_, _, _, e⟩ | ⟨_, ps, _, _, e⟩ <;> rw [e]
  · exact (h.setCell c (by simp)).cellFault c _
  · exact (h.setCell c (by simp)).cellFault c _
  · refine h.setCell_wf c fun w => ?_
    rw [Cell.counted_mem]
    refine Cell.enter_wf _ _ _ _ ?_
    cases latch <;> simpa

theorem State.Kept.takeTrap {s t : State} (h : s.Kept t) (c : CellNo) (a : Abandon) : s.Kept (t.takeTrap c a) :=
  h.enterVector c _ _ _

theorem State.Kept.enterSource {s t : State} (h : s.Kept t) (c : CellNo) (n : Nat) : s.Kept (t.enterSource c n) := by
  unfold State.enterSource
  dsimp only
  split
  · exact (h.modIc c _).enterVector c _ _ _
  · exact h.enterVector c _ _ _

theorem State.Kept.enterInterrupt {s t : State} (h : s.Kept t) (c : CellNo) : s.Kept (t.enterInterrupt c) := by
  unfold State.enterInterrupt
  split
  · exact h
  · exact h.enterSource c _

theorem State.Kept.finishSeq {s t : State} (h : s.Kept t) (c : CellNo) (cycles : Nat) (next : Half) :
    s.Kept (t.finishSeq c cycles next) := h.modCell c (by simp)

theorem Cell.breakLocked_mem (x : Cell) (l : List Half) : (x.breakLocked l).mem = x.mem := by
  unfold Cell.breakLocked
  split
  · rfl
  · rename_i q _
    dsimp only
    cases q.reg <;> rfl

theorem State.Kept.haltCell {s t : State} (h : s.Kept t) (c : CellNo) (cause : Byte) : s.Kept (t.haltCell c cause) := by
  unfold State.haltCell
  with_reducible apply State.Kept.raise
  with_reducible refine State.Kept.setCell h c ?_
  exact Cell.breakLocked_mem _ _

/-- What an instruction's body answers is kept. -/
def EkRes.kept (s : State) : EkRes → Prop
  | .seq t => s.Kept t
  | .jump t _ => s.Kept t
  | .gone t => s.Kept t
  | .seqTo t _ => s.Kept t
  | .trap _ => True
  | .vendor => True
  | .enter _ => True
  | .asleep => True
  | .interrupted => True

/-- An instruction whose body keeps is kept, whatever it does. -/
theorem runInstr_kept {s t : State} {c : CellNo} {bs : List Byte} {cycles taken : Nat} {body : CellNo → State → EkRes}
    (hb : (body c s).kept s) (h : runInstr c bs cycles taken body s = .next t) : s.Kept t := by
  rcases runInstr_cases (c := c) (s := s) cycles taken body bs with ⟨_, e⟩ | e | ⟨_, _, e⟩ | ⟨_, _, e⟩ | ⟨_, e⟩ <;> rw [e] at h
  · cases h
  · cases h; exact .refl s
  · cases h; exact (State.Kept.refl s).haltCell c _
  · cases h; exact (State.Kept.refl s).takeTrap c _
  · unfold State.runBody at h
    dsimp only at h
    split at h <;> rename_i hr <;> rw [hr] at hb <;> cases h
    · exact (State.Kept.refl s).takeTrap c _
    · exact hb
    · exact (State.Kept.refl s).enterVector c _ _ _
    · exact (State.Kept.refl s).enterInterrupt c
    · exact (State.Kept.refl s).modCell c (by simp [Cell.goSleep])
    · exact State.Kept.modCell hb c (by simp)
    · exact State.Kept.finishSeq hb c _ _
    · exact State.Kept.finishSeq hb c _ _

theorem coreBody_kept (f : Core → Core) : (coreBody f c s).kept s := (State.Kept.refl s).modCore c f

end Entries

end Sys2Proof.Machine
end

