-- ==== Sys2Proof/Laws/Kept.lean ====
section
/-! SUPPORT. Every operation of the model, operation by operation: an operation on a cell that stores nothing keeps its
cell space, and an operation on the state is `Kept`: the queue and the part stand, and the invariant stays. A command's
effect is a composition of these. -/

namespace Sys2Proof.Machine

theorem Cell.foldl_mem {α : Type} {f : Cell → α → Cell} (hf : ∀ y a, (f y a).mem = y.mem) (l : List α) (x : Cell) :
    (l.foldl f x).mem = x.mem := by
  induction l generalizing x with
  | nil => rfl
  | cons a r ih => rw [List.foldl_cons, ih, hf]

theorem State.Kept.msi {s₀ s : State} (h₀ : s₀.Kept s) (fn vec : Nat) : s₀.Kept (s.msi fn vec) := h₀.modLink ..

theorem State.Kept.noticeIn {s₀ s : State} (h₀ : s₀.Kept s) (ws : List Long) : s₀.Kept (s.noticeIn ws) := by
  unfold State.noticeIn
  dsimp only
  repeat' first
    | with_reducible assumption
    | with_reducible apply State.Kept.msi
    | with_reducible apply State.Kept.modLink
    | split

theorem State.Kept.noticeOwed {s₀ s : State} (h₀ : s₀.Kept s) : s₀.Kept (s.noticeOwed) := by
  unfold State.noticeOwed
  repeat' first
    | with_reducible assumption
    | with_reducible apply State.Kept.noticeIn
    | with_reducible apply State.Kept.modLink
    | split

@[simp] theorem Cell.seqFailed_mem (x : Cell) (r : LockedReg) : (x.seqFailed r).mem = x.mem := by
  unfold Cell.seqFailed
  split <;> simp

@[simp] theorem Cell.expireLocked_mem (x : Cell) : (x.expireLocked).mem = x.mem := by
  unfold Cell.expireLocked
  repeat' (first | rfl | split | simp)

theorem State.Kept.microError {s₀ s : State} (h₀ : s₀.Kept s) (u : StoreUnit) (e : MicroErr) :
    s₀.Kept (s.microError u e) := by
  unfold State.microError
  repeat' first
    | with_reducible assumption
    | with_reducible apply State.Kept.raise
    | with_reducible apply State.Kept.event
    | with_reducible refine State.Kept.mk ?_ rfl rfl

theorem State.Kept.coreCheck {s₀ s : State} (h₀ : s₀.Kept s) (c : CellNo) (e : MicroErr) : s₀.Kept (s.coreCheck c e) := by
  unfold State.coreCheck
  repeat' first
    | with_reducible assumption
    | with_reducible apply State.Kept.cellFault
    | with_reducible apply State.Kept.microError
    | with_reducible apply State.Kept.modCore
    | split

@[simp] theorem Cell.goSleep_mem (x : Cell) : (x.goSleep).mem = x.mem := by
  unfold Cell.goSleep
  rfl

@[simp] theorem Cell.putReg_mem (x : Cell) (a : Nat) (v : Byte) : (x.putReg a v).mem = x.mem := by
  unfold Cell.putReg
  rfl

@[simp] theorem Cell.putLive_mem (x : Cell) (a : Nat) (v : Byte) : (x.putLive a v).mem = x.mem := by
  unfold Cell.putLive
  rfl

@[simp] theorem Cell.writePlain_mem (x : Cell) (a : Nat) (v : Byte) : (x.writePlain a v).mem = x.mem := by
  unfold Cell.writePlain
  rfl

@[simp] theorem Cell.breakSeq_mem (x : Cell) : (x.breakSeq).mem = x.mem := by
  unfold Cell.breakSeq
  split <;> simp

@[simp] theorem Cell.writeWdCtl_mem (x : Cell) (v : Byte) : (x.writeWdCtl v).mem = x.mem := by
  unfold Cell.writeWdCtl
  simp [apply_ite Cell.mem]

@[simp] theorem Cell.writeWdConfig_mem (x : Cell) (a : Nat) (v : Byte) : (x.writeWdConfig a v).mem = x.mem := by
  unfold Cell.writeWdConfig
  simp [apply_ite Cell.mem]

@[simp] theorem Cell.kicked_mem (x : Cell) : (x.kicked).mem = x.mem := by
  unfold Cell.kicked
  rfl

@[simp] theorem Cell.keyed_mem (x : Cell) : (x.keyed).mem = x.mem := by
  unfold Cell.keyed
  simp [apply_ite Cell.mem]

@[simp] theorem Cell.writeCore_mem (x : Cell) (a : Nat) (v : Byte) : (x.writeCore a v).mem = x.mem := by
  unfold Cell.writeCore
  simp [apply_ite Cell.mem]

@[simp] theorem Cell.writeWd_mem (x : Cell) (a : Nat) (v : Byte) : (x.writeWd a v).mem = x.mem := by
  unfold Cell.writeWd
  simp [apply_ite Cell.mem]

@[simp] theorem Cell.ckReady_mem (x : Cell) : (x.ckReady).mem = x.mem := by
  unfold Cell.ckReady
  simp [apply_ite Cell.mem, Cell.foldl_mem]

@[simp] theorem Cell.ckFinish_mem (x : Cell) : (x.ckFinish).mem = x.mem := by
  unfold Cell.ckFinish
  simp [apply_ite Cell.mem]

@[simp] theorem Cell.ckAbort_mem (x : Cell) : (x.ckAbort).mem = x.mem := by
  unfold Cell.ckAbort
  rfl

@[simp] theorem Cell.ckStart_mem (x : Cell) : (x.ckStart).mem = x.mem := by
  unfold Cell.ckStart
  simp [apply_ite Cell.mem]

@[simp] theorem Cell.ckFeed_mem (x : Cell) (v : Byte) : (x.ckFeed v).mem = x.mem := by
  unfold Cell.ckFeed
  simp [apply_ite Cell.mem]

@[simp] theorem Cell.ckCommand_mem (x : Cell) (v : Byte) : (x.ckCommand v).mem = x.mem := by
  unfold Cell.ckCommand
  simp [apply_ite Cell.mem]

@[simp] theorem Cell.writeCk_mem (x : Cell) (a : Nat) (v : Byte) : (x.writeCk a v).mem = x.mem := by
  unfold Cell.writeCk
  simp [apply_ite Cell.mem]

theorem State.Kept.sliceEnqueue {s₀ s : State} (h₀ : s₀.Kept s) (c : CellNo) (ws : List Long) :
    s₀.Kept (s.sliceEnqueue c ws) := by
  unfold State.sliceEnqueue
  dsimp only
  repeat' first
    | with_reducible assumption
    | with_reducible apply State.Kept.modHost
    | split

@[simp] theorem Cell.startLine_mem (x : Cell) (clks m t : Nat) : (x.startLine clks m t).mem = x.mem := by
  unfold Cell.startLine
  rfl

@[simp] theorem Cell.resumeAt_mem (x : Cell) (pix : Nat) : (x.resumeAt pix).mem = x.mem := by
  unfold Cell.resumeAt
  rfl

@[simp] theorem Cell.writeBeam_mem (x : Cell) (a : Nat) (v : Byte) : (x.writeBeam a v).mem = x.mem := by
  unfold Cell.writeBeam
  simp [apply_ite Cell.mem]

@[simp] theorem Cell.modTm_mem (x : Cell) (n : Fin 4) (f : Tm → Tm) : (x.modTm n f).mem = x.mem := by
  unfold Cell.modTm
  rfl

@[simp] theorem Cell.tmSet_mem (x : Cell) (n : Fin 4) (v : Nat) : (x.tmSet n v).mem = x.mem := by
  unfold Cell.tmSet
  simp [apply_ite Cell.mem]

@[simp] theorem Cell.tmRun_mem (x : Cell) (n : Fin 4) (on : Bool) : (x.tmRun n on).mem = x.mem := by
  unfold Cell.tmRun
  simp [apply_ite Cell.mem]

@[simp] theorem Cell.tmFlags_mem (x : Cell) (n : Fin 4) (bits : Byte) (quiet : Bool) :
    (x.tmFlags n bits quiet).mem = x.mem := by
  unfold Cell.tmFlags
  simp [apply_ite Cell.mem]

@[simp] theorem Cell.tmTake_mem (x : Cell) (acts : List (Fin 4 × Nat × Bool)) (t : Fin 4) :
    (x.tmTake acts t).mem = x.mem := by
  unfold Cell.tmTake
  simp [apply_ite Cell.mem]

@[simp] theorem Cell.tmCount_mem (x : Cell) (n : Fin 4) : (x.tmCount n).1.mem = x.mem := by
  unfold Cell.tmCount
  simp

@[simp] theorem Cell.tmCycle_mem (x : Cell) (who quiet : BitVec 4) : (x.tmCycle who quiet).1.mem = x.mem := by
  have h1 : ∀ (l : List (Fin 4)) (p : Cell × List (Fin 4 × Byte)),
      (l.foldl (fun p n => ((p.1.tmCount n).1, p.2 ++ [(n, (p.1.tmCount n).2)])) p).1.mem = p.1.mem := by
    intro l
    induction l with
    | nil => intro p; rfl
    | cons n r ih => intro p; rw [List.foldl_cons, ih]; simp
  unfold Cell.tmCycle
  dsimp only
  rw [Cell.foldl_mem (fun y p => by simp), Cell.foldl_mem (fun y t => by simp)]
  exact h1 _ _

theorem MkState.run_mem (all : Bool) (quiet : BitVec 4) (total k : Nat) (m : MkState) :
    (MkState.run all quiet total k m).x.mem = m.x.mem := by
  induction k generalizing m with
  | zero => rfl
  | succ k ih =>
    rw [MkState.run]
    split
    · rfl
    · split
      · rfl
      · rw [ih]; simp [MkState.step]

@[simp] theorem Cell.tmLineStart_mem (x : Cell) : (x.tmLineStart).mem = x.mem := by
  unfold Cell.tmLineStart
  simp [apply_ite Cell.mem]

@[simp] theorem Cell.tmCapture_mem (x : Cell) (n : Fin 4) : (x.tmCapture n).mem = x.mem := by
  unfold Cell.tmCapture
  simp [apply_ite Cell.mem]

@[simp] theorem Cell.tmCaptureOn_mem (x : Cell) (src sh : Nat) : (x.tmCaptureOn src sh).mem = x.mem := by
  unfold Cell.tmCaptureOn
  simp [apply_ite Cell.mem, Cell.foldl_mem]

@[simp] theorem Cell.writeTg_mem (x : Cell) (v : Byte) : (x.writeTg v).mem = x.mem := by
  unfold Cell.writeTg
  simp [apply_ite Cell.mem, Cell.foldl_mem]

@[simp] theorem Cell.writeCmp_mem (x : Cell) (n : Fin 4) (high : Bool) (v : Byte) : (x.writeCmp n high v).mem = x.mem := by
  unfold Cell.writeCmp
  simp [apply_ite Cell.mem]

@[simp] theorem Cell.writeTm_mem (x : Cell) (a : Nat) (v : Byte) : (x.writeTm a v).mem = x.mem := by
  unfold Cell.writeTm
  simp [apply_ite Cell.mem]

@[simp] theorem Cell.readTm_mem (x : Cell) (a : Nat) : (x.readTm a).mem = x.mem := by
  unfold Cell.readTm
  simp [apply_ite Cell.mem]

@[simp] theorem Cell.tmMakeUp_mem (x : Cell) (all : Bool) (quiet : BitVec 4) (total : Nat) :
    (x.tmMakeUp all quiet total).mem = x.mem := by
  unfold Cell.tmMakeUp
  dsimp only
  rw [Cell.foldl_mem fun y n => by split <;> simp, MkState.run_mem]

@[simp] theorem Cell.wdTick_mem (x : Cell) : (x.wdTick).mem = x.mem := by
  unfold Cell.wdTick
  simp [apply_ite Cell.mem]

@[simp] theorem Cell.wdTopUp_mem (x : Cell) : (x.wdTopUp).mem = x.mem := by
  unfold Cell.wdTopUp
  simp [apply_ite Cell.mem]

theorem State.Kept.setLink {s₀ s : State} (h₀ : s₀.Kept s) (l : Fin 7) (st : Byte) (f : Link → Link) :
    s₀.Kept (s.setLink l st f) := by
  unfold State.setLink
  dsimp only
  repeat' first
    | with_reducible assumption
    | with_reducible apply State.Kept.raiseEvent
    | with_reducible apply State.Kept.modLinkL
    | split

theorem State.Kept.sendTo {s₀ s : State} (h₀ : s₀.Kept s) (d : BitVec 3) (kind : Nat) (last : Bool) (tag : Word) (payload : List Byte) :
    s₀.Kept (s.sendTo d kind last tag payload) := by
  unfold State.sendTo
  repeat' first
    | with_reducible assumption
    | with_reducible apply State.Kept.modSwarm
    | with_reducible apply State.Kept.modLinkL
    | split

theorem State.Kept.sendChunks {s₀ s : State} (h₀ : s₀.Kept s) (d : BitVec 3) (kind : Nat) (tag : Word) (l : List (List Byte)) :
    s₀.Kept (s.sendChunks d kind tag l) := by
  induction l generalizing s with
  | nil => exact h₀
  | cons p r ih =>
    cases r with
    | nil => exact h₀.sendTo ..
    | cons q r => exact ih (h₀.sendTo ..)

theorem State.Kept.sendParts {s₀ s : State} (h₀ : s₀.Kept s) (d : BitVec 3) (kind : Nat) (tag : Word) (l : List Byte) :
    s₀.Kept (s.sendParts d kind tag l) := h₀.sendChunks ..

theorem State.Kept.shInput {s₀ s : State} (h₀ : s₀.Kept s) (c : CellNo) (input : Nat) : s₀.Kept (s.shInput c input) := by
  unfold State.shInput
  repeat' first
    | with_reducible assumption
    | with_reducible apply State.Kept.modCell
    | (simp; done)

theorem State.Kept.shToCell {s₀ s : State} (h₀ : s₀.Kept s) (n : Fin 153) (dev : BitVec 3) (c : CellNo) (input : Nat) :
    s₀.Kept (s.shToCell n dev c input) := by
  unfold State.shToCell
  dsimp only
  repeat' first
    | with_reducible assumption
    | with_reducible apply State.Kept.sendTo
    | with_reducible apply State.Kept.shInput
    | with_reducible apply State.Kept.modSource
    | split

theorem State.Kept.fireShared {s₀ s : State} (h₀ : s₀.Kept s) (n : Fin 153) : s₀.Kept (s.fireShared n) := by
  unfold State.fireShared
  dsimp only
  repeat' first
    | with_reducible assumption
    | with_reducible apply State.Kept.shToCell
    | with_reducible apply State.Kept.raise
    | with_reducible apply State.Kept.msi
    | with_reducible apply State.Kept.modSource
    | split

@[simp] theorem Cell.snapshot_mem (x : Cell) (base n : Nat) : (x.snapshot base n).mem = x.mem := by
  unfold Cell.snapshot
  rfl

@[simp] theorem Cell.snapBegin_mem (x : Cell) : (x.snapBegin).mem = x.mem := by
  unfold Cell.snapBegin
  rfl

@[simp] theorem Cell.spriteFlags_mem (x : Cell) (line : Nat) (dropped : Option Nat) (coll : Option (Nat × Nat)) (range : Bool) :
    (x.spriteFlags line dropped coll range).mem = x.mem := by
  unfold Cell.spriteFlags
  simp [apply_ite Cell.mem]

@[simp] theorem Cell.loadRx_mem (x : Cell) : (x.loadRx).mem = x.mem := by
  unfold Cell.loadRx
  rfl

@[simp] theorem Cell.loadRy_mem (x : Cell) : (x.loadRy).mem = x.mem := by
  unfold Cell.loadRy
  rfl

@[simp] theorem Cell.affineNext_mem (x : Cell) : (x.affineNext).mem = x.mem := by
  unfold Cell.affineNext
  rfl

@[simp] theorem Cell.logWrite_mem (x : Cell) (pix : Nat) (w : LlWrite) : (x.logWrite pix w).mem = x.mem := by
  unfold Cell.logWrite
  simp [apply_ite Cell.mem]

@[simp] theorem Cell.wbFinish_mem (x : Cell) : (x.wbFinish).mem = x.mem := by
  unfold Cell.wbFinish
  simp [apply_ite Cell.mem]

@[simp] theorem Cell.writeback_mem (x : Cell) (line : Nat) (p : Pixels) : (x.writeback line p).mem = x.mem := by
  unfold Cell.writeback
  simp [apply_ite Cell.mem]

theorem State.Kept.deliver {s₀ s : State} (h₀ : s₀.Kept s) (c : CellNo) (line : Nat) (p : Pixels) (rep black : Bool) :
    s₀.Kept (s.deliver c line p rep black) := by
  unfold State.deliver
  dsimp only
  repeat' first
    | with_reducible assumption
    | with_reducible apply State.Kept.sendParts
    | with_reducible apply State.Kept.sliceEnqueue
    | with_reducible apply State.Kept.setCell
    | split
    | (simp; done)

theorem State.Kept.releaseSlot {s₀ s : State} (h₀ : s₀.Kept s) (c : CellNo) (deadline : Nat) :
    s₀.Kept (s.releaseSlot c deadline) := by
  unfold State.releaseSlot
  dsimp only
  repeat' first
    | with_reducible assumption
    | with_reducible apply State.Kept.modVid
    | split

@[simp] theorem Cell.wgFlags_mem (x : Cell) (sl : Slot) : (x.wgFlags sl).mem = x.mem := by
  unfold Cell.wgFlags
  simp [apply_ite Cell.mem]

@[simp] theorem Cell.compFlags_mem (x : Cell) (d : Draw) : (x.compFlags d).mem = x.mem := by
  unfold Cell.compFlags
  simp [apply_ite Cell.mem]

@[simp] theorem Cell.applyLl_mem (x : Cell) (w : LlWrite) : (x.applyLl w).mem = x.mem := by
  cases w with
  | reg a v => unfold Cell.applyLl; simp [apply_ite Cell.mem]
  | pal i rgb => rfl

@[simp] theorem applyAll_mem (l : List (Nat × LlWrite)) (x : Cell) : (applyAll l x).mem = x.mem := by
  unfold applyAll
  exact Cell.foldl_mem (fun y w => y.applyLl_mem _) l x

theorem applyUpTo_mem (px : Nat) (l : List (Nat × LlWrite)) (x : Cell) : (applyUpTo px l x).1.mem = x.mem := by
  induction l generalizing x with
  | nil => rfl
  | cons a r ih =>
    unfold applyUpTo
    split
    · rw [ih]; simp
    · rfl

theorem Draw.pixel_mem (py : Nat) (d : Draw) (px : Nat) : (d.pixel py px).x.mem = d.x.mem := applyUpTo_mem px d.writes d.x

@[simp] theorem Cell.drawLine_mem (x : Cell) (py : Nat) (w : List (Nat × LlWrite)) (sl : SpriteLine) :
    (x.drawLine py w sl).x.mem = x.mem := by
  have h : ∀ (l : List Nat) (d : Draw), (l.foldl (Draw.pixel py) d).x.mem = d.x.mem := by
    intro l
    induction l with
    | nil => intro d; rfl
    | cons a r ih => intro d; rw [List.foldl_cons, ih, Draw.pixel_mem]
  exact h _ _

@[simp] theorem Cell.catchUp_mem (log : List LogEnt) (x : Cell) (l : Nat × List (Nat × LlWrite)) :
    (Cell.catchUp log x l).mem = x.mem := by
  unfold Cell.catchUp
  simp [apply_ite Cell.mem]

theorem State.Kept.completeSlot {s₀ s : State} (h₀ : s₀.Kept s) (k : Fin 24) (c : CellNo) (sl : Slot) :
    s₀.Kept (s.completeSlot k c sl) := by
  unfold State.completeSlot
  extract_lets x sl log now stale b x2 x3 x4 x5 writes spr d y1 y2 y3 cost co v y4 y5 short notice v2 s1 s2 s3
  have hx : x5.mem = (s.cell c).mem := by
    simp [x5, x4, x3, x2, x, apply_ite Cell.mem, Cell.foldl_mem]
  have hy : y5.mem = (s.cell c).mem := by
    simp [y5, y4, y3, y2, y1, d, hx]
  have h1 : s₀.Kept s1 := h₀.setCell c hy
  have h2 : s₀.Kept s2 := by
    unfold s2
    split
    · exact h1.raise ..
    · exact h1
  exact (h2.modComb k _).deliver ..

theorem State.Kept.missSlot {s₀ s : State} (h₀ : s₀.Kept s) (c : CellNo) (sl : Slot) : s₀.Kept (s.missSlot c sl) := by
  unfold State.missSlot
  repeat' first
    | with_reducible assumption
    | with_reducible apply State.Kept.raise
    | with_reducible apply State.Kept.deliver
    | with_reducible apply State.Kept.setCell
    | with_reducible apply State.Kept.modComb
    | split
    | (simp; done)

theorem State.Kept.setPte {s₀ s : State} (h₀ : s₀.Kept s) (i : Nat) (e : Long) : s₀.Kept (s.setPte i e) := h₀.modKeeper ..

theorem State.Kept.allocPages {s₀ s : State} (h₀ : s₀.Kept s) (c : CellNo) (ro : Nat) (l : List PageAlloc) :
    s₀.Kept (s.allocPages c ro l) := by
  unfold State.allocPages
  repeat' first
    | with_reducible assumption
    | with_reducible apply State.Kept.setPte
    | with_reducible apply State.Kept.modKp
    | with_reducible refine State.Kept.foldl ?_ _ ?_
    | split
    | intro _ _ _

theorem State.Kept.releasePages {s₀ s : State} (h₀ : s₀.Kept s) (c : CellNo) : s₀.Kept (s.releasePages c) := by
  unfold State.releasePages
  repeat' first
    | with_reducible assumption
    | with_reducible apply State.Kept.setPte
    | with_reducible apply State.Kept.modKp
    | with_reducible apply State.Kept.modKeeper
    | with_reducible refine State.Kept.foldl ?_ _ ?_
    | split
    | intro _ _ _

theorem State.Kept.startMove {s₀ s : State} (h₀ : s₀.Kept s) (page : Nat) (dest : Place) (forced : Bool) :
    s₀.Kept (s.startMove page dest forced) := by
  unfold State.startMove
  repeat' first
    | with_reducible assumption
    | with_reducible apply State.Kept.setPte
    | with_reducible apply State.Kept.modKeeper

theorem State.Kept.endMove {s₀ s : State} (h₀ : s₀.Kept s) (m : PageMove) : s₀.Kept (s.endMove m) := by
  unfold State.endMove
  repeat' first
    | with_reducible assumption
    | with_reducible apply State.Kept.setPte
    | with_reducible apply State.Kept.modKp
    | with_reducible apply State.Kept.modKeeper
    | with_reducible refine State.Kept.foldl ?_ _ ?_
    | intro _ _ _

theorem State.Kept.giveCore {s₀ s : State} (h₀ : s₀.Kept s) (c : CellNo) (k : Fin 128) : s₀.Kept (s.giveCore c k) := by
  unfold State.giveCore
  repeat' first
    | with_reducible assumption
    | with_reducible apply State.Kept.modKp
    | with_reducible refine State.Kept.foldl ?_ _ ?_
    | intro _ _ _

theorem State.Kept.fenceUnit {s₀ s : State} (h₀ : s₀.Kept s) (q : Nat × Nat) : s₀.Kept (s.fenceUnit q) := by
  unfold State.fenceUnit
  dsimp only
  repeat' first
    | with_reducible assumption
    | with_reducible apply State.Kept.raiseEvent
    | with_reducible apply State.Kept.modKeeper
    | split

theorem State.Kept.fenceCheck {s₀ s : State} (h₀ : s₀.Kept s) : s₀.Kept (s.fenceCheck) := by
  unfold State.fenceCheck
  repeat' first
    | with_reducible assumption
    | with_reducible apply State.Kept.fenceUnit
    | with_reducible refine State.Kept.foldl ?_ _ ?_
    | intro _ _ _

theorem State.Kept.scoutStep {s₀ s : State} (h₀ : s₀.Kept s) (kind u : Nat) (exceeded good : Bool) :
    s₀.Kept (s.scoutStep kind u exceeded good) := by
  unfold State.scoutStep
  dsimp only
  repeat' first
    | with_reducible assumption
    | with_reducible apply State.Kept.raiseEvent
    | with_reducible apply State.Kept.modKeeper
    | split

theorem State.Kept.scoutRead {s₀ s : State} (h₀ : s₀.Kept s) (r : ScoutRead) : s₀.Kept (s.scoutRead r) := by
  unfold State.scoutRead
  repeat' first
    | with_reducible assumption
    | with_reducible apply State.Kept.scoutStep
    | with_reducible apply State.Kept.modKeeper
    | with_reducible apply State.Kept.modSwarm
    | split

theorem State.Kept.combScouts {s₀ s : State} (h₀ : s₀.Kept s) : s₀.Kept (s.combScouts) := by
  unfold State.combScouts
  repeat' first
    | with_reducible assumption
    | with_reducible apply State.Kept.scoutStep
    | with_reducible apply State.Kept.modComb
    | with_reducible refine State.Kept.foldl ?_ _ ?_
    | intro _ _ _

theorem State.Kept.soloCheck {s₀ s : State} (h₀ : s₀.Kept s) : s₀.Kept (s.soloCheck) := by
  unfold State.soloCheck
  repeat' first
    | with_reducible assumption
    | with_reducible apply State.Kept.raise
    | with_reducible apply State.Kept.modKeeper
    | with_reducible refine State.Kept.foldl ?_ _ ?_
    | split
    | intro _ _ _

theorem State.Kept.keeperFrame {s₀ s : State} (h₀ : s₀.Kept s) : s₀.Kept (s.keeperFrame) := h₀.modKeeper ..

theorem State.Kept.setHeadLink {s₀ s : State} (h₀ : s₀.Kept s) (h : Fin 4) (st : Byte) (lanes rate : Nat) :
    s₀.Kept (s.setHeadLink h st lanes rate) := by
  unfold State.setHeadLink
  dsimp only
  repeat' first
    | with_reducible assumption
    | with_reducible apply State.Kept.raise
    | with_reducible apply State.Kept.modHead
    | split

theorem State.Kept.trainHead {s₀ s : State} (h₀ : s₀.Kept s) (h : Fin 4) : s₀.Kept (s.trainHead h) := by
  unfold State.trainHead
  repeat' first
    | with_reducible assumption
    | with_reducible apply State.Kept.setHeadLink
    | split

theorem State.Kept.headTrained {s₀ s : State} (h₀ : s₀.Kept s) (h : Fin 4) (ok : Bool) : s₀.Kept (s.headTrained h ok) := by
  unfold State.headTrained
  dsimp only
  repeat' first
    | with_reducible assumption
    | with_reducible apply State.Kept.setHeadLink
    | split

theorem State.Kept.headEnable {s₀ s : State} (h₀ : s₀.Kept s) (h : Fin 4) (on : Bool) : s₀.Kept (s.headEnable h on) := by
  unfold State.headEnable
  dsimp only
  repeat' first
    | with_reducible assumption
    | with_reducible apply State.Kept.trainHead
    | with_reducible apply State.Kept.setHeadLink
    | with_reducible apply State.Kept.modHead
    | split

theorem State.Kept.headsUpdate {s₀ s : State} (h₀ : s₀.Kept s) (c : CellNo) : s₀.Kept (s.headsUpdate c) := h₀.modVid ..

theorem State.Kept.winEval {s₀ s : State} (h₀ : s₀.Kept s) (h : Fin 4) (n : Nat) : s₀.Kept (s.winEval h n) := by
  unfold State.winEval
  dsimp only
  repeat' first
    | with_reducible assumption
    | with_reducible apply State.Kept.headsUpdate
    | with_reducible apply State.Kept.raise
    | with_reducible apply State.Kept.modHead
    | split

theorem State.Kept.headUnderrun {s₀ s : State} (h₀ : s₀.Kept s) (h : Fin 4) (l : Fin 2) (py : Nat) :
    s₀.Kept (s.headUnderrun h l py) := by
  unfold State.headUnderrun
  dsimp only
  repeat' first
    | with_reducible assumption
    | with_reducible apply State.Kept.fireShared
    | with_reducible apply State.Kept.raise
    | with_reducible apply State.Kept.modHead
    | split

theorem State.Kept.headLate {s₀ s : State} (h₀ : s₀.Kept s) (h : Fin 4) (py : Nat) :
    s₀.Kept (s.headLate h py) := h₀.modHead ..

theorem State.Kept.headCompose {s₀ s : State} (h₀ : s₀.Kept s) (h : Fin 4) (py : Nat) : s₀.Kept (s.headCompose h py) := by
  unfold State.headCompose
  repeat' first
    | with_reducible assumption
    | with_reducible apply State.Kept.headUnderrun
    | with_reducible apply State.Kept.headLate
    | with_reducible apply State.Kept.modHead

theorem State.Kept.flipSample {s₀ s : State} (h₀ : s₀.Kept s) (h : Fin 4) (l : Fin 2) : s₀.Kept (s.flipSample h l) := by
  unfold State.flipSample
  dsimp only
  repeat' first
    | with_reducible assumption
    | with_reducible apply State.Kept.raise
    | with_reducible apply State.Kept.modHead
    | split

theorem State.Kept.rowArrive {s₀ s : State} (h₀ : s₀.Kept s) (h : Fin 4) (l : Fin 2) (py : Nat) (dir : Word) (bytes : List Byte) :
    s₀.Kept (s.rowArrive h l py dir bytes) := by
  unfold State.rowArrive
  repeat' first
    | with_reducible assumption
    | with_reducible apply State.Kept.modHead
    | split

theorem State.Kept.headBlank {s₀ s : State} (h₀ : s₀.Kept s) (h : Fin 4) : s₀.Kept (s.headBlank h) := by
  unfold State.headBlank
  dsimp only
  repeat' first
    | with_reducible assumption
    | with_reducible apply State.Kept.setHeadLink
    | with_reducible apply State.Kept.fireShared
    | with_reducible apply State.Kept.flipSample
    | with_reducible apply State.Kept.winEval
    | with_reducible apply State.Kept.modHead
    | with_reducible refine State.Kept.foldl ?_ _ ?_
    | split
    | intro _ _ _

theorem State.Kept.headLineStart {s₀ s : State} (h₀ : s₀.Kept s) (h : Fin 4) : s₀.Kept (s.headLineStart h) := by
  unfold State.headLineStart
  dsimp only
  repeat' first
    | with_reducible assumption
    | with_reducible apply State.Kept.headBlank
    | with_reducible apply State.Kept.headCompose
    | with_reducible apply State.Kept.modHead
    | split

theorem State.Kept.modQueue {s₀ s : State} (h₀ : s₀.Kept s) (q : QueueId) (f : Queue → Queue) :
    s₀.Kept (s.modQueue q f) := by
  unfold State.modQueue
  repeat' first
    | with_reducible assumption
    | with_reducible apply State.Kept.modHost
    | with_reducible apply State.Kept.modLink
    | split

theorem State.Kept.msiOf {s₀ s : State} (h₀ : s₀.Kept s) (q : QueueId) (vf pf : Nat) : s₀.Kept (s.msiOf q vf pf) := by
  unfold State.msiOf
  repeat' first
    | with_reducible assumption
    | with_reducible apply State.Kept.msi
    | split

theorem State.Kept.msiVf {s₀ s : State} (h₀ : s₀.Kept s) (c : CellNo) (vec : Nat) : s₀.Kept (s.msiVf c vec) := h₀.msiOf ..

theorem State.Kept.evqRoom {s₀ s : State} (h₀ : s₀.Kept s) (c : CellNo) (was : Bool) : s₀.Kept (s.evqRoom c was) := by
  unfold State.evqRoom
  repeat' first
    | with_reducible assumption
    | with_reducible apply State.Kept.edge
    | split

theorem State.Kept.afterTake {s₀ s : State} (h₀ : s₀.Kept s) (q : QueueId) (before : Queue) :
    s₀.Kept (s.afterTake q before) := by
  unfold State.afterTake
  repeat' first
    | with_reducible assumption
    | with_reducible apply State.Kept.evqRoom
    | with_reducible apply State.Kept.noticeOwed
    | split

theorem State.Kept.roomBack {s₀ s : State} (h₀ : s₀.Kept s) (q : QueueId) : s₀.Kept (s.roomBack q) := by
  unfold State.roomBack
  dsimp only
  repeat' first
    | with_reducible assumption
    | with_reducible apply State.Kept.modQueue
    | with_reducible apply State.Kept.msiOf
    | split

theorem State.Kept.rewind {s₀ s : State} (h₀ : s₀.Kept s) (q : QueueId) (full : Bool) : s₀.Kept (s.rewind q full) := by
  unfold State.rewind
  repeat' first
    | with_reducible assumption
    | with_reducible apply State.Kept.modQueue
    | with_reducible apply State.Kept.modHost
    | with_reducible apply State.Kept.modLink
    | split

theorem State.Kept.inputForward {s₀ s : State} (h₀ : s₀.Kept s) (c : CellNo) : s₀.Kept (s.inputForward c) := by
  unfold State.inputForward
  repeat' first
    | with_reducible assumption
    | with_reducible apply State.Kept.sendTo
    | with_reducible apply State.Kept.roomBack
    | with_reducible apply State.Kept.modHost
    | split

theorem State.Kept.windowWord {s₀ s : State} (h₀ : s₀.Kept s) (q : QueueId) (data tag : Long) :
    s₀.Kept (s.windowWord q data tag) := by
  unfold State.windowWord
  dsimp only
  repeat' first
    | with_reducible assumption
    | with_reducible apply State.Kept.modQueue
    | with_reducible apply State.Kept.rewind
    | with_reducible apply State.Kept.inputForward
    | split

theorem State.Kept.deliverPacket {s₀ s : State} (h₀ : s₀.Kept s) (q : QueueId) : s₀.Kept (s.deliverPacket q) := by
  unfold State.deliverPacket
  dsimp only
  repeat' first
    | with_reducible assumption
    | with_reducible apply State.Kept.modQueue
    | with_reducible apply State.Kept.msiOf
    | with_reducible apply State.Kept.afterTake
    | with_reducible apply State.Kept.modHost
    | split

theorem State.Kept.popWord {s₀ s : State} (h₀ : s₀.Kept s) (q : QueueId) : s₀.Kept (s.popWord q) := by
  unfold State.popWord
  dsimp only
  repeat' first
    | with_reducible assumption
    | with_reducible apply State.Kept.modQueue
    | with_reducible apply State.Kept.afterTake
    | split

theorem State.Kept.stallQueue {s₀ s : State} (h₀ : s₀.Kept s) (q : QueueId) : s₀.Kept (s.stallQueue q) := by
  unfold State.stallQueue
  dsimp only
  repeat' first
    | with_reducible assumption
    | with_reducible apply State.Kept.modQueue
    | with_reducible apply State.Kept.msiOf
    | with_reducible apply State.Kept.raise
    | with_reducible apply State.Kept.modHost
    | split

theorem State.Kept.vfReset {s₀ s : State} (h₀ : s₀.Kept s) (c : CellNo) : s₀.Kept (s.vfReset c) := by
  unfold State.vfReset
  repeat' first
    | with_reducible assumption
    | with_reducible apply State.Kept.evqRoom
    | with_reducible apply State.Kept.modHost

theorem State.Kept.vfsOff {s₀ s : State} (h₀ : s₀.Kept s) : s₀.Kept (s.vfsOff) := by
  unfold State.vfsOff
  repeat' first
    | with_reducible assumption
    | with_reducible apply State.Kept.vfReset
    | with_reducible apply State.Kept.modLink
    | with_reducible refine State.Kept.foldl ?_ _ ?_
    | split
    | intro _ _ _

theorem State.Kept.applyInput {s₀ s : State} (h₀ : s₀.Kept s) (c : CellNo) (src : Byte) (pins : Nat → Long) :
    s₀.Kept (s.applyInput c src pins) := by
  unfold State.applyInput
  dsimp only
  repeat' first
    | with_reducible assumption
    | with_reducible apply State.Kept.roomBack
    | with_reducible apply State.Kept.edge
    | with_reducible apply State.Kept.modHost
    | with_reducible refine State.Kept.foldl ?_ _ ?_
    | split

theorem State.Kept.mailboxIn {s₀ s : State} (h₀ : s₀.Kept s) (c : CellNo) (v : Long) : s₀.Kept (s.mailboxIn c v) := by
  unfold State.mailboxIn
  repeat' first
    | with_reducible assumption
    | with_reducible apply State.Kept.edge
    | with_reducible apply State.Kept.modHost

theorem State.Kept.mailboxWrite {s₀ s : State} (h₀ : s₀.Kept s) (c : CellNo) (v : Long) : s₀.Kept (s.mailboxWrite c v) := by
  unfold State.mailboxWrite
  repeat' first
    | with_reducible assumption
    | with_reducible apply State.Kept.sendTo
    | with_reducible apply State.Kept.mailboxIn
    | with_reducible apply State.Kept.modHost
    | split

theorem State.Kept.mailboxAck {s₀ s : State} (h₀ : s₀.Kept s) (c : CellNo) : s₀.Kept (s.mailboxAck c) := by
  unfold State.mailboxAck
  dsimp only
  repeat' first
    | with_reducible assumption
    | with_reducible apply State.Kept.sendTo
    | with_reducible apply State.Kept.msiVf
    | with_reducible apply State.Kept.modHost
    | split

theorem State.Kept.evCommit {s₀ s : State} (h₀ : s₀.Kept s) (c : CellNo) (ws : List Long) : s₀.Kept (s.evCommit c ws) := by
  unfold State.evCommit
  dsimp only
  repeat' first
    | with_reducible assumption
    | with_reducible apply State.Kept.sendTo
    | with_reducible apply State.Kept.msiVf
    | with_reducible apply State.Kept.modHost
    | split

theorem State.Kept.evPush {s₀ s : State} (h₀ : s₀.Kept s) (c : CellNo) : s₀.Kept (s.evPush c) := by
  unfold State.evPush
  dsimp only
  repeat' first
    | with_reducible assumption
    | with_reducible apply State.Kept.evqRoom
    | with_reducible apply State.Kept.evCommit
    | with_reducible apply State.Kept.modHost
    | split

theorem State.Kept.evWrite {s₀ s : State} (h₀ : s₀.Kept s) (c : CellNo) (i : Nat) (v : Byte) :
    s₀.Kept (s.evWrite c i v) := by
  unfold State.evWrite
  repeat' first
    | with_reducible assumption
    | with_reducible apply State.Kept.evPush
    | with_reducible apply State.Kept.modHost
    | split

theorem State.Kept.evDrop {s₀ s : State} (h₀ : s₀.Kept s) (c : CellNo) : s₀.Kept (s.evDrop c) := by
  unfold State.evDrop
  repeat' first
    | with_reducible assumption
    | with_reducible apply State.Kept.evqRoom
    | with_reducible apply State.Kept.modHost

theorem State.Kept.writeHost {s₀ s : State} (h₀ : s₀.Kept s) (c : CellNo) (a : Nat) (v : Byte) :
    s₀.Kept (s.writeHost c a v) := by
  unfold State.writeHost
  repeat' first
    | with_reducible assumption
    | with_reducible apply State.Kept.mailboxAck
    | with_reducible apply State.Kept.evWrite
    | with_reducible apply State.Kept.evDrop
    | with_reducible apply State.Kept.modHost
    | split

@[simp] theorem Cell.modVoice_mem (x : Cell) (v : Fin 16) (f : Voice → Voice) : (x.modVoice v f).mem = x.mem := by
  unfold Cell.modVoice
  rfl

@[simp] theorem Cell.sndFrame_mem (x : Cell) (clks : Nat) : (x.sndFrame clks).mem = x.mem := by
  unfold Cell.sndFrame
  rfl

@[simp] theorem Cell.sndLog_mem (x : Cell) (pix a : Nat) (bytes : List Byte) : (x.sndLog pix a bytes).mem = x.mem := by
  unfold Cell.sndLog
  rfl

@[simp] theorem Cell.fifoPush_mem (x : Cell) (v : Fin 16) (b : Byte) : (x.fifoPush v b).mem = x.mem := by
  unfold Cell.fifoPush
  rfl

@[simp] theorem Cell.fifoFlush_mem (x : Cell) (v : Fin 16) : (x.fifoFlush v).mem = x.mem := by
  unfold Cell.fifoFlush
  rfl

@[simp] theorem Cell.putRegs_mem (x : Cell) (a : Nat) (l : List Byte) : (x.putRegs a l).mem = x.mem := by
  induction l generalizing x a with
  | nil => rfl
  | cons v r ih => rw [Cell.putRegs, ih]; simp

@[simp] theorem Cell.writeSnd_mem (x : Cell) (pix a : Nat) (v : Byte) : (x.writeSnd pix a v).mem = x.mem := by
  unfold Cell.writeSnd
  repeat' (first | rfl | split | simp)

@[simp] theorem Cell.voiceEnd_mem (x : Cell) (v : Fin 16) : (x.voiceEnd v).mem = x.mem := by
  unfold Cell.voiceEnd
  rfl

@[simp] theorem Cell.envStep_mem (x : Cell) (v : Fin 16) (all : Bool) : (x.envStep v all).mem = x.mem := by
  unfold Cell.envStep
  simp [apply_ite Cell.mem]

@[simp] theorem Cell.envSettle_mem (x : Cell) (v : Fin 16) : (x.envSettle v).mem = x.mem := by
  unfold Cell.envSettle
  simp [apply_ite Cell.mem]

@[simp] theorem Cell.envTick_mem (x : Cell) (v : Fin 16) : (x.envTick v).mem = x.mem := by
  unfold Cell.envTick
  simp [apply_ite Cell.mem]

@[simp] theorem Cell.streamPop_mem (x : Cell) (v : Fin 16) : (x.streamPop v).mem = x.mem := by
  unfold Cell.streamPop
  rfl

@[simp] theorem Cell.keyOn_mem (x : Cell) (v : Fin 16) : (x.keyOn v).mem = x.mem := by
  unfold Cell.keyOn
  simp [apply_ite Cell.mem]

@[simp] theorem Cell.keyOff_mem (x : Cell) (v : Fin 16) : (x.keyOff v).mem = x.mem := by
  unfold Cell.keyOff
  simp [apply_ite Cell.mem]

@[simp] theorem Cell.sndApply_mem (x : Cell) (a : Nat) (b : Byte) : (x.sndApply a b).mem = x.mem := by
  unfold Cell.sndApply
  simp [apply_ite Cell.mem]

@[simp] theorem Cell.sndApplyAll_mem (x : Cell) (a : Nat) (l : List Byte) : (x.sndApplyAll a l).mem = x.mem := by
  induction l generalizing x a with
  | nil => rfl
  | cons v r ih => rw [Cell.sndApplyAll, ih]; simp

@[simp] theorem Cell.sndTake_mem (x : Cell) (pix : Nat) : (x.sndTake pix).mem = x.mem := by
  unfold Cell.sndTake
  simp [Cell.foldl_mem]

@[simp] theorem Cell.streamPops_mem (v : Fin 16) (n : Nat) (x : Cell) : (Cell.streamPops v n x).mem = x.mem := by
  induction n generalizing x with
  | zero => rfl
  | succ n ih => rw [Cell.streamPops, ih]; simp

@[simp] theorem Cell.vcAdvance_mem (x : Cell) (v : Fin 16) : (x.vcAdvance v).mem = x.mem := by
  unfold Cell.vcAdvance
  simp [apply_ite Cell.mem]

@[simp] theorem Cell.voicePoint_mem (x : Cell) (late : BitVec 16) (v : Fin 16) : (x.voicePoint late v).mem = x.mem := by
  unfold Cell.voicePoint
  simp [apply_ite Cell.mem]

@[simp] theorem Cell.streamNeed_mem (x : Cell) (before : Nat) (v : Fin 16) : (x.streamNeed before v).mem = x.mem := by
  unfold Cell.streamNeed
  rfl

@[simp] theorem Cell.soundPoint_mem (x : Cell) (pix : Nat) (late : BitVec 16) : (x.soundPoint pix late).mem = x.mem := by
  unfold Cell.soundPoint
  simp [apply_ite Cell.mem, Cell.foldl_mem]

theorem State.Kept.portSample {s₀ s : State} (h₀ : s₀.Kept s) (n : Fin 4) (mic : BitVec 24) :
    s₀.Kept (s.portSample n mic) := by
  unfold State.portSample
  repeat' first
    | with_reducible assumption
    | with_reducible apply State.Kept.modPort
    | with_reducible refine State.Kept.mk ?_ rfl rfl

theorem State.Kept.hostSample {s₀ s : State} (h₀ : s₀.Kept s) (c : CellNo) : s₀.Kept (s.hostSample c) := by
  unfold State.hostSample
  dsimp only
  repeat' first
    | with_reducible assumption
    | with_reducible apply State.Kept.modCell
    | with_reducible rfl
    | split
    | with_reducible refine State.Kept.mk ?_ rfl rfl

theorem State.Kept.familySample {s₀ s : State} (h₀ : s₀.Kept s) (fam : Bool) (mics : List (BitVec 24)) :
    s₀.Kept (s.familySample fam mics) := by
  unfold State.familySample
  repeat' first
    | with_reducible assumption
    | with_reducible apply State.Kept.portSample
    | with_reducible apply State.Kept.hostSample
    | with_reducible refine State.Kept.foldl ?_ _ ?_
    | split
    | intro _ _ _

theorem State.Kept.jackReady {s₀ s : State} (h₀ : s₀.Kept s) (n : Fin 4) (kind : Byte) (code : Half) :
    s₀.Kept (s.jackReady n kind code) := by
  unfold State.jackReady
  repeat' first
    | with_reducible assumption
    | with_reducible apply State.Kept.fireShared
    | with_reducible apply State.Kept.modPort

theorem State.Kept.jackTyped {s₀ s : State} (h₀ : s₀.Kept s) (n : Fin 4) (codes : List Nat) :
    s₀.Kept (s.jackTyped n codes) := by
  unfold State.jackTyped
  dsimp only
  repeat' first
    | with_reducible assumption
    | with_reducible apply State.Kept.jackReady
    | with_reducible apply State.Kept.modPort
    | with_reducible refine State.Kept.foldl ?_ _ ?_
    | split

theorem State.Kept.buttonRead {s₀ s : State} (h₀ : s₀.Kept s) (n : Fin 4) (code : Nat) : s₀.Kept (s.buttonRead n code) := by
  unfold State.buttonRead
  dsimp only
  repeat' first
    | with_reducible assumption
    | with_reducible apply State.Kept.fireShared
    | with_reducible apply State.Kept.modPort
    | split

theorem State.Kept.audioEnqueue {s₀ s : State} (h₀ : s₀.Kept s) (c : CellNo) (stream port : Nat) (bits24 : Bool) (index : Word) (l : List Int) :
    s₀.Kept (s.audioEnqueue c stream port bits24 index l) := by
  unfold State.audioEnqueue
  repeat' first
    | with_reducible assumption
    | with_reducible apply State.Kept.modHost
    | split

theorem State.Kept.audioStream0 {s₀ s : State} (h₀ : s₀.Kept s) (c : CellNo) : s₀.Kept (s.audioStream0 c) := by
  unfold State.audioStream0
  repeat' first
    | with_reducible assumption
    | with_reducible apply State.Kept.audioEnqueue
    | with_reducible apply State.Kept.modCell
    | with_reducible rfl
    | split
    | with_reducible refine State.Kept.mk ?_ rfl rfl

theorem State.Kept.audioStream1 {s₀ s : State} (h₀ : s₀.Kept s) (c : CellNo) (n : Fin 4) :
    s₀.Kept (s.audioStream1 c n) := by
  unfold State.audioStream1
  dsimp only
  repeat' first
    | with_reducible assumption
    | with_reducible apply State.Kept.audioEnqueue
    | with_reducible apply State.Kept.modCell
    | with_reducible rfl
    | split
    | with_reducible refine State.Kept.mk ?_ rfl rfl

theorem State.Kept.setAudClk {s₀ s : State} (h₀ : s₀.Kept s) (v : Byte) : s₀.Kept (s.setAudClk v) := by
  unfold State.setAudClk
  repeat' first
    | with_reducible assumption
    | with_reducible apply State.Kept.raise
    | split
    | with_reducible refine State.Kept.mk ?_ rfl rfl

theorem State.Kept.modDom {s₀ s : State} (h₀ : s₀.Kept s) (d : Nat) (f : Dom → Dom) : s₀.Kept (s.modDom d f) := h₀.modPwr ..

theorem State.Kept.setDom {s₀ s : State} (h₀ : s₀.Kept s) (d : Nat) (st : Byte) : s₀.Kept (s.setDom d st) := by
  unfold State.setDom
  repeat' first
    | with_reducible assumption
    | with_reducible apply State.Kept.modDom
    | with_reducible apply State.Kept.raise
    | split

theorem State.Kept.chanOk {s₀ s : State} (h₀ : s₀.Kept s) (c : Fin 8) (us : Nat) : s₀.Kept (s.chanOk c us) := h₀.modChan ..

theorem State.Kept.chanFail {s₀ s : State} (h₀ : s₀.Kept s) (c : Fin 8) (code us : Nat) :
    s₀.Kept (s.chanFail c code us) := by
  unfold State.chanFail
  repeat' first
    | with_reducible assumption
    | with_reducible apply State.Kept.raise
    | with_reducible apply State.Kept.setDom
    | with_reducible apply State.Kept.event
    | with_reducible apply State.Kept.modChan
    | with_reducible apply State.Kept.objPut

theorem State.Kept.chanTrained {s₀ s : State} (h₀ : s₀.Kept s) (c : Fin 8) (t : ChanTrain) :
    s₀.Kept (s.chanTrained c t) := by
  unfold State.chanTrained
  repeat' first
    | with_reducible assumption
    | with_reducible apply State.Kept.chanFail
    | with_reducible apply State.Kept.chanOk
    | with_reducible apply State.Kept.modChan
    | split
    | with_reducible refine State.Kept.mk ?_ rfl rfl

theorem State.Kept.trainAll {s₀ s : State} (h₀ : s₀.Kept s) (l : List ChanTrain) : s₀.Kept (s.trainAll l) := by
  unfold State.trainAll
  repeat' first
    | with_reducible assumption
    | with_reducible apply State.Kept.chanTrained
    | with_reducible refine State.Kept.foldl ?_ _ ?_
    | with_reducible refine State.Kept.mk ?_ rfl rfl
    | intro _ _ _

theorem State.Kept.formArea {s₀ s : State} (h₀ : s₀.Kept s) (area : List (BitVec 17)) : s₀.Kept (s.formArea area) := by
  unfold State.formArea
  repeat' first
    | with_reducible assumption
    | with_reducible apply State.Kept.setPte
    | with_reducible refine State.Kept.foldl ?_ _ ?_
    | intro _ _ _

theorem State.Kept.countCe {s₀ s : State} (h₀ : s₀.Kept s) (u : Nat) : s₀.Kept (s.countCe u) := by
  unfold State.countCe
  repeat' first
    | with_reducible assumption
    | with_reducible apply State.Kept.modChan
    | split
    | with_reducible refine State.Kept.mk ?_ rfl rfl

theorem State.Kept.correctable {s₀ s : State} (h₀ : s₀.Kept s) (u : Nat) : s₀.Kept (s.correctable u) := by
  unfold State.correctable
  dsimp only
  repeat' first
    | with_reducible assumption
    | with_reducible apply State.Kept.countCe
    | with_reducible apply State.Kept.raise
    | split
    | with_reducible refine State.Kept.mk ?_ rfl rfl

theorem State.Kept.poison {s₀ s : State} (h₀ : s₀.Kept s) (page word : Nat) : s₀.Kept (s.poison page word) := by
  unfold State.poison
  refine State.Kept.foldl (fun u c h => ?_) _ h₀
  exact h.setCell_wf c fun w => Cell.writeMemList_wf _ _ _ w

theorem State.Kept.uncorrectable {s₀ s : State} (h₀ : s₀.Kept s) (u : Nat) (page : Option Nat) (word : Nat) :
    s₀.Kept (s.uncorrectable u page word) := by
  unfold State.uncorrectable
  repeat' first
    | with_reducible assumption
    | with_reducible apply State.Kept.poison
    | with_reducible apply State.Kept.raiseEvent
    | with_reducible apply State.Kept.modChan
    | split
    | with_reducible refine State.Kept.mk ?_ rfl rfl

theorem State.Kept.scrub {s₀ s : State} (h₀ : s₀.Kept s) (u : ScrubUnit) (page : Option Nat) (word : Nat) (ecc : EccState) :
    s₀.Kept (s.scrub u page word ecc) := by
  unfold State.scrub
  repeat' first
    | with_reducible assumption
    | with_reducible apply State.Kept.correctable
    | with_reducible apply State.Kept.uncorrectable
    | split

theorem State.Kept.setLock {s₀ s : State} (h₀ : s₀.Kept s) (l : LockState) : s₀.Kept (s.setLock l) := by
  unfold State.setLock
  repeat' first
    | with_reducible assumption
    | with_reducible apply State.Kept.fireShared
    | with_reducible apply State.Kept.raiseEvent
    | with_reducible apply State.Kept.modHouse
    | split

theorem State.Kept.glitch {s₀ s : State} (h₀ : s₀.Kept s) : s₀.Kept (s.glitch) := h₀.modHouse ..

theorem State.Kept.validPulse {s₀ s : State} (h₀ : s₀.Kept s) (m : PulseMeas) : s₀.Kept (s.validPulse m) := by
  unfold State.validPulse
  dsimp only
  repeat' first
    | with_reducible assumption
    | with_reducible apply State.Kept.setLock
    | with_reducible apply State.Kept.modHouse
    | split

theorem State.Kept.beamPulse {s₀ s : State} (h₀ : s₀.Kept s) (m : PulseMeas) : s₀.Kept (s.beamPulse m) := by
  unfold State.beamPulse
  repeat' first
    | with_reducible assumption
    | with_reducible apply State.Kept.glitch
    | with_reducible apply State.Kept.validPulse
    | split

theorem State.Kept.linePulse {s₀ s : State} (h₀ : s₀.Kept s) (win : Nat) (ofs err : Int) :
    s₀.Kept (s.linePulse win ofs err) := by
  unfold State.linePulse
  repeat' first
    | with_reducible assumption
    | with_reducible apply State.Kept.glitch
    | with_reducible apply State.Kept.modHouse
    | split

theorem State.Kept.windowEnd {s₀ s : State} (h₀ : s₀.Kept s) : s₀.Kept (s.windowEnd) := by
  unfold State.windowEnd
  dsimp only
  repeat' first
    | with_reducible assumption
    | with_reducible apply State.Kept.setLock
    | with_reducible apply State.Kept.modHouse
    | split

theorem State.Kept.takeSource {s₀ s : State} (h₀ : s₀.Kept s) : s₀.Kept (s.takeSource) := by
  unfold State.takeSource
  dsimp only
  repeat' first
    | with_reducible assumption
    | with_reducible apply State.Kept.setLock
    | with_reducible apply State.Kept.modHouse
    | split

/-- A record update that also changes cells, each keeping the canonical form of its space. -/
theorem State.Kept.mkCells {s t : State} {f_devTime} {f_house} {f_combs} {f_slots} {f_audClk} {f_ports} {f_blitTurn} {f_freeCtr} {f_stores} {f_sources} {f_link} {f_mc} {f_keeper} {f_swarm} {f_heads} {f_pwr} {f_conv} {f_memu} {f_pins} {f_banks} {f_tap} {f_dbgDev} {f_objs} {f_cells : Vector Cell 128} (h : s.Kept t) (hj : f_mc.journal = t.mc.journal)
    (hn : f_mc.jrSeq = t.mc.jrSeq) (w : ∀ c : CellNo, Memory.wf (t.cells.get c).mem = true → Memory.wf (f_cells.get c).mem = true) :
    s.Kept (State.mk t.part f_devTime f_house f_combs f_slots f_audClk f_ports f_blitTurn f_freeCtr f_stores f_cells f_sources f_link f_mc f_keeper f_swarm f_heads f_pwr f_conv f_memu f_pins f_banks f_tap f_dbgDev f_objs t.pending) :=
  h.trans ⟨rfl, rfl, fun i => ⟨fun c => w c (i.1 c), by rw [hj, hn]; exact i.2⟩⟩

theorem Vector.get_map_cell (f : Cell → Cell) (v : Vector Cell 128) (c : CellNo) : (v.map f).get c = f (v.get c) := by
  show (v.map f)[c.val] = f v[c.val]
  simp

theorem State.Kept.takeRate {s₀ s : State} (h₀ : s₀.Kept s) : s₀.Kept (s.takeRate) := by
  unfold State.takeRate
  dsimp only
  split
  · exact h₀
  · with_reducible refine State.Kept.mkCells h₀ rfl rfl fun c w => ?_
    rw [Vector.get_map_cell]
    exact w

theorem State.Kept.countFrame {s₀ s : State} (h₀ : s₀.Kept s) : s₀.Kept (s.countFrame) := by
  unfold State.countFrame
  repeat' first
    | with_reducible assumption
    | with_reducible apply State.Kept.modHouse
    | with_reducible apply State.Kept.modSwarm

theorem State.Kept.sendBeam {s₀ s : State} (h₀ : s₀.Kept s) : s₀.Kept (s.sendBeam) := by
  unfold State.sendBeam
  repeat' first
    | with_reducible assumption
    | with_reducible apply State.Kept.modLinkL
    | with_reducible refine State.Kept.foldl ?_ _ ?_
    | split
    | intro _ _ _

theorem State.Kept.swapTable {s₀ s : State} (h₀ : s₀.Kept s) : s₀.Kept (s.swapTable) := by
  unfold State.swapTable
  dsimp only
  repeat' first
    | with_reducible assumption
    | with_reducible apply State.Kept.modVid
    | with_reducible apply State.Kept.modComb
    | with_reducible refine State.Kept.foldl ?_ _ ?_
    | split
    | with_reducible refine State.Kept.mk ?_ rfl rfl
    | intro _ _ _

theorem State.Kept.assignSlot {s₀ s : State} (h₀ : s₀.Kept s) (a : SlotAssign) : s₀.Kept (s.assignSlot a) := by
  unfold State.assignSlot
  dsimp only
  repeat' first
    | with_reducible assumption
    | split
    | with_reducible refine State.Kept.mk ?_ rfl rfl

theorem State.Kept.planSlots {s₀ s : State} (h₀ : s₀.Kept s) (l : List SlotAssign) : s₀.Kept (s.planSlots l) := by
  unfold State.planSlots
  dsimp only
  repeat' first
    | with_reducible assumption
    | with_reducible apply State.Kept.assignSlot
    | with_reducible apply State.Kept.raise
    | with_reducible refine State.Kept.foldl ?_ _ ?_
    | split
    | with_reducible refine State.Kept.mk ?_ rfl rfl
    | intro _ _ _

theorem State.Kept.combBusy {s₀ s : State} (h₀ : s₀.Kept s) : s₀.Kept (s.combBusy) := by
  unfold State.combBusy
  repeat' first
    | with_reducible assumption
    | with_reducible refine State.Kept.mk ?_ rfl rfl

@[simp] theorem Cell.houseFrame_mem (x : Cell) : (x.houseFrame).mem = x.mem := by
  unfold Cell.houseFrame
  rfl

theorem State.Kept.houseFrame {s₀ s : State} (h₀ : s₀.Kept s) (slots : List SlotAssign) (scouts : List ScoutRead) :
    s₀.Kept (s.houseFrame slots scouts) := by
  unfold State.houseFrame
  extract_lets s1 s2 s3 s4 s5 s6 s7 s8
  have h3 : s₀.Kept s3 := (((((h₀.combBusy).takeSource).takeRate).countFrame).modHouse _).sendBeam
  have h4 : s₀.Kept s4 := State.Kept.mkCells h3 rfl rfl fun c w => by rw [Vector.get_map_cell]; simpa using w
  exact ((((State.Kept.foldl (fun u a h => h.scoutRead a) scouts (h4.swapTable).keeperFrame).combScouts).planSlots slots).soloCheck).fenceCheck

@[simp] theorem Cell.blitFlags_mem (x : Cell) (bits : Byte) : (x.blitFlags bits).mem = x.mem := by
  unfold Cell.blitFlags
  simp [apply_ite Cell.mem]

@[simp] theorem Cell.blitEnd_mem (x : Cell) : (x.blitEnd).mem = x.mem := by
  unfold Cell.blitEnd
  rfl

@[simp] theorem Cell.blitCancel_mem (x : Cell) : (x.blitCancel).mem = x.mem := by
  unfold Cell.blitCancel
  simp [apply_ite Cell.mem]

@[simp] theorem Cell.blitStart_mem (x : Cell) : (x.blitStart).mem = x.mem := by
  unfold Cell.blitStart
  simp [apply_ite Cell.mem]

@[simp] theorem Cell.blitGo_mem (x : Cell) (v : Byte) : (x.blitGo v).mem = x.mem := by
  unfold Cell.blitGo
  simp [apply_ite Cell.mem]

@[simp] theorem Cell.blitBegin_mem (x : Cell) (o : BlitOp) : (x.blitBegin o).mem = x.mem := by
  unfold Cell.blitBegin
  simp [apply_ite Cell.mem]

@[simp] theorem Cell.writeBlit_mem (x : Cell) (a : Nat) (v : Byte) : (x.writeBlit a v).mem = x.mem := by
  unfold Cell.writeBlit
  simp [apply_ite Cell.mem]

@[simp] theorem Cell.modFg_mem (x : Cell) (k : Fin 4) (f : Fg → Fg) : (x.modFg k f).mem = x.mem := by
  unfold Cell.modFg
  rfl

@[simp] theorem Cell.fgFlags_mem (x : Cell) (k : Fin 4) (bits edges : Byte) : (x.fgFlags k bits edges).mem = x.mem := by
  unfold Cell.fgFlags
  simp [apply_ite Cell.mem]

@[simp] theorem Cell.fgEnd_mem (x : Cell) (k : Fin 4) (code : Byte) : (x.fgEnd k code).mem = x.mem := by
  unfold Cell.fgEnd
  simp

@[simp] theorem Cell.fgFail_mem (x : Cell) (k : Fin 4) (code : Byte) (a : Nat) (io : Bool) :
    (x.fgFail k code a io).mem = x.mem := by
  unfold Cell.fgFail
  simp

@[simp] theorem Cell.fgStart_mem (x : Cell) (k : Fin 4) : (x.fgStart k).mem = x.mem := by
  unfold Cell.fgStart
  simp [apply_ite Cell.mem]

@[simp] theorem Cell.fgCancel_mem (x : Cell) (k : Fin 4) : (x.fgCancel k).mem = x.mem := by
  unfold Cell.fgCancel
  simp [apply_ite Cell.mem]

@[simp] theorem Cell.fgGo_mem (x : Cell) (k : Fin 4) (v : Byte) : (x.fgGo k v).mem = x.mem := by
  unfold Cell.fgGo
  simp [apply_ite Cell.mem]

@[simp] theorem Cell.fgDelivered_mem (x : Cell) (k : Fin 4) (n : Nat) (w2 w3 : Nat) :
    (x.fgDelivered k n w2 w3).mem = x.mem := by
  unfold Cell.fgDelivered
  simp [apply_ite Cell.mem]

@[simp] theorem Cell.fgFetch_mem (x : Cell) (k : Fin 4) : (x.fgFetch k).mem = x.mem := by
  unfold Cell.fgFetch
  dsimp only
  repeat' first
    | rfl
    | split
    | (simp; done)

@[simp] theorem Cell.writeFg_mem (x : Cell) (a : Nat) (v : Byte) : (x.writeFg a v).mem = x.mem := by
  unfold Cell.writeFg
  simp [apply_ite Cell.mem]

@[simp] theorem Cell.reset_mem (x : Cell) (cause : BitVec 4) : (x.reset cause).mem = x.mem := by
  unfold Cell.reset
  rfl

theorem State.Kept.resetInPlace {s₀ s : State} (h₀ : s₀.Kept s) (c : CellNo) (cause : BitVec 4) :
    s₀.Kept (s.resetInPlace c cause) := by
  unfold State.resetInPlace
  repeat' first
    | with_reducible assumption
    | with_reducible apply State.Kept.modCell
    | (simp; done)

theorem State.Kept.lapse {s₀ s : State} (h₀ : s₀.Kept s) (c : CellNo) (code : Nat) : s₀.Kept (s.lapse c code) := h₀.event ..

theorem State.Kept.startCell {s₀ s : State} (h₀ : s₀.Kept s) (c : CellNo) (k : Fin 128) (sg : Nat) :
    s₀.Kept (s.startCell c k sg) := by
  unfold State.startCell
  repeat' first
    | with_reducible assumption
    | with_reducible apply State.Kept.giveCore
    | with_reducible apply State.Kept.setCell
    | (simp; done)

@[simp] theorem Cell.stopped_mem (x : Cell) : (x.stopped).mem = x.mem := by
  unfold Cell.stopped
  rfl

theorem State.Kept.dropSlots {s₀ s : State} (h₀ : s₀.Kept s) (c : CellNo) : s₀.Kept (s.dropSlots c) := by
  unfold State.dropSlots
  repeat' first
    | with_reducible assumption
    | with_reducible refine State.Kept.mk ?_ rfl rfl

theorem State.Kept.abandonMigration {s₀ s : State} (h₀ : s₀.Kept s) (c : CellNo) : s₀.Kept (s.abandonMigration c) := by
  unfold State.abandonMigration
  repeat' first
    | with_reducible assumption
    | with_reducible apply State.Kept.migLost
    | with_reducible apply State.Kept.modCtl
    | split

theorem State.Kept.stopCell {s₀ s : State} (h₀ : s₀.Kept s) (c : CellNo) : s₀.Kept (s.stopCell c) := by
  unfold State.stopCell
  repeat' first
    | with_reducible assumption
    | with_reducible apply State.Kept.abandonMigration
    | with_reducible apply State.Kept.dropSlots
    | with_reducible apply State.Kept.fenceCheck
    | with_reducible apply State.Kept.modCell
    | (simp; done)

@[simp] theorem Cell.pause_mem (x : Cell) : (x.pause).mem = x.mem := by
  unfold Cell.pause
  rfl

@[simp] theorem Cell.resume_mem (x : Cell) (pix : Nat) : (x.resume pix).mem = x.mem := by
  unfold Cell.resume
  simp [apply_ite Cell.mem]

theorem State.Kept.dropLevels {s₀ s : State} (h₀ : s₀.Kept s) (c : CellNo) : s₀.Kept (s.dropLevels c) := by
  unfold State.dropLevels
  repeat' first
    | with_reducible assumption
    | with_reducible apply State.Kept.modMc
    | with_reducible apply State.Kept.modDbg
    | with_reducible rfl

theorem State.Kept.unloadCell {s₀ s : State} (h₀ : s₀.Kept s) (c : CellNo) : s₀.Kept (s.unloadCell c) := by
  unfold State.unloadCell
  dsimp only
  with_reducible apply State.Kept.fenceCheck
  exact ((h₀.releasePages c).dropLevels c).setCell_wf c fun _ => rfl

@[simp] theorem Cell.dbgResume_mem (x : Cell) (pix : Nat) : (x.dbgResume pix).mem = x.mem := by
  unfold Cell.dbgResume
  simp [apply_ite Cell.mem]

theorem State.Kept.releaseDebug {s₀ s : State} (h₀ : s₀.Kept s) (c : CellNo) : s₀.Kept (s.releaseDebug c) := by
  unfold State.releaseDebug
  dsimp only
  repeat' first
    | with_reducible assumption
    | with_reducible apply State.Kept.event
    | with_reducible apply State.Kept.modDbg
    | with_reducible apply State.Kept.setCell
    | split
    | (simp; done)

@[simp] theorem Cell.wakeUp_mem (x : Cell) (pix ticks : Nat) : (x.wakeUp pix ticks).mem = x.mem := by
  unfold Cell.wakeUp
  simp

@[simp] theorem Cell.suspendCount_mem (x : Cell) (now : Long) : (x.suspendCount now).mem = x.mem := by
  unfold Cell.suspendCount
  rfl

@[simp] theorem Cell.resumeCount_mem (x : Cell) (now : Long) : (x.resumeCount now).mem = x.mem := by
  unfold Cell.resumeCount
  simp [apply_ite Cell.mem]

@[simp] theorem Cell.suspend_mem (x : Cell) : (x.suspend).mem = x.mem := by
  unfold Cell.suspend
  simp [apply_ite Cell.mem]

@[simp] theorem Cell.restart_mem (x : Cell) : (x.restart).mem = x.mem := by
  unfold Cell.restart
  simp [apply_ite Cell.mem]

@[simp] theorem Cell.undrain_mem (x : Cell) (paused : Bool) : (x.undrain paused).mem = x.mem := by
  unfold Cell.undrain
  simp [apply_ite Cell.mem]

@[simp] theorem Cell.drainPause_mem (x : Cell) : (x.drainPause).mem = x.mem := by
  unfold Cell.drainPause
  simp [apply_ite Cell.mem]

theorem State.Kept.enterServe {s₀ s : State} (h₀ : s₀.Kept s) : s₀.Kept (s.enterServe) := by
  unfold State.enterServe
  dsimp only
  with_reducible apply State.Kept.modPwr
  with_reducible refine State.Kept.mkCells h₀ rfl rfl fun c w => ?_
  show Memory.wf ((Vector.ofFn fun c => (((s.cells.get c).undrain (s.pwr.drainPaused.getLsbD c.val)).restart))[c.val]).mem = true
  rw [Vector.getElem_ofFn]
  simpa using w

@[simp] theorem Cell.writePins_mem (x : Cell) (a : Nat) (v : Byte) : (x.writePins a v).mem = x.mem := by
  unfold Cell.writePins
  simp [apply_ite Cell.mem]

theorem State.Kept.holdPads {s₀ s : State} (h₀ : s₀.Kept s) : s₀.Kept (s.holdPads) := by
  unfold State.holdPads
  repeat' first
    | with_reducible assumption
    | with_reducible refine State.Kept.mk ?_ rfl rfl

theorem State.Kept.releasePads {s₀ s : State} (h₀ : s₀.Kept s) : s₀.Kept (s.releasePads) := by
  unfold State.releasePads
  repeat' first
    | with_reducible assumption
    | with_reducible refine State.Kept.mk ?_ rfl rfl

theorem State.Kept.pinSettle {s₀ s : State} (h₀ : s₀.Kept s) (p : Fin 128) (level : Bool) :
    s₀.Kept (s.pinSettle p level) := by
  unfold State.pinSettle
  dsimp only
  repeat' first
    | with_reducible assumption
    | with_reducible apply State.Kept.fireShared
    | with_reducible apply State.Kept.modPin
    | split

theorem State.Kept.vtTxIn {s₀ s : State} (h₀ : s₀.Kept s) (c : CellNo) (v : Byte) : s₀.Kept (s.vtTxIn c v) := by
  unfold State.vtTxIn
  dsimp only
  repeat' first
    | with_reducible assumption
    | with_reducible apply State.Kept.msiVf
    | with_reducible apply State.Kept.modDbg
    | split

theorem State.Kept.vtTxWrite {s₀ s : State} (h₀ : s₀.Kept s) (c : CellNo) (v : Byte) : s₀.Kept (s.vtTxWrite c v) := by
  unfold State.vtTxWrite
  repeat' first
    | with_reducible assumption
    | with_reducible apply State.Kept.sendTo
    | with_reducible apply State.Kept.vtTxIn
    | split

theorem State.Kept.vtRxIn {s₀ s : State} (h₀ : s₀.Kept s) (c : CellNo) (l : List Byte) : s₀.Kept (s.vtRxIn c l) := by
  unfold State.vtRxIn
  dsimp only
  repeat' first
    | with_reducible assumption
    | with_reducible apply State.Kept.edge
    | with_reducible apply State.Kept.modDbg
    | split

theorem State.Kept.vtRxWrite {s₀ s : State} (h₀ : s₀.Kept s) (c : CellNo) (l : List Byte) : s₀.Kept (s.vtRxWrite c l) := by
  unfold State.vtRxWrite
  repeat' first
    | with_reducible assumption
    | with_reducible apply State.Kept.sendTo
    | with_reducible apply State.Kept.vtRxIn
    | split

theorem State.Kept.vtTxTake {s₀ s : State} (h₀ : s₀.Kept s) (c : CellNo) (n : Nat) : s₀.Kept (s.vtTxTake c n) := by
  unfold State.vtTxTake
  dsimp only
  repeat' first
    | with_reducible assumption
    | with_reducible apply State.Kept.edge
    | with_reducible apply State.Kept.modDbg
    | split

theorem State.Kept.vtHostRead {s₀ s : State} (h₀ : s₀.Kept s) (c : CellNo) : s₀.Kept (s.vtHostRead c) := by
  unfold State.vtHostRead
  dsimp only
  repeat' first
    | with_reducible assumption
    | with_reducible apply State.Kept.vtTxTake
    | with_reducible apply State.Kept.modDbg
    | split

theorem State.Kept.vtHostWrite {s₀ s : State} (h₀ : s₀.Kept s) (c : CellNo) (stat : Bool) (v : Word) :
    s₀.Kept (s.vtHostWrite c stat v) := by
  unfold State.vtHostWrite
  dsimp only
  repeat' first
    | with_reducible assumption
    | with_reducible apply State.Kept.vtRxWrite
    | with_reducible apply State.Kept.modDbg
    | split

@[simp] theorem Cell.vtPop_mem (x : Cell) : (x.vtPop).mem = x.mem := by
  unfold Cell.vtPop
  rfl

theorem State.Kept.writeVt {s₀ s : State} (h₀ : s₀.Kept s) (c : CellNo) (a : Nat) (v : Byte) :
    s₀.Kept (s.writeVt c a v) := by
  unfold State.writeVt
  repeat' first
    | with_reducible assumption
    | with_reducible apply State.Kept.vtTxWrite
    | with_reducible apply State.Kept.modCell
    | split
    | (simp; done)

theorem State.Kept.capture {s₀ s : State} (h₀ : s₀.Kept s) (c : CellNo) (a n : Nat) : s₀.Kept (s.capture c a n) := by
  unfold State.capture
  repeat' first
    | with_reducible assumption
    | with_reducible apply State.Kept.modCell
    | with_reducible rfl

@[simp] theorem Cell.readEffect_mem (x : Cell) (a : Nat) : (x.readEffect a).mem = x.mem := by
  unfold Cell.readEffect
  simp [apply_ite Cell.mem]

theorem State.Kept.ioMiss {s₀ s : State} (h₀ : s₀.Kept s) (c : CellNo) (ag : Agent) : s₀.Kept (s.ioMiss c ag) := by
  unfold State.ioMiss
  repeat' first
    | with_reducible assumption
    | with_reducible apply State.Kept.modCtl
    | split

@[simp] theorem Cell.writePal_mem (x : Cell) (pix a : Nat) (v : Byte) : (x.writePal pix a v).mem = x.mem := by
  unfold Cell.writePal
  simp [apply_ite Cell.mem]

@[simp] theorem Cell.writeVid_mem (x : Cell) (pix a : Nat) (v : Byte) : (x.writeVid pix a v).mem = x.mem := by
  unfold Cell.writeVid
  simp [apply_ite Cell.mem]

@[simp] theorem Cell.writeReg_mem (x : Cell) (pix a : Nat) (v : Byte) : (x.writeReg pix a v).mem = x.mem := by
  unfold Cell.writeReg
  simp [apply_ite Cell.mem]

theorem State.Kept.regWrite {s₀ s : State} (h₀ : s₀.Kept s) (c : CellNo) (pix a : Nat) (v : Byte) :
    s₀.Kept (s.regWrite c pix a v) := by
  unfold State.regWrite
  repeat' first
    | with_reducible assumption
    | with_reducible apply State.Kept.writeVt
    | with_reducible apply State.Kept.writeHost
    | with_reducible apply State.Kept.modCell
    | split
    | (simp; done)

theorem State.Kept.unlocked {s₀ s : State} (h₀ : s₀.Kept s) (c : CellNo) (r : LockedReg) : s₀.Kept (s.unlocked c r) := by
  unfold State.unlocked
  repeat' first
    | with_reducible assumption
    | with_reducible apply State.Kept.resetInPlace
    | with_reducible apply State.Kept.modMap
    | with_reducible apply State.Kept.modCell
    | split
    | (simp; done)

@[simp] theorem Cell.lockedWrite_mem (x : Cell) (a : Nat) (v : Byte) (o : Bool) : (x.lockedWrite a v o).1.mem = x.mem := by
  unfold Cell.lockedWrite
  repeat' first
    | rfl
    | split
    | (simp; done)

theorem State.Kept.ioWriteAs {s₀ s : State} (h₀ : s₀.Kept s) (c : CellNo) (ag : Agent) (out : Bool) (a : Nat) (v : Byte) :
    s₀.Kept (s.ioWriteAs c ag out a v) := by
  unfold State.ioWriteAs
  dsimp only
  repeat' first
    | with_reducible assumption
    | with_reducible apply State.Kept.unlocked
    | with_reducible apply State.Kept.ioMiss
    | with_reducible apply State.Kept.regWrite
    | with_reducible apply State.Kept.setCell
    | split
    | (simp; done)

theorem State.Kept.ioWrite {s₀ s : State} (h₀ : s₀.Kept s) (c : CellNo) (ag : Agent) (a : Nat) (v : Byte) :
    s₀.Kept (s.ioWrite c ag a v) := h₀.ioWriteAs ..

@[simp] theorem Cell.transferShadows_mem (x : Cell) : (x.transferShadows).mem = x.mem := by
  unfold Cell.transferShadows
  refine Cell.foldl_mem (fun y r => Cell.foldl_mem (fun z i => ?_) _ _) _ _
  split <;> simp

theorem State.Kept.transfer {s₀ s : State} (h₀ : s₀.Kept s) (c : CellNo) : s₀.Kept (s.transfer c) := by
  unfold State.transfer
  dsimp only
  repeat' first
    | with_reducible assumption
    | with_reducible apply State.Kept.raise
    | with_reducible apply State.Kept.setCell
    | split
    | (simp; done)

@[simp] theorem Cell.frameStart_mem (x : Cell) (clks : Nat) : (x.frameStart clks).mem = x.mem := by
  unfold Cell.frameStart
  rfl

theorem State.Kept.relockPorts {s₀ s : State} (h₀ : s₀.Kept s) (c : CellNo) : s₀.Kept (s.relockPorts c) := by
  unfold State.relockPorts
  dsimp only
  repeat' first
    | with_reducible assumption
    | with_reducible apply State.Kept.modPort
    | with_reducible refine State.Kept.foldl ?_ _ ?_
    | split
    | intro _ _ _

theorem State.Kept.cellLine {s₀ s : State} (h₀ : s₀.Kept s) (c : CellNo) (n : Nat) : s₀.Kept (s.cellLine c n) := by
  unfold State.cellLine
  dsimp only
  repeat' first
    | with_reducible assumption
    | with_reducible apply State.Kept.relockPorts
    | with_reducible apply State.Kept.transfer
    | with_reducible apply State.Kept.modCell
    | with_reducible apply State.Kept.setCell
    | split
    | (simp; done)

theorem State.Kept.endLine {s₀ s : State} (h₀ : s₀.Kept s) (c : CellNo) : s₀.Kept (s.endLine c) := by
  unfold State.endLine
  dsimp only
  repeat' first
    | with_reducible assumption
    | with_reducible apply State.Kept.raise
    | with_reducible apply State.Kept.setCell
    | with_reducible rfl
    | split

theorem State.Kept.shareCore {s₀ s : State} (h₀ : s₀.Kept s) (c : CellNo) : s₀.Kept (s.shareCore c) := by
  unfold State.shareCore
  dsimp only
  repeat' first
    | with_reducible assumption
    | with_reducible apply State.Kept.modCell
    | with_reducible refine State.Kept.foldl ?_ _ ?_
    | with_reducible rfl
    | split
    | intro _ _ _

theorem State.Kept.lineEvents {s₀ s : State} (h₀ : s₀.Kept s) (c : CellNo) : s₀.Kept (s.lineEvents c) := by
  unfold State.lineEvents
  dsimp only
  repeat' first
    | with_reducible assumption
    | with_reducible apply State.Kept.applyInput
    | with_reducible apply State.Kept.shareCore
    | with_reducible apply State.Kept.modCell
    | split
    | (simp; done)

@[simp] theorem Cell.firstFrame_mem (x : Cell) (clks m : Nat) : (x.firstFrame clks m).mem = x.mem := by
  unfold Cell.firstFrame
  rfl

@[simp] theorem Cell.nextFrame_mem (x : Cell) (clks m : Nat) : (x.nextFrame clks m).mem = x.mem := by
  unfold Cell.nextFrame
  rfl

@[simp] theorem Cell.moveBegins_mem (x : Cell) (now : Long) : (x.moveBegins now).mem = x.mem := by
  unfold Cell.moveBegins
  simp [apply_ite Cell.mem]

theorem State.Kept.ioRead {s₀ s : State} (h₀ : s₀.Kept s) (c : CellNo) (ag : Agent) (a : Nat) :
    s₀.Kept (s.ioRead c ag a).1 := by
  unfold State.ioRead
  split
  · exact h₀.ioMiss ..
  · split
    · split
      · exact (h₀.capture ..).modCell c (by simp)
      · exact h₀.modCell c (by simp)
    · exact h₀.modCell c (by simp)

theorem State.Kept.coreRead {s₀ s : State} (h₀ : s₀.Kept s) (c : CellNo) (a : Nat) : s₀.Kept (s.coreRead c a) := by
  unfold State.coreRead
  exact (h₀.ioRead c .core a).modCtl c _

theorem State.Kept.atPixel {s₀ s : State} (h₀ : s₀.Kept s) (c : CellNo) (pix : Nat) :
    s₀.Kept (s.atPixel c pix) := h₀.modBeam ..

theorem State.Kept.loadCell {s₀ s : State} (h₀ : s₀.Kept s) (c : CellNo) (g : ImgHead) (body : List Byte) (pages : List PageAlloc) :
    s₀.Kept (s.loadCell c g body pages) := by
  unfold State.loadCell
  dsimp only
  exact (h₀.allocPages c _ _).setCell_wf c fun _ => imgMem_wf _

theorem State.Kept.sharePages {s₀ s : State} (h₀ : s₀.Kept s) (a b : Nat) : s₀.Kept (s.sharePages a b) := by
  unfold State.sharePages
  repeat' first
    | with_reducible assumption
    | with_reducible apply State.Kept.setPte
    | with_reducible apply State.Kept.modKp
    | with_reducible refine State.Kept.foldl ?_ _ ?_
    | intro _ _ _

theorem State.Kept.startTrain {s₀ s : State} (h₀ : s₀.Kept s) (l : Fin 7) : s₀.Kept (s.startTrain l) := h₀.setLink ..

theorem State.Kept.retrain {s₀ s : State} (h₀ : s₀.Kept s) (l : Fin 7) (rate : Byte) :
    s₀.Kept (s.retrain l rate) := h₀.setLink ..

theorem State.Kept.dropLink {s₀ s : State} (h₀ : s₀.Kept s) (l : Fin 7) : s₀.Kept (s.dropLink l) := h₀.setLink ..

theorem State.Kept.sendNak {s₀ s : State} (h₀ : s₀.Kept s) (l : Fin 7) : s₀.Kept (s.sendNak l) := by
  unfold State.sendNak
  dsimp only
  repeat' first
    | with_reducible assumption
    | with_reducible apply State.Kept.modLinkL
    | split

theorem State.Kept.resend {s₀ s : State} (h₀ : s₀.Kept s) (l : Fin 7) (q : BitVec 12) : s₀.Kept (s.resend l q) := by
  unfold State.resend
  dsimp only
  repeat' first
    | with_reducible assumption
    | with_reducible apply State.Kept.retrain
    | with_reducible apply State.Kept.modLinkL
    | split

theorem State.Kept.relay {s₀ s : State} (h₀ : s₀.Kept s) (l : Fin 7) (f : JFrame) : s₀.Kept (s.relay l f) := by
  unfold State.relay
  repeat' first
    | with_reducible assumption
    | with_reducible apply State.Kept.modSwarm
    | with_reducible apply State.Kept.modLinkL
    | split

theorem State.Kept.setMaster {s₀ s : State} (h₀ : s₀.Kept s) (d : Byte) : s₀.Kept (s.setMaster d) := by
  unfold State.setMaster
  dsimp only
  repeat' first
    | with_reducible assumption
    | with_reducible apply State.Kept.raiseEvent
    | with_reducible apply State.Kept.setLock
    | with_reducible apply State.Kept.modSwarm
    | split

theorem State.Kept.elect {s₀ s : State} (h₀ : s₀.Kept s) : s₀.Kept (s.elect) := by
  unfold State.elect
  repeat' first
    | with_reducible assumption
    | with_reducible apply State.Kept.setMaster
    | split

theorem State.Kept.cutMigrations {s₀ s : State} (h₀ : s₀.Kept s) : s₀.Kept (s.cutMigrations) := by
  unfold State.cutMigrations
  dsimp only
  repeat' first
    | with_reducible assumption
    | with_reducible apply State.Kept.abandonMigration
    | with_reducible refine State.Kept.foldl ?_ _ ?_
    | split
    | intro _ _ _

theorem State.Kept.linksChanged {s₀ s : State} (h₀ : s₀.Kept s) : s₀.Kept (s.linksChanged) := by
  unfold State.linksChanged
  dsimp only
  repeat' first
    | with_reducible assumption
    | with_reducible apply State.Kept.raiseEvent
    | with_reducible apply State.Kept.cutMigrations
    | with_reducible apply State.Kept.setLock
    | with_reducible apply State.Kept.modSwarm
    | with_reducible refine State.Kept.foldl ?_ _ ?_
    | split
    | intro _ _ _

theorem State.Kept.hello {s₀ s : State} (h₀ : s₀.Kept s) (l : Fin 7) (h : HelloInfo) : s₀.Kept (s.hello l h) := by
  unfold State.hello
  dsimp only
  repeat' first
    | with_reducible assumption
    | with_reducible apply State.Kept.setLink
    | with_reducible apply State.Kept.linksChanged
    | with_reducible apply State.Kept.elect
    | split

theorem State.Kept.sendMigc {s₀ s : State} (h₀ : s₀.Kept s) (d : BitVec 3) (c : CellNo) (code : Nat) :
    s₀.Kept (s.sendMigc d c code) := h₀.sendTo ..

theorem State.Kept.sendBlock {s₀ s : State} (h₀ : s₀.Kept s) (c : CellNo) (d : BitVec 3) (b : Nat) :
    s₀.Kept (s.sendBlock c d b) := h₀.sendTo ..

theorem State.Kept.sendBlocks {s₀ s : State} (h₀ : s₀.Kept s) (c : CellNo) (d : BitVec 3) (l : List Nat) :
    s₀.Kept (s.sendBlocks c d l) := by
  unfold State.sendBlocks
  repeat' first
    | with_reducible assumption
    | with_reducible apply State.Kept.sendBlock
    | with_reducible refine State.Kept.foldl ?_ _ ?_
    | intro _ _ _

theorem State.Kept.sendState {s₀ s : State} (h₀ : s₀.Kept s) (c : CellNo) (d : BitVec 3) : s₀.Kept (s.sendState c d) := by
  unfold State.sendState
  repeat' first
    | with_reducible assumption
    | with_reducible apply State.Kept.sendTo
    | with_reducible refine State.Kept.foldl ?_ _ ?_
    | with_reducible refine State.Kept.mk ?_ rfl rfl
    | intro _ _ _

theorem State.Kept.startMigration {s₀ s : State} (h₀ : s₀.Kept s) (c : CellNo) (d : BitVec 3) :
    s₀.Kept (s.startMigration c d) := by
  unfold State.startMigration
  repeat' first
    | with_reducible assumption
    | with_reducible apply State.Kept.sendMigc
    | with_reducible apply State.Kept.sendBlocks
    | with_reducible apply State.Kept.modCell
    | with_reducible rfl

theorem State.Kept.nextPass {s₀ s : State} (h₀ : s₀.Kept s) (c : CellNo) : s₀.Kept (s.nextPass c) := by
  unfold State.nextPass
  repeat' first
    | with_reducible assumption
    | with_reducible apply State.Kept.sendBlocks
    | with_reducible apply State.Kept.modCell
    | with_reducible rfl

theorem State.Kept.defer {s₀ s : State} (h₀ : s₀.Kept s) (c : CellNo) : s₀.Kept (s.defer c) := by
  unfold State.defer
  dsimp only
  repeat' first
    | with_reducible assumption
    | with_reducible apply State.Kept.sendMigc
    | with_reducible apply State.Kept.abandonMigration
    | with_reducible apply State.Kept.modKp
    | split

theorem State.Kept.openWindow {s₀ s : State} (h₀ : s₀.Kept s) (c : CellNo) : s₀.Kept (s.openWindow c) := by
  unfold State.openWindow
  dsimp only
  repeat' first
    | with_reducible assumption
    | with_reducible apply State.Kept.defer
    | with_reducible apply State.Kept.sendBlocks
    | with_reducible apply State.Kept.sendState
    | with_reducible apply State.Kept.modKp
    | with_reducible apply State.Kept.modCell
    | split
    | (simp; done)

theorem State.Kept.cancelSwitch {s₀ s : State} (h₀ : s₀.Kept s) (c : CellNo) : s₀.Kept (s.cancelSwitch c) := by
  unfold State.cancelSwitch
  repeat' first
    | with_reducible assumption
    | with_reducible apply State.Kept.defer
    | with_reducible apply State.Kept.modCell
    | (simp; done)

theorem State.Kept.releaseMigrated {s₀ s : State} (h₀ : s₀.Kept s) (c : CellNo) : s₀.Kept (s.releaseMigrated c) := by
  unfold State.releaseMigrated
  dsimp only
  with_reducible apply State.Kept.fenceCheck
  with_reducible apply State.Kept.modKeeper
  with_reducible refine State.Kept.mk ?_ rfl rfl
  exact ((h₀.releasePages c).dropSlots c).setCell_wf c fun _ => rfl

theorem State.Kept.takeGuest {s₀ s : State} (h₀ : s₀.Kept s) (c : CellNo) (home : BitVec 3) (n : MigNeeds) :
    s₀.Kept (s.takeGuest c home n) := by
  unfold State.takeGuest
  repeat' first
    | with_reducible assumption
    | with_reducible apply State.Kept.allocPages
    | with_reducible apply State.Kept.modCell
    | with_reducible rfl

theorem State.Kept.dropGuest {s₀ s : State} (h₀ : s₀.Kept s) (c : CellNo) : s₀.Kept (s.dropGuest c) := by
  unfold State.dropGuest
  dsimp only
  exact (h₀.releasePages c).setCell_wf c fun _ => rfl

theorem State.Kept.startGuest {s₀ s : State} (h₀ : s₀.Kept s) (c : CellNo) (k : Fin 128) : s₀.Kept (s.startGuest c k) := by
  unfold State.startGuest
  repeat' first
    | with_reducible assumption
    | with_reducible apply State.Kept.giveCore
    | with_reducible apply State.Kept.modCell
    | with_reducible rfl
    | with_reducible refine State.Kept.mk ?_ rfl rfl

theorem State.Kept.takeTime {s₀ s : State} (h₀ : s₀.Kept s) (t : Long) : s₀.Kept (s.takeTime t) := by
  unfold State.takeTime
  dsimp only
  repeat' first
    | with_reducible assumption
    | with_reducible apply State.Kept.event
    | with_reducible apply State.Kept.modSwarm
    | split
    | with_reducible refine State.Kept.mk ?_ rfl rfl

theorem State.Kept.setMode {s₀ s : State} (h₀ : s₀.Kept s) (m : Mode) : s₀.Kept (s.setMode m) := by
  unfold State.setMode
  dsimp only
  repeat' first
    | with_reducible assumption
    | with_reducible apply State.Kept.raiseEvent
    | with_reducible apply State.Kept.event
    | with_reducible apply State.Kept.modPwr
    | split

theorem State.Kept.serve {s₀ s : State} (h₀ : s₀.Kept s) : s₀.Kept (s.serve) := by
  unfold State.serve
  dsimp only
  repeat' first
    | with_reducible assumption
    | with_reducible apply State.Kept.enterServe
    | with_reducible apply State.Kept.setMode
    | split

theorem State.Kept.suspendAll {s₀ s : State} (h₀ : s₀.Kept s) : s₀.Kept (s.suspendAll) := by
  unfold State.suspendAll
  repeat' first
    | with_reducible assumption
    | with_reducible apply State.Kept.dropSlots
    | with_reducible apply State.Kept.modCell
    | with_reducible refine State.Kept.foldl ?_ _ ?_
    | intro _ _ _
    | (simp; done)

theorem State.Kept.domLost {s₀ s : State} (h₀ : s₀.Kept s) (d : Nat) : s₀.Kept (s.domLost d) := by
  unfold State.domLost
  split
  · exact h₀.modComb ..
  · split
    · exact h₀.modChan ..
    · split
      · exact State.Kept.mkCells (h₀.modLink _) rfl rfl fun c w => by rw [Vector.get_map_cell]; exact w
      · split
        · exact h₀.modHead ..
        · split
          · exact (h₀.setLink ..).linksChanged
          · split
            · with_reducible refine State.Kept.mk h₀ rfl rfl
            · exact h₀

theorem State.Kept.domOff {s₀ s : State} (h₀ : s₀.Kept s) (d : Nat) : s₀.Kept (s.domOff d) := by
  unfold State.domOff
  repeat' first
    | with_reducible assumption
    | with_reducible apply State.Kept.domLost
    | with_reducible apply State.Kept.modDom
    | with_reducible apply State.Kept.setDom
    | split

theorem State.Kept.headUpTrain {s₀ s : State} (h₀ : s₀.Kept s) (h : Fin 4) : s₀.Kept (s.headUpTrain h) := by
  unfold State.headUpTrain
  repeat' first
    | with_reducible assumption
    | with_reducible apply State.Kept.trainHead
    | with_reducible apply State.Kept.modHead
    | split

theorem State.Kept.domUp {s₀ s : State} (h₀ : s₀.Kept s) (d : Nat) : s₀.Kept (s.domUp d) := by
  unfold State.domUp
  dsimp only
  repeat' first
    | with_reducible assumption
    | with_reducible apply State.Kept.headUpTrain
    | with_reducible apply State.Kept.startTrain
    | with_reducible apply State.Kept.releasePads
    | with_reducible apply State.Kept.modChan
    | split
    | with_reducible refine State.Kept.mk ?_ rfl rfl

theorem State.Kept.domOnNow {s₀ s : State} (h₀ : s₀.Kept s) (d : Nat) : s₀.Kept (s.domOnNow d) := by
  unfold State.domOnNow
  repeat' first
    | with_reducible assumption
    | with_reducible apply State.Kept.setDom
    | with_reducible apply State.Kept.domUp

theorem State.Kept.powerDom {s₀ s : State} (h₀ : s₀.Kept s) (d : Nat) : s₀.Kept (s.powerDom d) := by
  unfold State.powerDom
  repeat' first
    | with_reducible assumption
    | with_reducible apply State.Kept.setDom
    | with_reducible apply State.Kept.domOnNow
    | split

theorem State.Kept.writePdEn {s₀ s : State} (h₀ : s₀.Kept s) (d : Nat) (v : Bool) : s₀.Kept (s.writePdEn d v) := by
  unfold State.writePdEn
  dsimp only
  repeat' first
    | with_reducible assumption
    | with_reducible apply State.Kept.setDom
    | with_reducible apply State.Kept.modDom
    | with_reducible apply State.Kept.holdPads
    | with_reducible apply State.Kept.objPut
    | split

theorem State.Kept.drainEnd {s₀ s : State} (h₀ : s₀.Kept s) (d left : Nat) : s₀.Kept (s.drainEnd d left) := by
  unfold State.drainEnd
  dsimp only
  repeat' first
    | with_reducible assumption
    | with_reducible apply State.Kept.modDom
    | with_reducible apply State.Kept.event
    | with_reducible apply State.Kept.setDom
    | split

theorem State.Kept.rampDownEnd {s₀ s : State} (h₀ : s₀.Kept s) (d : Nat) : s₀.Kept (s.rampDownEnd d) := by
  unfold State.rampDownEnd
  dsimp only
  repeat' first
    | with_reducible assumption
    | with_reducible apply State.Kept.domOff
    | with_reducible apply State.Kept.setDom
    | split

theorem State.Kept.setDoms {s₀ s : State} (h₀ : s₀.Kept s) (l : List Nat) : s₀.Kept (s.setDoms l) := by
  unfold State.setDoms
  repeat' first
    | with_reducible assumption
    | with_reducible apply State.Kept.powerDom
    | with_reducible apply State.Kept.domOff
    | with_reducible refine State.Kept.foldl ?_ _ ?_
    | split
    | intro _ _ _

theorem State.board_kept (s : State) {t : State} (hp : t.part = s.part) (ht : t.Inv) : s.Kept (s.board t) := ⟨rfl, hp, fun _ => ht⟩

theorem State.powerUp_inv (p : Part) : (State.powerUp p).Inv := by
  refine ⟨fun c => ?_, rfl⟩
  show Memory.wf ((Vector.replicate 128 ({} : Cell))[c.val]).mem = true
  rw [Vector.getElem_replicate]
  rfl

theorem State.Kept.deviceReset {s₀ s : State} (h₀ : s₀.Kept s) (cause : Byte) : s₀.Kept (s.deviceReset cause) := by
  unfold State.deviceReset
  dsimp only
  split
  · exact h₀
  · with_reducible apply State.Kept.event
    with_reducible apply State.Kept.setMode
    exact h₀.trans ⟨rfl, rfl, fun i => ⟨(State.powerUp_inv s.part).1, i.2⟩⟩

theorem State.Kept.aonUp {s₀ s : State} (h₀ : s₀.Kept s) : s₀.Kept (s.aonUp) := by
  unfold State.aonUp
  split
  · exact h₀.trans (s.board_kept rfl (State.powerUp_inv _))
  · exact h₀

theorem State.Kept.aonDown {s₀ s : State} (h₀ : s₀.Kept s) : s₀.Kept (s.aonDown) := by
  unfold State.aonDown
  exact h₀.trans ⟨rfl, rfl, fun _ => ⟨(State.powerUp_inv s.part).1, rfl⟩⟩

theorem State.Kept.faultHold {s₀ s : State} (h₀ : s₀.Kept s) (cause : Byte) : s₀.Kept (s.faultHold cause) := by
  unfold State.faultHold
  dsimp only
  repeat' first
    | with_reducible assumption
    | with_reducible apply State.Kept.holdPads
    | with_reducible apply State.Kept.setMode
    | with_reducible apply State.Kept.setDoms
    | with_reducible apply State.Kept.event
    | with_reducible apply State.Kept.modPwr
    | split
    | with_reducible refine State.Kept.mk ?_ rfl rfl

theorem State.Kept.seqError {s₀ s : State} (h₀ : s₀.Kept s) (q : SeqUnit) (e : MicroErr) : s₀.Kept (s.seqError q e) := by
  unfold State.seqError
  repeat' first
    | with_reducible assumption
    | with_reducible apply State.Kept.raise
    | with_reducible apply State.Kept.event
    | with_reducible apply State.Kept.faultHold
    | with_reducible refine State.Kept.mk ?_ rfl rfl

theorem State.Kept.trainStart {s₀ s : State} (h₀ : s₀.Kept s) : s₀.Kept (s.trainStart) := by
  unfold State.trainStart
  repeat' first
    | with_reducible assumption
    | with_reducible refine State.Kept.mk ?_ rfl rfl

theorem State.Kept.pagesHome {s₀ s : State} (h₀ : s₀.Kept s) : s₀.Kept (s.pagesHome) := by
  unfold State.pagesHome
  repeat' first
    | with_reducible assumption
    | with_reducible apply State.Kept.endMove
    | with_reducible refine State.Kept.foldl ?_ _ ?_
    | split
    | intro _ _ _

theorem State.Kept.enterRetain {s₀ s : State} (h₀ : s₀.Kept s) : s₀.Kept (s.enterRetain) := by
  unfold State.enterRetain
  repeat' first
    | with_reducible assumption
    | with_reducible apply State.Kept.suspendAll
    | with_reducible apply State.Kept.pagesHome
    | with_reducible apply State.Kept.holdPads
    | with_reducible apply State.Kept.setDoms
    | with_reducible apply State.Kept.setMode
    | with_reducible apply State.Kept.modKeeper
    | with_reducible apply State.Kept.modPwr
    | with_reducible refine State.Kept.mk ?_ rfl rfl

theorem State.Kept.wake {s₀ s : State} (h₀ : s₀.Kept s) (n : Nat) : s₀.Kept (s.wake n) := by
  unfold State.wake
  repeat' first
    | with_reducible assumption
    | with_reducible apply State.Kept.event
    | with_reducible apply State.Kept.setMode
    | with_reducible apply State.Kept.setDoms
    | with_reducible apply State.Kept.trainStart
    | with_reducible apply State.Kept.modPwr
    | split

theorem State.Kept.retrainAll {s₀ s : State} (h₀ : s₀.Kept s) : s₀.Kept (s.retrainAll) := by
  unfold State.retrainAll
  repeat' first
    | with_reducible assumption
    | with_reducible apply State.Kept.setMode
    | with_reducible apply State.Kept.trainStart

theorem State.Kept.startDrain {s₀ s : State} (h₀ : s₀.Kept s) (m : Mode) : s₀.Kept (s.startDrain m) := by
  unfold State.startDrain
  repeat' first
    | with_reducible assumption
    | with_reducible apply State.Kept.setMode
    | with_reducible apply State.Kept.modPwr

theorem State.Kept.takeMode {s₀ s : State} (h₀ : s₀.Kept s) (m : Mode) : s₀.Kept (s.takeMode m) := by
  unfold State.takeMode
  dsimp only
  repeat' first
    | with_reducible assumption
    | with_reducible apply State.Kept.serve
    | with_reducible apply State.Kept.startDrain
    | with_reducible apply State.Kept.retrainAll
    | with_reducible apply State.Kept.enterRetain
    | with_reducible apply State.Kept.setMode
    | with_reducible apply State.Kept.modPwr
    | split

theorem State.Kept.drainDone {s₀ s : State} (h₀ : s₀.Kept s) : s₀.Kept (s.drainDone) := by
  unfold State.drainDone
  dsimp only
  repeat' first
    | with_reducible assumption
    | with_reducible apply State.Kept.abandonMigration
    | with_reducible apply State.Kept.suspendAll
    | with_reducible apply State.Kept.enterRetain
    | with_reducible apply State.Kept.setMode
    | with_reducible apply State.Kept.modPwr
    | with_reducible apply State.Kept.modCell
    | with_reducible refine State.Kept.foldl ?_ _ ?_
    | split
    | intro _ _ _
    | (simp; done)

theorem State.Kept.startBeam {s₀ s : State} (h₀ : s₀.Kept s) : s₀.Kept (s.startBeam) := by
  unfold State.startBeam
  dsimp only
  with_reducible apply State.Kept.modKeeper
  with_reducible refine State.Kept.mkCells h₀ rfl rfl fun c w => ?_
  rw [Vector.get_map_cell]
  exact w

theorem State.Kept.startLinks {s₀ s : State} (h₀ : s₀.Kept s) : s₀.Kept (s.startLinks) := by
  unfold State.startLinks
  repeat' first
    | with_reducible assumption
    | with_reducible apply State.Kept.startTrain
    | with_reducible refine State.Kept.foldl ?_ _ ?_
    | split
    | intro _ _ _

theorem State.Kept.clearArea {s₀ s : State} (h₀ : s₀.Kept s) : s₀.Kept (s.clearArea) := by
  unfold State.clearArea
  repeat' first
    | with_reducible assumption
    | with_reducible apply State.Kept.setPte
    | with_reducible refine State.Kept.foldl ?_ _ ?_
    | split
    | intro _ _ _

theorem State.Kept.tempRead {s₀ s : State} (h₀ : s₀.Kept s) (k : Nat) (v : Int) : s₀.Kept (s.tempRead k v) := by
  unfold State.tempRead
  dsimp only
  repeat' first
    | with_reducible assumption
    | with_reducible apply State.Kept.raise
    | with_reducible apply State.Kept.fireShared
    | split
    | with_reducible refine State.Kept.mk ?_ rfl rfl

theorem State.Kept.tapRead {s₀ s : State} (h₀ : s₀.Kept s) (k v : Nat) : s₀.Kept (s.tapRead k v) := by
  unfold State.tapRead
  dsimp only
  repeat' first
    | with_reducible assumption
    | with_reducible apply State.Kept.raise
    | with_reducible apply State.Kept.faultHold
    | split
    | with_reducible refine State.Kept.mk ?_ rfl rfl

theorem State.Kept.ainCode {s₀ s : State} (h₀ : s₀.Kept s) (k code : Nat) : s₀.Kept (s.ainCode k code) := by
  unfold State.ainCode
  dsimp only
  repeat' first
    | with_reducible assumption
    | with_reducible apply State.Kept.fireShared
    | split
    | with_reducible refine State.Kept.mk ?_ rfl rfl

theorem State.Kept.chanThrottle {s₀ s : State} (h₀ : s₀.Kept s) : s₀.Kept (s.chanThrottle) := by
  unfold State.chanThrottle
  repeat' first
    | with_reducible assumption
    | with_reducible refine State.Kept.mk ?_ rfl rfl

theorem State.Kept.convFrame {s₀ s : State} (h₀ : s₀.Kept s) (temps : List Int) (taps : List Nat) (ain : List (List Nat)) :
    s₀.Kept (s.convFrame temps taps ain) := by
  unfold State.convFrame
  repeat' first
    | with_reducible assumption
    | with_reducible apply State.Kept.tempRead
    | with_reducible apply State.Kept.chanThrottle
    | with_reducible apply State.Kept.ainCode
    | with_reducible apply State.Kept.tapRead
    | with_reducible refine State.Kept.foldl ?_ _ ?_
    | split
    | intro _ _ _

theorem State.Kept.throttlePair {s₀ s : State} (h₀ : s₀.Kept s) (t : Fin 8) : s₀.Kept (s.throttlePair t) := by
  unfold State.throttlePair
  dsimp only
  repeat' first
    | with_reducible assumption
    | with_reducible apply State.Kept.raise
    | with_reducible apply State.Kept.setMode
    | with_reducible apply State.Kept.modPwr
    | split

theorem State.Kept.modSession {s₀ s : State} (h₀ : s₀.Kept s) (q : Session) (f : Session → Session) :
    s₀.Kept (s.modSession q f) := by
  unfold State.modSession
  repeat' first
    | with_reducible assumption
    | with_reducible apply State.Kept.modMc
    | with_reducible rfl

@[simp] theorem Cell.gainFull_mem (x : Cell) : (x.gainFull).mem = x.mem := by
  unfold Cell.gainFull
  simp [apply_ite Cell.mem]

theorem State.Kept.setLevel {s₀ s : State} (h₀ : s₀.Kept s) (q : Session) (c : CellNo) (l : Byte) :
    s₀.Kept (s.setLevel q c l) := by
  unfold State.setLevel
  dsimp only
  repeat' first
    | with_reducible assumption
    | with_reducible apply State.Kept.modSession
    | with_reducible apply State.Kept.releaseDebug
    | with_reducible apply State.Kept.modCell
    | split
    | (simp; done)

theorem State.Kept.badResp {s₀ s : State} (h₀ : s₀.Kept s) : s₀.Kept (s.badResp) := by
  unfold State.badResp
  dsimp only
  repeat' first
    | with_reducible assumption
    | with_reducible apply State.Kept.raise
    | with_reducible apply State.Kept.event
    | split
    | with_reducible refine State.Kept.mk ?_ rfl rfl

theorem State.Kept.respEffect {s₀ s : State} (h₀ : s₀.Kept s) (q : Session) (c : CellNo) (code : Byte) :
    s₀.Kept (s.respEffect q c code) := by
  unfold State.respEffect
  dsimp only
  repeat' first
    | with_reducible assumption
    | with_reducible apply State.Kept.modSession
    | with_reducible apply State.Kept.setLevel
    | with_reducible apply State.Kept.event
    | with_reducible apply State.Kept.badResp
    | split

theorem State.Kept.dropLevel {s₀ s : State} (h₀ : s₀.Kept s) (q : Session) (c : CellNo) (v : Byte) :
    s₀.Kept (s.dropLevel q c v) := by
  unfold State.dropLevel
  repeat' first
    | with_reducible assumption
    | with_reducible apply State.Kept.setLevel
    | split

@[simp] theorem Cell.setSpace0_mem (x : Cell) (l : List Byte) : (x.setSpace0 l).mem = x.mem := by
  unfold Cell.setSpace0
  rfl

theorem State.Kept.debugOut {s₀ s : State} (h₀ : s₀.Kept s) (c : CellNo) (live : Bool) (a : Nat) (v : Byte) :
    s₀.Kept (s.debugOut c live a v) := by
  unfold State.debugOut
  dsimp only
  repeat' first
    | with_reducible assumption
    | with_reducible apply State.Kept.ioWriteAs
    | with_reducible apply State.Kept.setCell
    | split
    | (simp; done)

theorem State.Kept.dbgAdvance {s₀ s : State} (h₀ : s₀.Kept s) (q : Session) (c : CellNo) :
    s₀.Kept (s.dbgAdvance q c) := h₀.modSession ..

theorem State.Kept.debugOuts {s₀ s : State} (h₀ : s₀.Kept s) (c : CellNo) (live : Bool) (a : Nat) (l : List Byte) :
    s₀.Kept (s.debugOuts c live a l) := by
  induction l generalizing s a with
  | nil => exact h₀
  | cons v r ih => exact ih (h₀.debugOut c live a v) (a + 1)

theorem State.Kept.debugIn {s₀ s : State} (h₀ : s₀.Kept s) (c : CellNo) (live force : Bool) (a : Nat) :
    s₀.Kept (s.debugIn c live force a).1 := by
  unfold State.debugIn
  dsimp only
  split
  · split
    · exact h₀.ioRead ..
    · exact h₀.modDbg ..
  · exact h₀

theorem State.Kept.debugIns {s₀ s : State} (h₀ : s₀.Kept s) (c : CellNo) (live force : Bool) (a n : Nat) :
    s₀.Kept (s.debugIns c live force a n).1 := by
  induction n generalizing s a with
  | zero => exact h₀
  | succ n ih => exact ih (h₀.debugIn c live force a) (a + 1)

theorem State.Kept.dbgRead {s₀ s : State} (h₀ : s₀.Kept s) (q : Session) (c : CellNo) : s₀.Kept (s.dbgRead q c).1 := by
  unfold State.dbgRead
  extract_lets x space a n force r forced t
  have hr : s₀.Kept r.1 := by
    unfold r
    clear_value space
    match space with
    | 0 => exact h₀
    | 1 => exact h₀.debugIns ..
    | 2 => exact h₀.debugIns ..
    | 3 => exact h₀
    | 4 => exact h₀
    | 5 => exact h₀
    | _ + 6 => exact h₀
  refine State.Kept.dbgAdvance ?_ q c
  unfold t
  split
  · exact hr.event ..
  · exact hr

theorem State.Kept.newChallenge {s₀ s : State} (h₀ : s₀.Kept s) (q : Session) (c : CellNo) :
    s₀.Kept (s.newChallenge q c).1 := by
  unfold State.newChallenge
  dsimp only
  with_reducible apply State.Kept.modSession
  with_reducible refine State.Kept.mk h₀ rfl rfl

theorem Cell.dWrite_wf {x y : Cell} {a : Half} {l : List Byte} (e : x.dWrite a l = .ok y) (h : Memory.wf x.mem = true) :
    Memory.wf y.mem = true := by
  unfold Cell.dWrite at e
  split at e
  · cases e
  · cases e; exact Cell.putMem_wf _ _ _ h

theorem State.Kept.dbgWrite {s₀ s : State} (h₀ : s₀.Kept s) (q : Session) (c : CellNo) (l : List Byte) :
    s₀.Kept (s.dbgWrite q c l) := by
  unfold State.dbgWrite
  dsimp only
  with_reducible apply State.Kept.dbgAdvance
  split
  · exact h₀.setCell c (by simp)
  · exact h₀.debugOuts ..
  · exact h₀.debugOuts ..
  · split
    · exact h₀.setCell_wf c (Cell.dWrite_wf ‹_›)
    · exact h₀
  · exact h₀
  · exact h₀.setCell_wf c (Cell.writeMemList_wf _ _ _)
  · exact h₀.setCell c rfl

theorem State.Kept.askHalt {s₀ s : State} (h₀ : s₀.Kept s) (c : CellNo) : s₀.Kept (s.askHalt c) := by
  unfold State.askHalt
  repeat' first
    | with_reducible assumption
    | with_reducible apply State.Kept.haltCell
    | with_reducible apply State.Kept.modDbg
    | split

theorem State.Kept.dbgCmd {s₀ s : State} (h₀ : s₀.Kept s) (c : CellNo) (v : Nat) : s₀.Kept (s.dbgCmd c v) := by
  unfold State.dbgCmd
  repeat' first
    | with_reducible assumption
    | with_reducible apply State.Kept.askHalt
    | with_reducible apply State.Kept.modCtl
    | split

theorem State.Kept.takeHalt {s₀ s : State} (h₀ : s₀.Kept s) (c : CellNo) : s₀.Kept (s.takeHalt c) := by
  unfold State.takeHalt
  dsimp only
  repeat' first
    | with_reducible assumption
    | with_reducible apply State.Kept.haltCell
    | with_reducible apply State.Kept.lapse
    | with_reducible apply State.Kept.modDbg
    | split

theorem State.Kept.haltAgain {s₀ s : State} (h₀ : s₀.Kept s) (c : CellNo) (prior : CState) (pace : Pace) (cause : Byte) :
    s₀.Kept (s.haltAgain c prior pace cause) := by
  unfold State.haltAgain
  repeat' first
    | with_reducible assumption
    | with_reducible apply State.Kept.raise
    | with_reducible apply State.Kept.modCell
    | with_reducible rfl

theorem State.Kept.dbgStatRead {s₀ s : State} (h₀ : s₀.Kept s) (c : CellNo) (n : Half) :
    s₀.Kept (s.dbgStatRead c n) := h₀.modDbg ..

theorem State.Kept.closeSession {s₀ s : State} (h₀ : s₀.Kept s) (q : Session) (cause : Nat) :
    s₀.Kept (s.closeSession q cause) := by
  unfold State.closeSession
  repeat' first
    | with_reducible assumption
    | with_reducible apply State.Kept.event
    | with_reducible apply State.Kept.raise
    | with_reducible apply State.Kept.releaseDebug
    | with_reducible apply State.Kept.modMc
    | with_reducible refine State.Kept.foldl ?_ _ ?_
    | with_reducible rfl
    | split
    | intro _ _ _

theorem State.Kept.closeTransport {s₀ s : State} (h₀ : s₀.Kept s) (t : Fin 7) : s₀.Kept (s.closeTransport t) := by
  unfold State.closeTransport
  repeat' first
    | with_reducible assumption
    | with_reducible apply State.Kept.closeSession
    | with_reducible refine State.Kept.foldl ?_ _ ?_
    | intro _ _ _

theorem State.Kept.unshare {s₀ s : State} (h₀ : s₀.Kept s) (c : CellNo) : s₀.Kept (s.unshare c) := by
  unfold State.unshare
  dsimp only
  repeat' first
    | with_reducible assumption
    | with_reducible apply State.Kept.setPte
    | with_reducible apply State.Kept.modKp
    | with_reducible refine State.Kept.foldl ?_ _ ?_
    | split
    | intro _ _ _

theorem State.Kept.startLoad {s₀ s : State} (h₀ : s₀.Kept s) (c : CellNo) : s₀.Kept (s.startLoad c) := by
  unfold State.startLoad
  repeat' first
    | with_reducible assumption
    | with_reducible apply State.Kept.modCell
    | with_reducible rfl
    | split

theorem State.Kept.clearSlot {s₀ s : State} (h₀ : s₀.Kept s) (v : Nat) : s₀.Kept (s.clearSlot v) := by
  unfold State.clearSlot
  dsimp only
  repeat' first
    | with_reducible assumption
    | with_reducible apply State.Kept.modCell
    | split
    | (simp; done)

theorem State.Kept.unitEffect {s₀ s : State} (h₀ : s₀.Kept s) (o : Obj) (old v : Nat) : s₀.Kept (s.unitEffect o old v) := by
  unfold State.unitEffect
  dsimp only
  repeat' first
    | with_reducible assumption
    | with_reducible apply State.Kept.closeTransport
    | with_reducible apply State.Kept.clearSlot
    | with_reducible apply State.Kept.fenceCheck
    | with_reducible apply State.Kept.unshare
    | with_reducible apply State.Kept.dropLink
    | with_reducible apply State.Kept.linksChanged
    | with_reducible apply State.Kept.startTrain
    | with_reducible apply State.Kept.headEnable
    | with_reducible apply State.Kept.modMc
    | with_reducible apply State.Kept.modCell
    | with_reducible apply State.Kept.modPort
    | with_reducible rfl
    | split
    | with_reducible refine State.Kept.mk ?_ rfl rfl

theorem State.Kept.lkRetrain {s₀ s : State} (h₀ : s₀.Kept s) (l : Fin 7) : s₀.Kept (s.lkRetrain l) := by
  unfold State.lkRetrain
  dsimp only
  repeat' first
    | with_reducible assumption
    | with_reducible apply State.Kept.retrain
    | with_reducible apply State.Kept.linksChanged
    | with_reducible apply State.Kept.startTrain
    | split

theorem State.Kept.numEffect {s₀ s : State} (h₀ : s₀.Kept s) (q : Session) (o : Obj) (v : Nat) :
    s₀.Kept (s.numEffect q o v) := by
  unfold State.numEffect
  dsimp only
  repeat' first
    | with_reducible assumption
    | with_reducible apply State.Kept.modSession
    | with_reducible apply State.Kept.startLoad
    | with_reducible apply State.Kept.elect
    | with_reducible apply State.Kept.lkRetrain
    | with_reducible apply State.Kept.takeMode
    | with_reducible apply State.Kept.deviceReset
    | with_reducible apply State.Kept.writePdEn
    | with_reducible apply State.Kept.dropLevel
    | with_reducible apply State.Kept.dbgCmd
    | with_reducible apply State.Kept.unitEffect
    | with_reducible apply State.Kept.modCtl
    | with_reducible apply State.Kept.modCell
    | with_reducible apply State.Kept.modPwr
    | with_reducible apply State.Kept.objPut
    | with_reducible apply State.Kept.modDbg
    | with_reducible rfl
    | split

theorem State.Kept.vtIn {s₀ s : State} (h₀ : s₀.Kept s) (q : Session) (c : CellNo) (bytes : List Byte) :
    s₀.Kept (s.vtIn q c bytes) := by
  unfold State.vtIn
  repeat' first
    | with_reducible assumption
    | with_reducible apply State.Kept.vtRxWrite
    | split

theorem State.Kept.writeEffect {s₀ s : State} (h₀ : s₀.Kept s) (q : Session) (o : Obj) (bytes : List Byte) (code : Byte) :
    s₀.Kept (s.writeEffect q o bytes code) := by
  unfold State.writeEffect
  repeat' first
    | with_reducible assumption
    | with_reducible apply State.Kept.respEffect
    | with_reducible apply State.Kept.dbgWrite
    | with_reducible apply State.Kept.vtIn
    | with_reducible apply State.Kept.numEffect
    | split

theorem State.Kept.sendDict {s₀ s : State} (h₀ : s₀.Kept s) (d : BitVec 3) (session : Half) (body : List Byte) :
    s₀.Kept (s.sendDict d session body) := h₀.sendParts ..

theorem State.Kept.draw {s₀ s : State} (h₀ : s₀.Kept s) : s₀.Kept (s.draw) := by
  unfold State.draw
  repeat' first
    | with_reducible assumption
    | with_reducible refine State.Kept.mk ?_ rfl rfl

theorem State.Kept.journalFor {s₀ s : State} (h₀ : s₀.Kept s) (q : Session) (e : JEntry) : s₀.Kept (s.journalFor q e) := by
  unfold State.journalFor
  repeat' first
    | with_reducible assumption
    | with_reducible apply State.Kept.journal
    | split
    | with_reducible refine State.Kept.mk ?_ rfl rfl

theorem State.Kept.keep {s₀ s : State} (h₀ : s₀.Kept s) (q : Session) (l rsp : List Byte) :
    s₀.Kept (s.keep q l rsp) := h₀.modSession ..

theorem State.Kept.noteSession {s₀ s : State} (h₀ : s₀.Kept s) (q : Session) : s₀.Kept (s.noteSession q) := by
  unfold State.noteSession
  repeat' first
    | with_reducible assumption
    | with_reducible apply State.Kept.modMc
    | with_reducible rfl
    | split

theorem State.Kept.writeAway {s₀ s : State} (h₀ : s₀.Kept s) (q : Session) (o : Obj) (d : BitVec 3) (ty : Nat) (b : List Byte) (e : Byte) :
    s₀.Kept (s.writeAway q o d ty b e).1 := by
  unfold State.writeAway
  split
  · exact h₀
  · split
    · exact h₀
    · exact (h₀.draw).sendDict ..

theorem State.Kept.writeItem {s₀ s : State} (h₀ : s₀.Kept s) (q : Session) (idx sub ty : Nat) (b : List Byte) (boot : Bool) :
    s₀.Kept (s.writeItem q idx sub ty b boot).1 := by
  unfold State.writeItem
  extract_lets q
  split
  · exact h₀.journalFor ..
  · split
    · exact ((h₀.writeAway ..).draw).journalFor ..
    · dsimp only
      with_reducible apply State.Kept.writeEffect
      split
      · exact h₀
      · exact h₀.journalFor ..

theorem State.Kept.readBytes {s₀ s t : State} (h₀ : s₀.Kept s) {q : Session} {o : Obj} {room : Nat} {l : List Byte}
    (e : s.readBytes q o room = some (t, l)) : s₀.Kept t := by
  have fit : ∀ {u : State} {m : List Byte}, s₀.Kept u → (if m.length ≤ room then some (u, m) else none) = some (t, l) → s₀.Kept t := by
    intro u m hu h
    split at h
    · cases h; exact hu
    · cases h
  unfold State.readBytes at e
  dsimp only at e
  split at e
  · refine fit ?_ e
    split
    · exact h₀.dbgStatRead ..
    · exact h₀
  · split at e
    · exact fit (State.Kept.modMc h₀ rfl rfl) e
    · exact fit (State.Kept.modMc h₀ rfl rfl) e
    · split at e
      · cases e
      · cases e; exact h₀.newChallenge ..
    · split at e
      · cases e
      · cases e; exact h₀.dbgRead ..
    · cases e; exact h₀.vtTxTake ..
    · cases e; exact h₀
    · exact fit h₀ e
    · split at e
      · cases e
      · cases e; exact h₀.modSession ..
    · exact fit h₀ e

theorem State.Kept.readAway {s₀ s : State} (h₀ : s₀.Kept s) (q : Session) (o : Obj) (d : BitVec 3) :
    s₀.Kept (s.readAway q o d).1 := by
  unfold State.readAway
  dsimp only
  split
  · exact h₀
  · split
    · exact h₀
    · split
      · exact h₀
      · split
        · exact h₀
        · with_reducible apply State.Kept.sendDict
          with_reducible refine State.Kept.mk h₀ rfl rfl

theorem State.Kept.readItem {s₀ s : State} (h₀ : s₀.Kept s) (q : Session) (idx sub room : Nat) :
    s₀.Kept (s.readItem q idx sub room).1 := by
  unfold State.readItem
  extract_lets q
  split
  · exact h₀
  · split
    · exact h₀.readAway ..
    · dsimp only
      split
      · exact h₀
      · split
        · exact h₀
        · exact h₀.readBytes ‹_›

theorem State.Kept.readItems {s₀ s : State} (h₀ : s₀.Kept s) (q : Session) (room : Nat) (l : List Item) :
    s₀.Kept (s.readItems q room l).1 := by
  induction l generalizing s room with
  | nil => exact h₀
  | cons i r ih => exact ih (State.Kept.modMc (h₀.readItem ..) rfl rfl) _

theorem State.Kept.writeItems {s₀ s : State} (h₀ : s₀.Kept s) (q : Session) (l : List Item) :
    s₀.Kept (s.writeItems q l).1 := by
  induction l generalizing s with
  | nil => exact h₀
  | cons i r ih => exact ih (State.Kept.modMc (h₀.writeItem ..) rfl rfl)

theorem State.Kept.execItems {s₀ s : State} (h₀ : s₀.Kept s) (q : Session) (h : MsgHead) (l : List Byte) (limit : Nat) :
    s₀.Kept (s.execItems q h l limit).1 := by
  unfold State.execItems
  dsimp only
  split
  · split
    · exact (h₀.modSession ..).sendDict ..
    · exact h₀
  · split
    · exact h₀.readItems ..
    · exact h₀.writeItems ..

theorem State.Kept.execBounded {s₀ s : State} (h₀ : s₀.Kept s) (q : Session) (h : MsgHead) (l : List Byte) (limit : Nat) :
    s₀.Kept (s.execBounded q h l limit).1 := by
  unfold State.execBounded
  dsimp only
  split
  · exact h₀.execItems ..
  · split
    · exact h₀
    · exact h₀.execItems ..

theorem State.Kept.writeOne {s₀ s : State} (h₀ : s₀.Kept s) (o : Origin) (idx sub : Nat) (bytes : List Byte) :
    s₀.Kept (s.writeOne o idx sub bytes) := by
  unfold State.writeOne
  split
  · exact h₀
  · exact State.Kept.modMc ((h₀.noteSession _).writeItem ..) rfl rfl

theorem State.Kept.readOne {s₀ s : State} (h₀ : s₀.Kept s) (o : Origin) (idx sub : Nat) :
    s₀.Kept (s.readOne o idx sub) := by
  unfold State.readOne
  split
  · exact h₀
  · exact State.Kept.modMc ((h₀.noteSession _).readItem ..) rfl rfl

theorem State.Kept.mbxEnd {s₀ s : State} (h₀ : s₀.Kept s) (rsp : List Byte) : s₀.Kept (s.mbxEnd rsp) := by
  unfold State.mbxEnd
  repeat' first
    | with_reducible assumption
    | with_reducible apply State.Kept.msi
    | with_reducible apply State.Kept.modMc
    | with_reducible rfl

theorem State.Kept.cmdEnd {s₀ s : State} (h₀ : s₀.Kept s) (rsp : List Byte) : s₀.Kept (s.cmdEnd rsp) := by
  unfold State.cmdEnd
  repeat' first
    | with_reducible assumption
    | with_reducible apply State.Kept.raise
    | with_reducible apply State.Kept.modLink
    | split

theorem State.Kept.t1sSend {s₀ s : State} (h₀ : s₀.Kept s) (mac : Long) (payload : List Byte) :
    s₀.Kept (s.t1sSend mac payload) := by
  unfold State.t1sSend
  repeat' first
    | with_reducible assumption
    | with_reducible apply State.Kept.modMc
    | with_reducible rfl

theorem State.Kept.canSend {s₀ s : State} (h₀ : s₀.Kept s) (k : Fin 2) (fd : Bool) (node : Byte) (rsp : List Byte) :
    s₀.Kept (s.canSend k fd node rsp) := by
  unfold State.canSend
  repeat' first
    | with_reducible assumption
    | with_reducible apply State.Kept.modMc
    | with_reducible rfl

theorem State.Kept.answer {s₀ s : State} (h₀ : s₀.Kept s) (q : Session) (rsp : List Byte) : s₀.Kept (s.answer q rsp) := by
  unfold State.answer
  repeat' first
    | with_reducible assumption
    | with_reducible apply State.Kept.keep
    | with_reducible apply State.Kept.modSession
    | with_reducible apply State.Kept.mbxEnd
    | with_reducible apply State.Kept.cmdEnd
    | with_reducible apply State.Kept.t1sSend
    | with_reducible apply State.Kept.canSend
    | split

theorem State.Kept.open {s₀ s : State} (h₀ : s₀.Kept s) (t : Fin 7) (node : Byte) (mac : Long) (h : MsgHead) (l : List Byte) :
    s₀.Kept (s.open t node mac h l).1 := by
  unfold State.open
  split
  · exact h₀
  · split
    · exact h₀
    · exact (State.Kept.modMc (h₀.draw) rfl rfl).event ..

set_option maxRecDepth 2000 in
theorem State.Kept.serveClient {s₀ s : State} (h₀ : s₀.Kept s) (t : Fin 7) (node : Byte) (mac : Long) (l : List Byte) (ex : Bool) (limit : Nat) :
    s₀.Kept (s.serveClient t node mac l ex limit).1 := by
  unfold State.serveClient
  extract_lets h bad
  split
  · exact h₀
  · split
    · repeat' first
        | exact h₀
        | split
      exact h₀.open ..
    · split
      · exact h₀
      · rename_i q _
        split
        · exact h₀
        · split
          · exact h₀.keep ..
          · split
            · exact h₀.closeSession ..
            · split
              · exact h₀.keep ..
              · extract_lets r
                have hr : s₀.Kept r.1 := by
                  unfold r
                  split
                  · exact h₀.execBounded ..
                  · exact h₀.execItems ..
                split
                · exact hr
                · exact hr.keep ..

theorem State.Kept.serveFixed {s₀ s : State} (h₀ : s₀.Kept s) (n : Half) (t : Fin 7) (l : List Byte) (ex : Bool) (limit : Nat) :
    s₀.Kept (s.serveFixed n t l ex limit).1 := by
  unfold State.serveFixed
  dsimp only
  split
  · exact h₀
  · split
    · exact h₀
    · split
      · exact h₀
      · split
        · exact h₀.keep ..
        · split
          · exact h₀.execBounded ..
          · exact (h₀.execBounded ..).keep ..

theorem State.Kept.dictIn {s₀ s : State} (h₀ : s₀.Kept s) (src : BitVec 3) (body : List Byte) :
    s₀.Kept (s.dictIn src body) := by
  unfold State.dictIn
  extract_lets h
  split
  · exact h₀
  · split
    · split
      · exact h₀.answer ..
      · exact h₀
    · split
      · exact h₀
      · rename_i q _
        split
        · exact h₀.sendDict ..
        · have k := (h₀.noteSession q).execItems q { h with target := 0 } body 1500
          split
          · rename_i e; rw [e] at k; exact k
          · rename_i e
            rw [e] at k
            split
            · exact k
            · exact State.Kept.sendDict k ..

theorem State.Kept.setCan {s₀ s : State} (h₀ : s₀.Kept s) (k : Fin 2) (v : Can) : s₀.Kept (s.setCan k v) := by
  unfold State.setCan
  repeat' first
    | with_reducible assumption
    | with_reducible apply State.Kept.modMc
    | with_reducible rfl

theorem State.Kept.fgIoRead {s₀ s : State} (h₀ : s₀.Kept s) (c : CellNo) (a n : Nat) : s₀.Kept (s.fgIoRead c a n).1 := by
  induction n generalizing s a with
  | zero => exact h₀
  | succ n ih => exact ih (h₀.ioRead ..) (a + 1)

theorem State.Kept.fgIoWrite {s₀ s : State} (h₀ : s₀.Kept s) (c : CellNo) (a : Nat) (l : List Byte) :
    s₀.Kept (s.fgIoWrite c a l) := by
  induction l generalizing s a with
  | nil => exact h₀
  | cons v r ih => exact ih (h₀.ioWriteAs ..) (a + 1)

theorem State.Kept.fgSource {s₀ s : State} (h₀ : s₀.Kept s) (c : CellNo) (k : Fin 4) (w0 w1 w2 : Nat) :
    s₀.Kept (s.fgSource c k w0 w1 w2) := by
  unfold State.fgSource
  dsimp only
  split
  · split
    · exact h₀.modCell c (by simp)
    · exact (h₀.fgIoRead ..).modCell c (by simp)
  · split
    · exact h₀.modCell c (by simp)
    · exact h₀.modCell c (by simp)

theorem State.Kept.fgDest {s₀ s : State} (h₀ : s₀.Kept s) (c : CellNo) (k : Fin 4) (w1 w2 w3 : Nat) :
    s₀.Kept (s.fgDest c k w1 w2 w3) := by
  unfold State.fgDest
  dsimp only
  split
  · split
    · exact h₀.modCell c (by simp)
    · exact (h₀.fgIoWrite ..).modCell c (by simp)
  · split
    · refine State.Kept.modCell ?_ c (by simp)
      exact h₀.setCell_wf c fun w => Cell.writeMemList_wf _ _ _ w
    · exact h₀.modCell c (by simp)

theorem State.Kept.skip {s₀ s : State} (h₀ : s₀.Kept s) : s₀.Kept (s.skip) := h₀.modPwr ..

theorem State.Kept.applyRec {s₀ s : State} (h₀ : s₀.Kept s) (r : BootRec) : s₀.Kept (s.applyRec r) := by
  unfold State.applyRec
  dsimp only
  split
  · exact h₀.modPwr _
  · split
    · exact h₀.skip
    · split
      · exact h₀.writeItem ..
      · exact (h₀.writeItem ..).skip

theorem State.Kept.defaults {s₀ s : State} (h₀ : s₀.Kept s) (l : List Byte) : s₀.Kept (s.defaults l) := by
  unfold State.defaults
  dsimp only
  repeat' first
    | with_reducible assumption
    | with_reducible apply State.Kept.event
    | with_reducible apply State.Kept.applyRec
    | with_reducible refine State.Kept.foldl ?_ _ ?_
    | split
    | intro _ _ _

theorem State.Kept.applyHeld {s₀ s : State} (h₀ : s₀.Kept s) : s₀.Kept (s.applyHeld) := by
  unfold State.applyHeld
  refine State.Kept.foldl (fun u r h => ?_) _ (h₀.modPwr _)
  dsimp only
  split
  · exact h.writeItem ..
  · exact (h.writeItem ..).skip

theorem State.Kept.loadExt {s₀ s : State} (h₀ : s₀.Kept s) (l : List CsSect) : s₀.Kept (s.loadExt l) := by
  unfold State.loadExt
  repeat' first
    | with_reducible assumption
    | with_reducible apply State.Kept.event
    | split
    | with_reducible refine State.Kept.mk ?_ rfl rfl

theorem State.Kept.acceptImage {s₀ s : State} (h₀ : s₀.Kept s) (image : Byte) (mode us : Nat) (l : List Byte) :
    s₀.Kept (s.acceptImage image mode us l) := by
  unfold State.acceptImage
  repeat' first
    | with_reducible assumption
    | with_reducible apply State.Kept.loadExt
    | with_reducible apply State.Kept.defaults
    | with_reducible apply State.Kept.setMode
    | with_reducible apply State.Kept.trainStart
    | with_reducible apply State.Kept.modPwr
    | with_reducible refine State.Kept.foldl ?_ _ ?_
    | with_reducible refine State.Kept.mk ?_ rfl rfl
    | intro _ _ _

theorem State.Kept.bootRead {s₀ s : State} (h₀ : s₀.Kept s) (r : BootRead) : s₀.Kept (s.bootRead r) := by
  unfold State.bootRead
  dsimp only
  repeat' first
    | with_reducible assumption
    | with_reducible apply State.Kept.acceptImage
    | with_reducible apply State.Kept.faultHold
    | with_reducible apply State.Kept.event
    | with_reducible apply State.Kept.modPwr
    | split

theorem State.Kept.enterLoad {s₀ s : State} (h₀ : s₀.Kept s) (f : FuseData) : s₀.Kept (s.enterLoad f) := by
  unfold State.enterLoad
  dsimp only
  repeat' first
    | with_reducible assumption
    | with_reducible apply State.Kept.setMode
    | with_reducible apply State.Kept.setDom
    | with_reducible apply State.Kept.faultHold
    | with_reducible apply State.Kept.modPwr
    | with_reducible apply State.Kept.objPut
    | with_reducible refine State.Kept.foldl ?_ _ ?_
    | split
    | intro _ _ _

theorem State.Kept.guestSample {s₀ s : State} (h₀ : s₀.Kept s) (c : CellNo) : s₀.Kept (s.guestSample c) := by
  unfold State.guestSample
  dsimp only
  repeat' first
    | with_reducible assumption
    | with_reducible apply State.Kept.sendTo
    | with_reducible apply State.Kept.modCell
    | with_reducible rfl
    | split

theorem State.Kept.startSlot {s₀ s : State} (h₀ : s₀.Kept s) (k : Fin 24) (c : CellNo) (sl : Slot) (err : Option MicroErr) :
    s₀.Kept (s.startSlot k c sl err) := by
  unfold State.startSlot
  repeat' first
    | with_reducible assumption
    | with_reducible apply State.Kept.microError
    | with_reducible apply State.Kept.cellFault
    | with_reducible apply State.Kept.missSlot
    | with_reducible apply State.Kept.modVid
    | with_reducible apply State.Kept.modComb
    | split

end Sys2Proof.Machine
end

