-- ==== Sys2Proof/WellFormed.lean ====
section
/-! DEFINITION. Which commands are well formed on a part: the units they name are present (R1, R2), and their operands have
the sizes and the ranges that the rules give them. -/

namespace Sys2Proof

/-- The part has the cell (R1, R2). -/
def cellOk (p : Part) (c : CellNo) : Bool := decide (c.val < Config.cellCount p)

/-- The part has the comb (R1, R2). -/
def combOk (p : Part) (k : Fin 24) : Bool := decide (k.val < Config.combCount p)

/-- The part has the cell of the queue. -/
def queueOk (p : Part) (q : QueueId) : Bool :=
  match q with
  | .slice c => cellOk p c
  | .audio c => cellOk p c
  | .event c => cellOk p c
  | .input c => cellOk p c
  | .command => true
  | .notice => true

/-- The part has the cell of the rate bridge. -/
def bridgeOk (p : Part) (b : BridgeId) : Bool :=
  match b with
  | .cell c => cellOk p c
  | .port _ => true

/-- The part has the cell of the gain stage. -/
def gainOk (p : Part) (g : GainId) : Bool :=
  match g with
  | .host c => cellOk p c
  | .ear _ => true
  | .side _ => true
  | .mic _ => true

/-- The part has the control store. -/
def storeOk (p : Part) (u : StoreUnit) : Bool :=
  match u with
  | .cluster _ => true
  | .comb k => combOk p k

/-- Rates and widths of PCI Express (R397): generations 1 to 5, 1 to 16 lanes. -/
def linkOk (g : Fin 6) (w : Nat) : Bool := decide (1 ≤ g.val) && [1, 2, 4, 8, 16].contains w

/-- Sizes of a CAN or CAN FD data field (R446). -/
def canSizes : List Nat := [0, 1, 2, 3, 4, 5, 6, 7, 8, 12, 16, 20, 24, 32, 48, 64]

/-- The command is well formed on part `p`. -/
def Instr.wf (p : Part) (i : Instr) : Bool :=
  match i with
  | .houseFrameStart slots _ => (slots.all fun e => cellOk p e.cell)
  | .framePulse _ _ _ _ => true
  | .linePulse _ _ _ => true
  | .syncWindowExpire => true
  | .holdoverExpire => true
  | .cellLineStart c => cellOk p c
  | .geomSwitch c => cellOk p c
  | .spriteSnapshotDone c => cellOk p c
  | .programLineStart c _ => cellOk p c
  | .programFrameStart c => cellOk p c
  | .paceCredit c => cellOk p c
  | .vidCommit c => cellOk p c
  | .vbCaptureRead c _ => cellOk p c
  | .regCaptureRead c _ => cellOk p c
  | .regWrite c _ _ _ => cellOk p c
  | .lineLiveWrite c _ _ _ _ => cellOk p c
  | .nop c _ => cellOk p c
  | .sleep c => cellOk p c
  | .ei c => cellOk p c
  | .di c => cellOk p c
  | .ret c => cellOk p c
  | .reti c => cellOk p c
  | .rett c => cellOk p c
  | .scf c => cellOk p c
  | .clc c => cellOk p c
  | .ccf c => cellOk p c
  | .pushf c => cellOk p c
  | .popf c => cellOk p c
  | .add c _ _ => cellOk p c
  | .adc c _ _ => cellOk p c
  | .sub c _ _ => cellOk p c
  | .sbc c _ _ => cellOk p c
  | .and c _ _ => cellOk p c
  | .or c _ _ => cellOk p c
  | .xor c _ _ => cellOk p c
  | .cmp c _ _ => cellOk p c
  | .mov c _ _ => cellOk p c
  | .tst c _ _ => cellOk p c
  | .mul c _ _ => cellOk p c
  | .muls c _ _ => cellOk p c
  | .mulProductLand c => cellOk p c
  | .xch c _ _ => cellOk p c
  | .clz c _ _ => cellOk p c
  | .movw c _ _ => cellOk p c
  | .addw c _ _ => cellOk p c
  | .subw c _ _ => cellOk p c
  | .cmpw c _ _ => cellOk p c
  | .incw c _ => cellOk p c
  | .decw c _ => cellOk p c
  | .pushw c _ => cellOk p c
  | .popw c _ => cellOk p c
  | .ldsp c _ => cellOk p c
  | .stsp c _ => cellOk p c
  | .mfm c _ => cellOk p c
  | .mtm c _ => cellOk p c
  | .inc c _ => cellOk p c
  | .dec c _ => cellOk p c
  | .neg c _ => cellOk p c
  | .not c _ => cellOk p c
  | .shl c _ => cellOk p c
  | .shr c _ => cellOk p c
  | .sar c _ => cellOk p c
  | .rol c _ => cellOk p c
  | .ror c _ => cellOk p c
  | .swap c _ => cellOk p c
  | .push c _ => cellOk p c
  | .pop c _ => cellOk p c
  | .mff c _ => cellOk p c
  | .mtf c _ => cellOk p c
  | .ld c _ _ _ => cellOk p c
  | .st c _ _ => cellOk p c
  | .ldw c _ _ _ => cellOk p c
  | .stw c _ _ _ => cellOk p c
  | .ldc c _ _ _ => cellOk p c
  | .ldcw c _ _ _ => cellOk p c
  | .in c _ _ => cellOk p c
  | .out c _ _ => cellOk p c
  | .ins c _ _ _ _ => cellOk p c
  | .ext c _ _ _ _ => cellOk p c
  | .exts c _ _ _ _ => cellOk p c
  | .perm c _ _ _ => cellOk p c
  | .bit c _ _ => cellOk p c
  | .setb c _ _ => cellOk p c
  | .clrb c _ _ => cellOk p c
  | .bra c _ => cellOk p c
  | .beq c _ => cellOk p c
  | .bne c _ => cellOk p c
  | .bcs c _ => cellOk p c
  | .bcc c _ => cellOk p c
  | .bmi c _ => cellOk p c
  | .bpl c _ => cellOk p c
  | .bvs c _ => cellOk p c
  | .bvc c _ => cellOk p c
  | .bhi c _ => cellOk p c
  | .bls c _ => cellOk p c
  | .bge c _ => cellOk p c
  | .blt c _ => cellOk p c
  | .bgt c _ => cellOk p c
  | .ble c _ => cellOk p c
  | .bsr c _ => cellOk p c
  | .jmp c _ => cellOk p c
  | .call c _ => cellOk p c
  | .djnz c _ _ => cellOk p c
  | .trap c _ => cellOk p c
  | .loop c _ _ => cellOk p c
  | .leave c => cellOk p c
  | .pushl c => cellOk p c
  | .popl c => cellOk p c
  | .mflc c _ => cellOk p c
  | .extensionOpcode c => cellOk p c
  | .reservedOpcode c => cellOk p c
  | .interruptEntry c => cellOk p c
  | .wdwEntry c => cellOk p c
  | .paceEntry c => cellOk p c
  | .csRepairDone _ => true
  | .microTrap _ _ => true
  | .cellStart c _ _ => cellOk p c
  | .cellPause c => cellOk p c
  | .cellResume c _ => cellOk p c
  | .cellStop c => cellOk p c
  | .cellResetCmd c => cellOk p c
  | .cellUnload c => cellOk p c
  | .cellProfileWrite c _ _ => cellOk p c
  | .wake c _ _ => cellOk p c
  | .sleepAlarm c _ => cellOk p c
  | .sysResetWrite c _ => cellOk p c
  | .lockedSeqExpire c => cellOk p c
  | .resetCauseRead c => cellOk p c
  | .paceOvrCntRead c => cellOk p c
  | .icPendsetWrite c _ _ => cellOk p c
  | .icEoiWrite c _ => cellOk p c
  | .intSourceEdge c _ => cellOk p c
  | .sharedSourceEvent _ => true
  | .shRouteWrite _ _ _ => true
  | .mapWindowWrite c _ _ _ => cellOk p c
  | .mapKeyWrite c _ => cellOk p c
  | .imgLoad c _ _ => cellOk p c
  | .imgLoadDone c _ _ => cellOk p c
  | .shareScopeWrite c _ _ => cellOk p c
  | .pageMoveStart _ _ _ => true
  | .pageRedirect _ => true
  | .pageShareCompare _ _ => true
  | .slotRelease c _ => cellOk p c
  | .slotStart k _ => combOk p k
  | .slotFetchArrive k _ => combOk p k
  | .slotComplete k => combOk p k
  | .slotMiss c => cellOk p c
  | .prefillRelease c => cellOk p c
  | .prefillEnd c => cellOk p c
  | .lsMisscntRead c => cellOk p c
  | .sprStatRead c => cellOk p c
  | .wgEnd c => cellOk p c
  | .wgWait c => cellOk p c
  | .wgWr8 c => cellOk p c
  | .wgWr16 c => cellOk p c
  | .wgPal c => cellOk p c
  | .wgTbl c => cellOk p c
  | .wgRepl c => cellOk p c
  | .wgEndr c => cellOk p c
  | .wgIrq c => cellOk p c
  | .wgNop c => cellOk p c
  | .wgJmp c => cellOk p c
  | .wgStatRead c => cellOk p c
  | .palDataWrite c _ _ _ => cellOk p c
  | .palDataRead c => cellOk p c
  | .wbStatRead c => cellOk p c
  | .flipSealWrite _ _ _ _ _ => true
  | .sealWrite _ _ _ _ _ => true
  | .windowWrite _ _ _ _ _ => true
  | .blitStart c => cellOk p c
  | .blitCancel c => cellOk p c
  | .blitOpBegin c => cellOk p c
  | .blitBurstDone _ _ => true
  | .fgStart c _ => cellOk p c
  | .fgCancel c _ => cellOk p c
  | .fgDescFetch c _ => cellOk p c
  | .fgBeat c _ _ => cellOk p c
  | .ckStart c => cellOk p c
  | .ckFinish c => cellOk p c
  | .ckAbort c => cellOk p c
  | .ckFeed c _ _ _ => cellOk p c
  | .ckResultReady c => cellOk p c
  | .timerCount c _ => cellOk p c
  | .tgStartTimers c _ => cellOk p c
  | .tgStopTimers c _ => cellOk p c
  | .timerCaptureCmd c _ => cellOk p c
  | .timerCapRead c _ => cellOk p c
  | .timerCmpWrite c _ _ _ => cellOk p c
  | .timerCntRead c _ => cellOk p c
  | .wdTick c => cellOk p c
  | .wdWarnReached c => cellOk p c
  | .wdExpire c => cellOk p c
  | .wdKickWrite c _ => cellOk p c
  | .wdKeyWrite c _ => cellOk p c
  | .wdCtlWrite c _ => cellOk p c
  | .wdConfigWrite c _ _ _ => cellOk p c
  | .samplePoint c _ => cellOk p c
  | .soundRegWrite c _ _ _ _ => cellOk p c
  | .vcFifoPush c _ _ => cellOk p c
  | .vcFlush c _ => cellOk p c
  | .waveFetch c _ => cellOk p c
  | .masterClockLoss _ => true
  | .masterClockReturn _ => true
  | .bridgeLock b => bridgeOk p b
  | .hsSrcWrite _ _ _ => true
  | .gainWrite g _ _ => gainOk p g
  | .gainStepTimeout g => gainOk p g
  | .jackInsert _ => true
  | .jackTyped _ codes => (codes.all fun v => decide (v < 4096))
  | .jackRemove _ => true
  | .buttonSample _ code => (decide (code < 4096))
  | .audioPacket c _ => cellOk p c
  | .keeperCoreDecision c _ _ => cellOk p c
  | .keeperPageDecision _ => true
  | .keeperRundevDecision c _ _ _ => cellOk p c
  | .coreMoveDone c => cellOk p c
  | .fenceWrite _ _ _ => true
  | .capRecordWrite _ _ _ _ => true
  | .linkSignal _ _ => true
  | .linkTrainRateDone _ _ => true
  | .linkRetryTimeout _ => true
  | .lkRetrainWrite _ _ _ => true
  | .jajanHello _ _ => true
  | .jajanCtrl _ _ => true
  | .jajanNak _ _ => true
  | .jajanBeam _ _ _ => true
  | .jajanSlice _ _ => true
  | .jajanAudio _ _ => true
  | .jajanEvent _ _ _ => true
  | .jajanCellio _ _ => true
  | .jajanDict _ _ => true
  | .jajanPage _ _ => true
  | .jajanState _ _ => true
  | .migcStart _ _ _ => true
  | .migcReady _ _ => true
  | .migcGo _ _ _ => true
  | .migcAck _ _ => true
  | .migcCancel _ _ _ => true
  | .replayTimeout _ => true
  | .idleCtrlTimer _ => true
  | .delayMeasure _ _ => true
  | .swElectWrite _ _ => true
  | .masterLost => true
  | .precopyPassDone c => cellOk p c
  | .switchWindowOpen c => cellOk p c
  | .vfFlr c => cellOk p c
  | .pf0Flr => true
  | .queueCtlWrite q _ _ => queueOk p q
  | .queueHeadWrite q _ => queueOk p q
  | .queuePop q bytes => queueOk p q && (decide (1 ≤ bytes))
  | .queueWindowWrite q _ _ _ => queueOk p q
  | .queueDrop q => queueOk p q
  | .packetDeliver q => queueOk p q
  | .queueStall q => queueOk p q
  | .commandPacketTake => true
  | .hostMailboxWrite c _ _ _ => cellOk p c
  | .mbAckWrite c _ => cellOk p c
  | .eventPush c _ _ _ => cellOk p c
  | .eventDrop c => cellOk p c
  | .hdEnWrite _ _ _ => true
  | .headLineStart _ => true
  | .overlayRowArrive _ _ _ _ _ => true
  | .hotplug _ _ => true
  | .headTrainDone _ _ => true
  | .headTrainRetry _ => true
  | .dictOpen _ _ _ => true
  | .dictClose _ _ => true
  | .dictRead _ _ => true
  | .dictWrite _ _ => true
  | .dictKeep _ _ => true
  | .sessionIdleTimeout _ => true
  | .mbxGo _ buf => (buf.length == 240)
  | .t1sFrame _ _ => true
  | .t1sAppRxRead _ => true
  | .canFrame _ fd _ data => (canSizes.contains data.length && (fd || decide (data.length ≤ 8)))
  | .canSegTimeout _ _ => true
  | .canAppRxRead _ _ => true
  | .jrBlockRead _ => true
  | .dbgChalRead c _ => cellOk p c
  | .dbgRespWrite c _ resp => cellOk p c && (resp.length == 16)
  | .challengeExpire _ => true
  | .dbgLockoutEnd => true
  | .dbgDropWrite c _ _ => cellOk p c
  | .dbgHalt c _ => cellOk p c
  | .dbgStep c _ => cellOk p c
  | .dbgResume c _ _ => cellOk p c
  | .dbgDataRead c _ => cellOk p c
  | .dbgDataWrite c _ _ => cellOk p c
  | .dbgVtOutRead c _ => cellOk p c
  | .dbgVtInWrite c _ bytes => cellOk p c && (decide (1 ≤ bytes.length) && decide (bytes.length ≤ 64))
  | .vtTxWrite c _ => cellOk p c
  | .vtRxRead c => cellOk p c
  | .vtHostRxRead c => cellOk p c
  | .vtHostTxWrite c _ _ => cellOk p c
  | .powerOn => true
  | .railsGood _ _ => true
  | .fusesRead f => (match f with | none => true | some d => d.key.length == 32 && decide (d.mac.toNat < 2 ^ 48))
  | .bootImageDone _ => true
  | .bootGo _ _ => true
  | .trainDone ch area => (ch.length == 8 && decide (area.length ≤ 128))
  | .modeReqReady _ => true
  | .modeReqServe _ => true
  | .modeReqRetain _ => true
  | .modeReqDiag _ => true
  | .drainComplete => true
  | .throttleStep _ => true
  | .pdEnWrite _ _ _ => true
  | .pdDrainEnd _ _ => true
  | .pdRampDownEnd _ => true
  | .pdRampUpEnd _ => true
  | .wakeNLow => true
  | .padWakeEdge _ _ => true
  | .wakeWordWrite => true
  | .fieldWakeFrame => true
  | .wakeTimeAlarm => true
  | .resetNLow => true
  | .devResetWrite _ _ => true
  | .mcWdogExpire => true
  | .fhAutoReset => true
  | .thermalTrip _ => true
  | .converterFrame temps taps ain => (temps.length == 16 && taps.length == 16 && ain.length == 4 && ain.all fun l => l.all fun v => decide (v < 4096))
  | .rldRefresh _ _ _ => true
  | .rldDriftTrack _ => true
  | .patrolScrub _ _ _ _ => true
  | .gpOwnerWrite _ _ _ => true
  | .gvSetWrite c _ _ _ => cellOk p c
  | .gvClrWrite c _ _ _ => cellOk p c
  | .pinFilterSettle _ _ => true
  | .bankVoltageChange _ _ => true
  | .suppliesRemoved => true
  | .hostLinkChange k => (match k with | .up g w _ => linkOk g w | .retrain g w _ => linkOk g w | .down => true | .reset => true | .corrected => true)
  | .vfEnableWrite _ => true
  | .linkUncorrectableCodewords _ => true
  | .audioFamilySample _ mics => (mics.length == 4)
  | .switchDeadline c => cellOk p c
  | .writebackWriteDone c => cellOk p c
  | .channelTrainDone _ _ => true
  | .canControllerStateChange _ _ => true
  | .thermalTripRelease _ => true
  | .tapClockEdge _ _ _ _ _ => true

end Sys2Proof
end

