-- ==== Sys2Proof/Tests/Slice0.lean ====
section
/-! SUPPORT. Tests: ill-formed terms that the checks refuse, a witness for the hypotheses of each statement, and small tests. -/

set_option Elab.async false

namespace Sys2Proof.Machine

/-! ## Small states -/

/-- The device in SERVE with every domain on. -/
def srv : State := { State.reset with pwr := { State.reset.pwr with mode := .serve, doms := Vector.replicate 63 { st := 2 } } }

/-- Cell 0 of a state changed. -/
def State.tweak (s : State) (f : Cell → Cell) : State := s.setCell 0 (f (s.cell 0))

/-- `srv` with cell 0 running on core 0, with page 0 in every window and `bytes` at PC 0100h. -/
def ek (bytes : List Byte) : State :=
  srv.tweak fun c => ({ c with
    prof := 3
    map := { c.map with pages := 1, win := Vector.ofFn fun i => BitVec.ofNat 16 (0x1000 + i.val % 4) }
    ctl := { c.ctl with st := .running }
    kp := { c.kp with core := some 0, onCore := true, pmap := [0] }
    beam := { c.beam with on := true, started := true }
    pace := { c.pace with avail := 10 }
    core := { c.core with pc := 0x0100, sp := 0x4000, b := Vector.ofFn fun i => BitVec.ofNat 8 (0x11 * i.val + 0x75) } } : Cell).writeMemList 0x0100 bytes

/-- `ek` with F. -/
def ekF (f : Byte) (bytes : List Byte) : State := (ek bytes).tweak fun c => { c with core := { c.core with f := f } }

/-- F, ED and the loop stack of cell 0. -/
def State.withCore (s : State) (f : Core → Core) : State := s.tweak fun c => { c with core := f c.core }

/-- `ek` with a vector table: the handler of vector `n` is the word of bytes 6n+5 and 6n+8. -/
def ekv (bytes : List Byte) : State :=
  (ekF 0x3F bytes).tweak (·.writeMemList 0x7FC0 ((List.range 64).map fun i => BitVec.ofNat 8 (i * 3 + 5)))

/-- Where an entry of `ekv` stores PC and F. -/
def entryAt : List Nat := [0x3FFE, 0x3FFF, 0x3FFD]

/-- An origin on CAN bus 0, its session, and a state in which it is open. -/
def oo : Origin := ⟨4, 0, 9, 0x1234⟩
def ses : Session := { num := 0x1234, transport := 4, node := 9 }
def State.withSession (s : State) (q : Session) : State := { s with mc := { s.mc with sessions := [q] } }
def sv : State := srv.withSession ses

/-- The row of an object of `sv`. -/
def rowAt (idx sub : Nat) : ObjRow := match sv.findObj idx sub with | some b => b.row | none => ⟨0, 0, .ro, 0, 0, 0⟩

/-- A message of session `sn` with items. -/
def message (op cnt : Byte) (items : List Byte) (sn : Half := 0x1234) : List Byte :=
  [1, op, 0, 0, loByte sn, hiByte sn, 7, 0, cnt, 0, 0, 0] ++ items

/-- The device with every memory channel of full density in use. -/
def State.withMem (s : State) : State :=
  { s with memu := { s.memu with density := 2, frames := 131072, chans := Vector.replicate 8 { st := 2, counted := true } } }

/-! ## Ill-formed commands -/

/-- Cells and combs that the part lacks (R2), by each operand that names one. -/
theorem wf_absent : ∀ i ∈ [Instr.nop 96 none, .slotStart 18 none, .houseFrameStart [⟨96, 0⟩] [], .bridgeLock (.cell 96),
    .gainStepTimeout (.host 96), .queueDrop (.slice 96), .queueDrop (.audio 96), .queueDrop (.event 96),
    .queueDrop (.input 96)], i.wf .ak6424fc = false := by decide +kernel

/-- The same commands on a part that has the units. -/
theorem wf_present : ∀ i ∈ [Instr.nop 96 none, .slotStart 18 none, .houseFrameStart [⟨96, 0⟩] [], .bridgeLock (.cell 96),
    .gainStepTimeout (.host 96), .queueDrop (.slice 96), .queueDrop .command, .bridgeLock (.port 3)],
    i.wf .ak6440fc = true := by decide +kernel

set_option maxRecDepth 10000 in
/-- Operands out of range: converter codes, lengths, a CAN size, a lane count, a fuse record. -/
theorem wf_ranges : ∀ i ∈ [Instr.jackTyped 0 [4096], .buttonSample 0 4096, .mbxGo 12 [], .canFrame 0 false 0 (List.replicate 12 0),
    .canFrame 0 true 0 (List.replicate 9 0), .queuePop .command 0, .dbgRespWrite 0 oo [], .dbgVtInWrite 0 oo [],
    .dbgVtInWrite 0 oo (List.replicate 65 0), .fusesRead (some ⟨0, 0, 0, [], false⟩),
    .fusesRead (some ⟨0, 0, BitVec.ofNat 64 (2 ^ 48), List.replicate 32 0, false⟩), .trainDone [] [],
    .trainDone (List.replicate 8 .unpowered) (List.replicate 129 0), .converterFrame [] [] [],
    .hostLinkChange (.up 0 16 256), .hostLinkChange (.up 5 3 256), .hostLinkChange (.retrain 5 32 256), .audioFamilySample true []],
    i.wf .ak6440fc = false := by decide +kernel

/-! ## Witnesses: EK8 -/

theorem witness_StepRunsFront : ({ srv with pending := [.nop 0 none] } : State).pending = .nop 0 none :: [] ∧ srv.pending = [] ∧
    srv.pwr.mode ≠ .off ∧ srv.pwr.crystalOff = false ∧ ({ srv with pwr := { srv.pwr with mode := .off } } : State).pwr.mode = .off := by
  decide +kernel

theorem witness_ByteAddSub : ∀ b ∈ [byteForm 0x10 1 (.reg 2), byteForm 0x11 1 (.imm 0x80), byteForm 0x12 0 (.reg 15),
    byteForm 0x13 15 (.imm 0xFF)], (ek b).issues 0 b = true := by decide +kernel

theorem witness_ByteLogicAndUnary : ∀ b ∈ [byteForm 0x14 1 (.reg 2), byteForm 0x15 0 (.reg 15), byteForm 0x16 15 (.imm 0x80),
    byteForm 0x17 1 (.reg 2), byteForm 0x18 15 (.imm 1), byteForm 0x19 1 (.reg 1), [0x30, 0], [0x31, 15], [0x32, 1], [0x33, 1],
    [0x34, 1], [0x35, 1], [0x36, 1], [0x37, 1], [0x38, 1], [0x39, 15]], (ek b).issues 0 b = true := by decide +kernel

theorem witness_ByteProductsAndFlags : (∀ b ∈ ([[0x1A, 0x12], [0x1B, 0xFF], [0x1C, 0x11], [0x1D, 0x0F], [0x00], [0x02], [0x03], [0x07],
    [0x08], [0x09], [0x3C, 0x0F], [0x3D, 0x00]] : List (List Byte)), (ekF 0x1F b).issues 0 b = true) ∧
    ((ek []).withCore fun k => { k with prod := some (5, 1) }).present 0 = true := by decide +kernel

theorem witness_WordInstructions : ∀ b ∈ ([[0x42, 0x12], [0x2A, 7, 0x23, 0x81], [0x40, 0x77], [0x2B, 0, 0x80], [0x41, 0x70], [0x43, 0x07],
    [0x2C, 1, 0x23, 0x81], [0x44, 0], [0x45, 7], [0x48, 2], [0x49, 1], [0x4A, 1], [0x4B, 7]] : List (List Byte)),
    (ek b).issues 0 b = true := by decide +kernel

theorem witness_StackTransfers :
    (∀ b ∈ ([[0x3A, 15], [0x0A], [0x46, 7], [0xA3], [0x3B, 0], [0x0B], [0x47, 7], [0x04]] : List (List Byte)), (ek b).issues 0 b = true) ∧
    (ek []).writesAt 0 0x3FFF [0x3FFF] ∧ (ek []).writesAt 0 0x3FFE [0x3FFE, 0x3FFF] ∧
    (ek []).writesAt 0 0x3FF8 [0x3FF8, 0x3FF9, 0x3FFA, 0x3FFB, 0x3FFC, 0x3FFD, 0x3FFE, 0x3FFF] ∧
    (ek []).readsAt 0 0x4000 [0x4000] ∧ (ek []).readsAt 0 0x4000 [0x4000, 0x4001] := by
  exact ⟨by decide +kernel, rfl, rfl, rfl, rfl, rfl⟩

/-- The base register 1 is A897h, so that its windows hold page 0; the last word wraps from the end of D-space. -/
theorem witness_LoadsAndStores :
    (∀ m ∈ [LdMode.ind 1, .inc 1, .disp 1 0x80, .abs 0xFFFF, .sp 0xFF, .idx 1 15],
      (ek (ldBytes 3 m)).issues 0 (ldBytes 3 m) = true ∧ (ek (stBytes 3 m)).issues 0 (stBytes 3 m) = true) ∧
    (∀ b ∈ ([[0x58, 0x41], [0x59, 0x11], [0x60, 0x21], [0x61, 0x21], [0x62, 0x11], [0x63, 0x41], [0x5A, 0x41], [0x5B, 0x11]] :
      List (List Byte)), (ek b).issues 0 b = true) ∧
    (ek []).readsAt 0 0xA897 [0x2897] ∧ (ek []).readsAt 0 0xFFFF [0x7FFF, 0] ∧ (ek []).writesAt 0 0xA897 [0x2897] ∧
    (ek []).writesAt 0 0xA897 [0x2897, 0x2898] ∧ ((ek []).cell 0).map.xlatI 0xA897 = .ok 0x2897 ∧
    ((ek []).cell 0).map.xlatI 0xA898 = .ok 0x2898 := by
  exact ⟨by decide +kernel, by decide, rfl, rfl, rfl, rfl, rfl, rfl⟩

theorem witness_FieldsAndInOut :
    (∀ m ∈ [IoMode.abs 0x0FFF, .abs 0x0120, .abs 0x013F, .ind 1, .inc 1],
      (ek (inBytes 3 m)).issues 0 (inBytes 3 m) = true ∧ (ek (outBytes 3 m)).issues 0 (outBytes 3 m) = true) ∧
    extSpace 0x0FFF = false ∧ ((ek []).cell 0).ioUnmapped 0x0FFF = true ∧ lockedAt 0x0FFF = none ∧
    (∀ b ∈ [[0x70, 0x12, 0x77], [0x71, 0x12, 0x70], [0x72, 0x12, 0x07], permBytes 1 1 (.imm 0x1B), permBytes 0 3 (.reg 2), [0x75, 0x71],
      [0x76, 0x0F], [0x77, 0x71]], (ek b).issues 0 b = true) := by decide +kernel

theorem witness_ControlTransfers :
    (∀ op ∈ [0x80, 0x81, 0x82, 0x83, 0x84, 0x85, 0x86, 0x87, 0x88, 0x89, 0x8A, 0x8B, 0x8C, 0x8D, 0x8E, 0x8F],
      (ek [op, 0x80]).issues 0 [op, 0x80] = true) ∧
    (∀ t ∈ [Target.abs 0xFFFF, .ind 7], (ek (callBytes t)).issues 0 (callBytes t) = true ∧
      (ek (jmpBytes t)).issues 0 (jmpBytes t) = true) ∧
    (ek [0x94, 15, 0x80]).issues 0 [0x94, 15, 0x80] = true ∧ (ek []).writesAt 0 0x3FFE [0x3FFE, 0x3FFF] := by
  exact ⟨by decide +kernel, by decide, by decide, rfl⟩

/-- A loop of count 0, one with three entries open, LEAVE of the only entry, POPL of an invalid and of a valid frame. -/
theorem witness_LoopUnit :
    let e : LoopEnt := ⟨0x101, 0x100, 9, 0⟩
    let open_ (n : Nat) (b : List Byte) : State := (ek b).withCore fun k => { k with loops := List.replicate n e }
    let frame (b : List Byte) (n : Nat) : State := (open_ n [0xA4]).tweak (·.writeMemList 0x4000 b)
    let ps : List Nat := [0x4000, 0x4001, 0x4002, 0x4003, 0x4004, 0x4005, 0x4006, 0x4007]
    (open_ 0 [0xA1, 0, 5]).issues 0 [0xA1, 0, 5] = true ∧ (LoopSrc.imm 0).val ((ek []).core 0) = 0 ∧
    (open_ 3 [0xA0, 7, 5]).issues 0 [0xA0, 7, 5] = true ∧ (LoopSrc.reg 7).val ((ek []).core 0) ≠ 0 ∧
    (open_ 1 [0xA2]).issues 0 [0xA2] = true ∧ ((open_ 1 [0xA2]).core 0).loops.tail = [] ∧
    (frame [0] 0).issues 0 [0xA4] = true ∧ (frame [0] 0).readsAt 0 0x4000 ps ∧ (((frame [0] 0).cell 0).readMem 0x4000).getLsbD 7 = false ∧
    (frame [0x80, 1, 2, 3, 4, 5, 6, 7] 3).issues 0 [0xA4] = true ∧
    ps.map ((frame [0x80, 1, 2, 3, 4, 5, 6, 7] 3).cell 0).readMem = [0x80, 1, 2, 3, 4, 5, 6, 7] ∧
    (open_ 1 [0xA5, 7]).issues 0 [0xA5, 7] = true := by
  exact ⟨by decide +kernel, by decide, by decide, by decide, by decide, by decide, by decide, rfl, by decide, by decide, by decide, by decide⟩

/-- The handlers of vectors 3, 8, 26 and 29, and states in which each entry is due. -/
theorem witness_EntriesAndReturns :
    let due (f : Cell → Cell) : State := (ekv [0]).tweak f
    let wdw := due fun c => { c with wd := { c.wd with wdw := true } }
    let pace := due fun c => { c with pace := { c.pace with pend := true } }
    let irq := due fun c => { c with ic := { c.ic with pend := 0x80000000, cfg := c.ic.cfg.set 31 0x87 } }
    (ekv [0x95, 3]).issues 0 [0x95, 3] = true ∧ (ekv [0x95, 3]).entryReady 0 3 0x1A17 entryAt ∧
    (ekv [0x06]).issues 0 [0x06] = true ∧ (ekv [0x05]).issues 0 [0x05] = true ∧ ((ekv []).cell 0).ic.candidate = none ∧
    (ekv []).readsAt 0 0x4000 [0x4000, 0x4001, 0x4002] ∧
    (wdw.present 0 = true ∧ wdw.canEnter 0 = true ∧ (wdw.cell 0).wd.wdw = true ∧ wdw.entryReady 0 29 0xB6B3 entryAt) ∧
    (pace.canEnter 0 = true ∧ (pace.cell 0).wd.wdw = false ∧ (pace.cell 0).pace.pend = true ∧ pace.entryReady 0 26 0xA4A1 entryAt) ∧
    irq.canEnter 0 = true ∧ (irq.cell 0).core.flag 5 = true ∧ (irq.cell 0).ic.candidate = some 31 ∧ (irq.cell 0).ic.level 31 = 7 ∧
    irq.entryReady 0 15 0x625F entryAt := by
  exact ⟨by decide +kernel, ⟨by decide, rfl⟩, by decide, by decide, by decide, rfl, ⟨by decide, by decide, by decide, by decide, rfl⟩,
    ⟨by decide +kernel, by decide, by decide, by decide, rfl⟩, by decide, by decide, by decide, by decide, by decide, rfl⟩

set_option maxRecDepth 100000 in
/-- 0Fh is a reserved opcode, 42h 81h a reserved second byte, DFh an extension opcode with an entry, page 5 closed to loads and stores. -/
theorem witness_EmulationAndRefusal :
    let ext : State := { ekv [0xDF] with stores := { srv.stores with extDisp := [(0xDF, 0x9900)], extWords := [(0x1900, stepWord)] } }
    let closed (b : List Byte) : State := (ekv b).tweak fun c => { c with map := { c.map with win := c.map.win.set 13 0 } }
    let ld := ldBytes 3 (.inc 1)
    let st := stBytes 3 (.ind 1)
    (∀ op ∈ [0x0C, 0x0F, 0xC0, 0xDF, 0xE0, 0xFF], (ekv [op]).atBoundary 0 = true) ∧
    ((ekv [0x0F]).cell 0).decodePc = .trap { vector := 28, cause := 1 } ∧
    ((ekv [0x42, 0x81]).cell 0).decodePc = .trap { vector := 28, cause := 2 } ∧ (ekv [0x0F]).entryReady 0 28 0xB0AD entryAt ∧
    ((ekv [0xC0]).cell 0).iRead 0x0100 = .ok 0xC0 ∧ (ekv [0xC0]).extOpEntry 0xC0 = none ∧
    (ext.atBoundary 0 = true ∧ ext.extOpEntry 0xDF = some 0x1900 ∧
      Table.read (fun _ => 0) ext.stores.extWords 0x1900 = stepWord ∧ (ext.core 0).loops = [] ∧ (ext.core 0).prod = none) ∧
    ((closed ld).issues 0 ld = true ∧ ((closed ld).cell 0).map.xlatD 0xA897 false = .refuse 1 ∧
      (closed ld).entryReady 0 25 0x9E9B entryAt) ∧
    (closed st).issues 0 st = true ∧ ((closed st).cell 0).map.xlatD 0xA897 true = .refuse 1 := by
  exact ⟨by decide +kernel, rfl, rfl, ⟨by decide, rfl⟩, by rfl, by decide, ⟨by decide, by decide, by decide, rfl, rfl⟩,
    ⟨by decide +kernel, by decide, by decide, rfl⟩, by decide, by decide⟩

theorem witness_SleepAndWake :
    let z (c : Cell) : Cell := { c with ic := { c.ic with pend := 4, cfg := Vector.replicate 32 0x80 } }
    let slp : State := (ek [0x01]).tweak fun c => { (((z c).putReg 0x01B0 0x40).putReg 0x01B3 1) with
      ctl := { c.ctl with st := .sleep }, tm := c.tm.set 3 { run := true, cmp := 5 } }
    ((ek [0x01]).issues 0 [0x01] = true ∧ ((ek [0x01]).cell 0).ctl.st = .running ∧ ((ek [0x01]).cell 0).wakeStands = false) ∧
    (((ek [0x01]).tweak z).issues 0 [0x01] = true ∧ (((ek [0x01]).tweak z).cell 0).wakeStands = true) ∧
    slp.liveCell 0 = true ∧ (slp.cell 0).ctl.st = .sleep ∧ (slp.cell 0).wakeStands = true ∧
    (slp.cell 0).alarmFor slp.house.frameClks 3 = true := by decide +kernel

/-! ## Witnesses: beams and registers -/

/-- `srv` with its house beam changed, and `ek` with the beam of cell 0 changed. -/
def hb (f : HouseBeam → HouseBeam) : State := { srv with house := f srv.house }
def bm (f : CellBeam → CellBeam) : State := (ek []).tweak fun c => { c with beam := f c.beam, pace := { c.pace with avail := 0, q := 5 } }

/-- 3,333 ns is within 2 % of a frame of 9,900,000 clocks, 400,000 ns is not; 296 ns is within 2 % of a line, 297 ns is not. -/
theorem witness_HouseBeamLock :
    let a := hb fun h => { h with src := 1, validRun := 3 }
    let b := hb fun h => { h with src := 3, lock := .locked, missRun := 1, pulseSeen := true }
    let h := hb fun h => { h with src := 3, lock := .holdover, holdFrames := 64 }
    let l := a.objPut 0x2101 3 0 1
    (srv.pwr.mode.beamRuns = true ∧ srv.house.srcDue = false ∧ srv.followsSwarm = false) ∧
    (a.pulsesDue = true ∧ inWindow a.house.frameClks 1 333333 = true ∧ inWindow a.house.frameClks 1 333334 = false ∧
      a.house.pulseSeen = false ∧ a.house.lock = .free ∧ a.house.validRun = 3) ∧
    (l.pulsesDue = true ∧ l.objOr 0x2101 3 0 ≠ 0 ∧ inWindow l.house.frameClks (l.objOr 0x2100 4 1125) (-296) = true ∧
      inWindow l.house.frameClks (l.objOr 0x2100 4 1125) 297 = false ∧ l.house.lineWin ≠ some 0) ∧
    (b.pulsesDue = true ∧ b.house.pulseSeen = true) ∧
    (∀ n ∈ [0, 1], let m := hb fun h => { h with src := 1, lock := .locked, missRun := n }
      m.pulsesDue = true ∧ m.house.pulseSeen = false ∧ m.house.lock = .locked) ∧
    h.house.src = 3 ∧ h.house.lock = .holdover ∧ 64 ≤ h.house.holdFrames := by decide +kernel

theorem witness_LinesAndFrames :
    let g : Geom := ⟨1, 1, 1650, 1280, 750, 720⟩
    let held := bm fun b => { b with held := some g, heldAge := 2 }
    let wait := bm fun b => { b with waiting := true }
    (∀ n ∈ [0, 719, 748], let s := bm fun b => { b with line := n, pline := n, commit := true }
      s.beamCell 0 = true ∧ (s.cell 0).beam.started = true ∧ (s.cell 0).beam.line + 1 < (s.cell 0).beam.geom.vtotal ∧
      (s.cell 0).beam.pline + 1 < (s.cell 0).beam.pgeom.vtotal) ∧
    (held.beamCell 0 = true ∧ (held.cell 0).beam.held = some g ∧ 2 ≤ (held.cell 0).beam.heldAge ∧ (held.cell 0).beam.pgeom = g) ∧
    (bm fun b => { b with pline := 749 }).beamCell 0 = true ∧
    (wait.liveCell 0 = true ∧ (wait.cell 0).beam.on = true ∧ (wait.cell 0).beam.waiting = true) ∧
    (bm id).beamCell 0 = true ∧ ((bm id).cell 0).runnable = true ∧ ((bm id).cell 0).pace.acc < ((bm id).cell 0).pace.q ∧
    ((bm id).cell 0).pace.avail < ((bm id).cell 0).pace.q ∧ shadowedReg 3 0x0440 = true := by decide +kernel

theorem witness_RegisterAccess :
    let s := bm fun b => { b with pline := 719, logCount := 31 }
    let b := (s.cell 0).beam
    s.startedCell 0 = true ∧ b.on = true ∧ b.waiting = false ∧ (s.cell 0).ioUnmapped 0x0FFF = true ∧
    shadowedReg 3 0x0440 = true ∧ shadowedReg 3 0x0584 = true ∧ lineLive8 3 0x0500 = true ∧ ioMapped 3 0x0500 = true ∧
    lineLive8 3 0x0451 = true ∧ b.pline < b.pgeom.vactive ∧ 1279 < b.pgeom.hactive ∧ 1279 < b.pgeom.htotal ∧ b.logCount < 32 := by decide +kernel

/-! ## Witnesses: cells -/

/-- Cell 0 with these accepted commands, in a state and with a state before it. -/
def cmdState (l : List CellCmd) (st : CState) (prior : CState := .empty) : State :=
  (ek []).tweak fun c => { c with ctl := { c.ctl with st := st, prior := prior, cmds := l } }

set_option maxRecDepth 100000 in
theorem witness_CellCommands :
    (∀ p ∈ [(CellCmd.start, CState.loaded, CState.empty), (.pause, .running, .empty), (.pause, .sleep, .empty),
        (.resume, .paused, .sleep), (.stop, .running, .empty), (.stop, .paused, .empty), (.stop, .sleep, .empty),
        (.stop, .halted, .empty), (.stop, .faulted, .empty), (.reset, .running, .empty), (.unload, .loaded, .empty),
        (.pause, .empty, .empty), (.pause, .migrating, .empty)],
      (cmdState [p.1] p.2.1 p.2.2).liveCell 0 = true ∧ ((cmdState [p.1] p.2.1 p.2.2).cell 0).ctl.cmds = [p.1]) ∧
    (∀ st ∈ [CState.running, .paused, .sleep, .halted, .faulted], st.started = true) ∧
    (cmdState [.start] .loaded).coreOk 0 3 = true ∧
    0 % max 1 (lineLen (resetGeom ((ek []).cell 0).prof) srv.house.frameClks / 16777216) = 0 := by decide +kernel

set_option maxRecDepth 100000 in
theorem witness_SystemAndInterrupts :
    let lk (r : LockedReg) (n : Nat) : State := cmdState [] .running |>.tweak fun c => { c with ctl := { c.ctl with locked := some ⟨r, n, false⟩ } }
    (ek []).startedCell 0 = true ∧ ((ek []).cell 0).ctl.locked = none ∧
    ((lk .sysReset 16).startedCell 0 = true ∧ ((lk .sysReset 16).cell 0).ctl.locked = some ⟨.sysReset, 16, false⟩) ∧
    ((lk .mapKey 17).cell 0).ctl.locked = some ⟨.mapKey, 17, false⟩ ∧ ((ek []).cell 0).clocksStopped = false ∧
    srv.dictServed = true := by decide +kernel

set_option maxRecDepth 100000 in
theorem witness_MapperRegisters :
    let m (i d h : Bool) : State := (ek []).tweak fun c => { c with
      map := { c.map with lockI := i, lockD := d, hard := h }, ctl := { c.ctl with locked := some ⟨.mapKey, 3, false⟩ } }
    (∀ n ∈ [0, 7], (m false true false).startedCell 0 = true ∧ (if n < 8 then ((m false true false).cell 0).map.lockI else true) = false) ∧
    (∀ n ∈ [8, 15], (if n < 8 then true else ((m true false false).cell 0).map.lockD) = false) ∧
    ((m true true true).cell 0).map.lockD = true ∧ ((m true true true).cell 0).map.hard = true ∧
    ((m true true false).cell 0).ctl.locked = some ⟨.mapKey, 3, false⟩ := by decide +kernel

/-- The smallest image: one page, no body, I7 on unit 0; and the same with a wrong body CRC. -/
def tinyImage (crc : Byte) : List Byte :=
  let h := toBytes 0x314D4943 4 ++ [3, 1, 1, 0, 0, 0, 0, 0] ++ List.replicate 14 0 ++ [0, 0x10] ++ List.replicate 24 0 ++ [crc, 0, 0, 0]
  h ++ toBytes (crc32c h).toNat 4 ++ List.replicate 4 0

set_option maxRecDepth 100000 in
theorem witness_ImageLoads :
    let s := (srv.withMem.tweak fun c => { c with prof := 3, img := { c.img with stat := 1 } }).objPut 0x4001 3 0 64
    let g : ImgHead := ⟨3, 1, 0, 0, [0, 0, 0, 0, 0, 0, 0, 0x1000, 0, 0, 0, 0, 0, 0, 0, 0], 0, 0⟩
    let r : State := { s with stores := { s.stores with repairs := [(.comb 3, 7)] } }
    s.present 0 = true ∧ (s.cell 0).img.stat = 1 ∧ (s.cell 0).kp.guest = none ∧ s.imgCheck 0 [] = .inl 3 ∧
    s.imgCheck 0 (tinyImage 1) = .inl 5 ∧ s.imgCheck 0 (tinyImage 0) = .inr g ∧
    s.allocOk (s.tenantOf 0) g.pages [⟨0, 5, .rld 5⟩] = true ∧ r.stores.repairs = (.comb 3, 7) :: [] := by
  exact ⟨by decide +kernel, by decide, by decide, by rfl, by rfl, by rfl, by decide, rfl⟩

/-! ## Witnesses: the dictionary -/

/-- `writeGives` of an object of `sv`, as a value. -/
def State.givesB (s : State) (base unit idx sub v : Nat) (q : Session := ses) : Bool :=
  let b : Obj := ⟨base, unit, idx, sub, rowAt idx sub⟩
  s.findObj idx sub == some b && (s.awayAt b).isNone && decide (v < 256 ^ tySize b.row.ty) &&
    s.writeCode q b b.row.ty (toBytes v (tySize b.row.ty)) false == 0

theorem writeGives_of {s : State} {base unit idx sub v : Nat} {q : Session} (h : s.givesB base unit idx sub v q = true) :
    s.writeGives q base unit idx sub v (rowAt idx sub) 0 := by
  simp only [State.givesB, Bool.and_eq_true, beq_iff_eq, decide_eq_true_eq, Option.isNone_iff_eq_none] at h
  exact ⟨h.1.1.1, h.1.1.2, h.1.2, h.2⟩

/-- The origin `oo` is served by `ses` in a state. -/
theorem servedBy_of {s : State} {q : Session} (h : (s.dictServed && s.originSession oo == some q &&
    s.mc.sessions.find? (fun k => k.same q) == some q) = true) : s.servedBy oo q := by
  simp only [Bool.and_eq_true, beq_iff_eq] at h
  exact ⟨h.1.1, h.1.2, h.2⟩

/-- Family, unit, index, subindex and value of one write of every row; the last units of a family among them. -/
def writesOf : List (Nat × Nat × Nat × Nat × Nat) := [(0x2200, 152, 0x2298, 1, 0), (0x4001, 127, 0x47F1, 0x0A, 0),
  (0x4001, 0, 0x4001, 0x0A, 1), (0xB100, 63, 0xB13F, 2, 0x100000002), (0x6100, 3, 0x6103, 3, 0), (0x4004, 127, 0x47F4, 3, 0x12),
  (0x6100, 3, 0x6103, 5, 0x1234), (0x6100, 3, 0x6103, 6, 0x12), (0x6100, 3, 0x6103, 7, 0x12), (0x3001, 0, 0x3001, 1, 0x0F),
  (0x3400, 31, 0x341F, 1, 0x0F), (0xB000, 3, 0xB003, 1, 1), (0x2700, 127, 0x277F, 4, 0), (0x4000, 0, 0x4000, 3, 2)]

set_option maxRecDepth 100000 in
theorem witness_ObjectWrites : sv.servedBy oo ses ∧ (∀ p ∈ writesOf,
      sv.writeGives ses p.1 p.2.1 p.2.2.1 p.2.2.2.1 p.2.2.2.2 (rowAt p.2.2.1 p.2.2.2.1) 0) ∧
    (sv.objPut 0x4001 3 0 64).servedBy oo ses ∧
    (sv.objPut 0x4001 3 0 64).writeGives ses 0x4001 0 0x4001 4 1 (rowAt 0x4001 4) 0 := by
  have h : ∀ p ∈ writesOf, sv.givesB p.1 p.2.1 p.2.2.1 p.2.2.2.1 p.2.2.2.2 = true := by decide +kernel
  exact ⟨servedBy_of (by decide +kernel), fun p hp => writeGives_of (h p hp), servedBy_of (by decide +kernel), writeGives_of (by decide +kernel)⟩

/-- `s` with function `f` alone enabled on the pins `l`, and every bank powered. -/
def pinned (f : Nat) (l : List Nat) (s : State) : State :=
  { l.foldl (fun s p => s.objPut (0x2700 + p) 1 0 (2 ^ f)) s with banks := Vector.replicate 8 2 }
def mii (s : State) : State := pinned 3 [23, 24, 25, 26, 27, 28] s

/-- CAN bus 1 active with a frame kept and a first segment held. -/
def can1 : Can := { state := 1, appRx := [1, 2, 3], parts := [⟨9, 2, [5]⟩], segErr := 3 }

/-- `sv` with received frames, and `n` entries in its journal. -/
def svj (n : Nat) : State := (sv.setCan 1 can1).modMc fun m => { m with
  t1sRx := [1, 2, 3], jrSeq := n, journal := List.replicate n ⟨5, 0, 0, false, 0, 0, 0x8006, 0, 0, 1, 2⟩ }

theorem canMessage_of {op : Nat} {l : List Byte} (h : (sv.dictServed && decide (12 ≤ l.length ∧ l.getD 0 0 = 1 ∧ (msgHead l).op = op) &&
    !msgBad (msgHead l) l true && sv.sessionOn 4 (msgHead l).session == some ses && decide (ses.lastReq ≠ l) && (sv.foreign (msgHead l)).isNone &&
    sv.mc.sessions.find? (fun k => k.same ses) == some ses) = true) : sv.canMessage oo ses op l := by
  simp only [Bool.and_eq_true, beq_iff_eq, decide_eq_true_eq, Option.isNone_iff_eq_none, Bool.not_eq_true'] at h
  obtain ⟨⟨⟨⟨⟨⟨h1, h2, h3, h4⟩, h5⟩, h6⟩, h7⟩, h8⟩, h9⟩ := h
  exact ⟨h1, rfl, h2, h3, h4, h5, h6, h7, h8, h9⟩

/-- READ and WRITE of object 2000h.01h. -/
def readMsg : List Byte := message 3 1 [0, 0x20, 1, 0, 0, 0, 0, 0]
def writeMsg : List Byte := message 4 1 [0, 0x20, 1, 2, 0, 0, 1, 0, 5, 0, 0, 0]

/-- `srv` without sessions: the first number that OPEN tries is free, whatever the free value is. -/
def bare : State := srv.modMc fun m => { m with sessions := [] }
theorem newNumber_bare : ∃ n, bare.newNumber = some n := by
  have h : ∀ n, bare.numberFree n = true := by
    intro n
    rw [State.numberFree, show bare.mc.sessions = [] from by decide +kernel, show bare.mc.retired = [] from by decide]
    rfl
  rw [State.newNumber, show 65519 = 65518 + 1 from rfl, List.range_succ_eq_map, List.map_cons, List.find?_cons_of_pos (h _)]
  exact ⟨_, rfl⟩

set_option maxRecDepth 100000 in
theorem witness_DictionaryMessages :
    (let l := message 1 0 [] 0;
      bare.dictServed = true ∧ 12 ≤ l.length ∧ l.getD 0 0 = 1 ∧ (msgHead l).op = 1 ∧ (msgHead l).session = 0 ∧ msgBad (msgHead l) l true = false ∧
      bare.ssOpen < bare.objOr 0x2000 1 16 ∧ ∃ n, bare.newNumber = some n) ∧
    sv.canMessage oo ses 2 (message 2 0 []) ∧ (∀ c, ses.level c ≠ 2) ∧ sv.canMessage oo ses 5 (message 5 0 []) ∧
    (sv.canMessage oo ses 3 readMsg ∧ msgItems (msgHead readMsg) readMsg = [⟨0x2000, 1, 0, 0, 0, []⟩]) ∧
    (sv.canMessage oo ses 4 writeMsg ∧ msgItems (msgHead writeMsg) writeMsg = [⟨0x2000, 1, 2, 0, 0, [5]⟩]) ∧
    (svj 3).servedBy oo ses ∧ (∀ p ∈ [(0x2600, 0, 0x2600, 0x0A), (0x2601, 1, 0x2602, 8), (0xA000, 0, 0xA000, 5)],
      (svj 3).findObj p.2.2.1 p.2.2.2 = some ⟨p.1, p.2.1, p.2.2.1, p.2.2.2, rowAt p.2.2.1 p.2.2.2⟩ ∧ (rowAt p.2.2.1 p.2.2.2).acc ≠ .wo ∧
      9 ≤ (rowAt p.2.2.1 p.2.2.2).ty) ∧ (svj 3).mc.t1sRx.length ≤ 512 ∧ ((svj 3).mc.can.get 1).appRx.length ≤ 512 ∧
    (svj 40).jrCode ses.jrCursor.toNat = 0 := by
  refine ⟨⟨by decide +kernel, by decide, by decide, by decide, by decide, by decide, by decide, newNumber_bare⟩, canMessage_of (by decide +kernel), by decide, canMessage_of (by decide +kernel), ⟨canMessage_of (by decide +kernel), by rfl⟩,
    ⟨canMessage_of (by decide +kernel), by rfl⟩, servedBy_of (by decide +kernel), by decide +kernel, by decide, by decide, by decide⟩

/-- The sessions of the mailbox and of the command queue, their WRITE of object 2000h.01h, and `srv` with them and one command
packet waiting on a host link that is up. -/
def hostSes (n : Half) (t : Fin 7) : Session := { num := n, transport := t }
def hostMsg (n : Half) : List Byte := message 4 1 [0, 0x20, 1, 2, 0, 0, 1, 0, 5, 0, 0, 0] n
def itemOf : Item := ⟨0x2000, 1, 2, 0, 0, [5]⟩
def cmdPkt (l : List Byte) : Packet := { words := packWords l }
def withCmd (l : List Byte) : State :=
  { srv with mc := { srv.mc with sessions := [hostSes 1 1, hostSes 2 2] }
             link := { srv.link with speed := 3, width := 4, command := { srv.link.command with ctl := 1, waiting := [cmdPkt l] } } }

set_option maxRecDepth 100000 in
theorem witness_Transports :
    let bytes : List Byte := [0, 0, 0, 0, 0, 0, 1, 2, 3, 4, 5, 6, 0x12, 0x34, 9, 9]
    let be (a n : Nat) : Nat := ofBytes ((bytes.drop a).take n).reverse
    let a := mii (sv.objPut 0x2600 9 0 0x1234)
    let s := withCmd (hostMsg 2)
    let c := pinned 2 [3] ((sv.setCan 1 can1).objPut 0x2602 1 0 1)
    let buf := (hostMsg 1 ++ List.replicate 240 0).take 240
    let asked := s.modMc fun m => { m with mbxBuf := buf, mbxReqLen := BitVec.ofNat 32 24, mbxBusy := true, mbxDone := false }
    let p := cmdPkt (hostMsg 2)
    let body := p.words.flatMap fun w => toBytes w.toNat 8
    let served := (s.modLink fun l => { l with
      command := { l.command with waiting := l.command.waiting.erase p }, serving := some p }).roomBack .command
    let u := withCmd [2]
    (sv.dictServed = true ∧ sv.mc.sessions.find? (fun z => z.num == ses.num && z.dev == sv.devId && decide (3 ≤ z.transport.val)) = some ses ∧
      ∀ c, ses.level c ≠ 2) ∧
    (a.dictServed = true ∧ a.objOr 0x2600 1 1 ≠ 0 ∧ a.miiOpen = true ∧ 14 ≤ bytes.length ∧ be 0 6 = a.objOr 0x2600 2 0 ∧ be 12 2 = a.objOr 0x2600 9 0 ∧
      a.objOr 0x2600 9 0 ≠ 0 ∧ a.objOr 0x2600 9 0 ≠ a.objOr 0x2600 3 0x88B5 ∧ a.mc.t1sRx = []) ∧
    (s.hostUp = true ∧ s.dictServed = true ∧ s.mc.mbxBusy = false ∧ buf.getD 0 0 = 1 ∧
      asked.fixedWrite 1 1 (hostSes 1 1) (buf.take 24) itemOf true ∧
      (asked.writeItem (hostSes 1 1) itemOf.idx itemOf.sub itemOf.ty itemOf.bytes false).1.pwr.mode ≠ .hold) ∧
    (s.queueOn .command = true ∧ s.link.serving = none ∧ nextCommand s.link.command.waiting = some p ∧ body.getD 0 0 = 1 ∧
      served.fixedWrite 2 2 (hostSes 2 2) body itemOf false) ∧
    (c.canOn 1 = true ∧ c.fnOpen 3 2 = true ∧ c.objOr 0x2602 5 0 = 0 ∧ (127 : Byte) ≠ 0 ∧ (127 : Byte).toNat ≤ 127) ∧
    ((c.mc.can.get 1).parts.any (·.node == 9)) = true ∧ (c.dictServed = true ∧ (c.mc.can.get 1).state ≠ 0 ∧ (c.mc.can.get 1).state.toNat ≠ 2) ∧
    u.queueOn .command = true ∧ u.dictServed = true ∧ u.link.serving = none ∧ u.mc.mbxBusy = false ∧
    nextCommand u.link.command.waiting = some (cmdPkt [2]) ∧
    ((cmdPkt [2]).words.flatMap fun w => toBytes w.toNat 8).getD 0 0 ≠ 1 := by
  refine ⟨⟨by decide +kernel, by decide, by decide⟩, by decide, ⟨by decide, by decide, by decide, by decide,
    ⟨by decide +kernel, by decide, by decide, by decide, by decide, by decide, by rfl⟩, by decide⟩,
    ⟨by decide +kernel, by decide, by decide, by decide, ⟨by decide, by decide, by decide, by decide, by decide, by decide, by rfl⟩⟩,
    by decide +kernel, by decide, by decide, by decide, by decide, by decide, by decide, by decide, by decide⟩

/-! ## Witnesses: pages, video, engines -/

theorem witness_MicroTraps :
    let mt (n : Nat) : State := { srv with stores := { srv.stores with mc := { saved := List.replicate n { addr := 5 } } } }
    (∀ n ∈ [0, 3, 4, 5], (mt n).seqRuns = true ∧ (mt n).pwr.mode ≠ .faultHold ∧ (mt n).stores.mc.saved.length = n) ∧
    (mt 4).stores.mc.saved = { addr := 5 } :: List.replicate 3 { addr := 5 } ∧ (mt 4).stores.mc.waiting = [] := by decide +kernel

/-- `ek` with page 0 of cell 0 at row page 5 of the page table. -/
def pg (cat : Bool) : State := ((ek []).withMem.setPte 0 (mkPte 1 (.rld 5) 5 0 1 0 cat)).setPte 1 (mkPte 1 (.rld 6) 6 0 1 0 cat)

set_option maxRecDepth 100000 in
theorem witness_PageMoves :
    let g := (pg true).tweak fun c => { c with kp := { c.kp with pmap := [1, 0] }, map := { c.map with pages := 2 }, mem := [] }
    let m : PageMove := ⟨0, .wax 3, false⟩
    let w : State := { pg false with keeper := { srv.keeper with moves := [m] } }
    ((pg false).keeperOn = true ∧ (pg false).moveOk 0 (.wax 3) false = true) ∧
    ((w.keeper.moves.find? fun m => m.page == 0) = some m ∧ 0 < w.memu.frames) ∧
    g.keeperOn = true ∧ g.objOr 0x3000 5 1 ≠ 0 ∧ pteState (g.pte 0) = 1 ∧ pteState (g.pte 1) = 1 ∧ pteCat (g.pte 0) = true ∧
    pteCat (g.pte 1) = true ∧ (∀ c ∈ g.sharers 0, ∀ d ∈ g.sharers 1, g.mayShare c d = true) ∧ (g.pageBytes 0).isSome = true ∧
    g.pageBytes 0 = g.pageBytes 1 := by decide +kernel

/-- Cell 0 in the table of line slots on comb 3, with its cell changed; a slot of that comb, and the comb at work for the cell. -/
def vs (f : Cell → Cell) : State := ({ ek [] with slots := { srv.slots with live := srv.slots.live.set 0 3 } } : State).tweak f
def vb (line : Nat) (g : CellVid → CellVid) : State := vs fun c => { c with beam := { c.beam with line := line }, vid := g c.vid }
def sl0 : Slot := { comb := 3, line := 6, deadline := 100 }
def sl1 : Slot := { sl0 with started := true }
def State.work3 (s : State) : State := { s with combs := s.combs.set 3 { work := some 0, slots := 7 } }

set_option maxRecDepth 100000 in
theorem witness_LinesOfVideo :
    let sn := vs fun c => { c with vid := { c.vid with snap := some (0x100, 2) } }
    let rel := vb 5 id
    let wait := vb 5 fun v => { v with slot := some sl0 }
    let run := (vb 5 fun v => { v with slot := some sl1 }).work3
    let late := (vb 6 fun v => { v with slot := some sl1 }).work3
    let pre := vb 721 id
    let preOn := vb 721 fun v => { v with prefill := some 3 }
    let wb := vs fun c => { c with vid := { c.vid with wbQueue := [⟨0x200, [1, 2, 3], true⟩] } }
    (sn.liveCell 0 = true ∧ (sn.cell 0).vid.snap = some (0x100, 2)) ∧
    (rel.liveCell 0 = true ∧ entryComb (rel.slotEntry 0) = some 3 ∧ (rel.cell 0).beam.on = true ∧ (rel.cell 0).beam.waiting = false ∧
      (rel.cell 0).ctl.st.started = true ∧ (rel.cell 0).vid.slot = none ∧ (rel.cell 0).dueLine < (rel.cell 0).beam.geom.vactive ∧
      (rel.cell 0).beam.started = true) ∧
    (wait.combUp 3 = true ∧ (wait.combs.get 3).work = none ∧ wait.nextSlot 3 = some (0, sl0) ∧ (wait.cell 0).slotPast sl0 = false) ∧
    (3 < Config.combCount run.part ∧ run.combSlot 3 = some (0, sl1) ∧ (run.cell 0).slotPast sl1 = false) ∧
    (late.liveCell 0 = true ∧ (late.cell 0).vid.slot = some sl1 ∧ (late.cell 0).slotPast sl1 = true) ∧
    (pre.liveCell 0 = true ∧ entryComb (pre.slotEntry 0) = some 3 ∧ (pre.cell 0).beam.line = (pre.cell 0).beam.geom.vactive + 1 ∧
      (pre.cell 0).beam.started = true ∧ (pre.cell 0).vid.prefill = none ∧ (pre.cell 0).vid.prev = none) ∧
    (preOn.liveCell 0 = true ∧ (preOn.cell 0).vid.prefill = some 3) ∧
    (rel.startedCell 0 = true) ∧
    wb.liveCell 0 = true ∧ (wb.cell 0).vid.wbQueue = [⟨0x200, [1, 2, 3], true⟩] := by decide +kernel

/-- A started slot of cell 0 at line 6, position 10, whose waggle engine stands at 200h, and its state with two words there. -/
def slotW (loop : Option (Nat × Nat)) : Slot :=
  { sl1 with eng := { on := true, base := 0x200, ptr := 0x200, off := false, loop := loop }, run := { line := 6, pos := 10 } }
def wg (w0 w1 : Nat) (loop : Option (Nat × Nat) := none) : State := vs fun c =>
  { (c.writeMemList 0x200 (toBytes w0 4 ++ toBytes w1 4)).writeMemList 0x300 [0xAB, 0xCD] with vid := { c.vid with slot := some (slotW loop) } }

set_option maxRecDepth 100000 in
theorem witness_WaggleInstructions :
    (∀ p ∈ [(0, 0), (0x10070055, 0), (0x21000055, 0), (0x32021234, 0), (0x40FF0000, 0x123456), (0x52020000, 0x2F4), (0x60000003, 0x300),
        (0x80000000, 0), (0x90000000, 0), (0xA0000000, 0x300)],
      (wg p.1 p.2).present 0 = true ∧ ((wg p.1 p.2).cell 0).vid.slot = some (slotW none) ∧ (slotW none).run.count < wgLmax ((wg p.1 p.2).cell 0).prof ∧
      ((wg p.1 p.2).cell 0).wgWord 0x200 = some p.1 ∧ ((wg p.1 p.2).cell 0).wgWord 0x204 = some p.2 ∧ wgFormOk (p.1 / 2 ^ 28) p.1 p.2 = true) ∧
    (0x10070055 / 2 ^ 27 % 2 = 0 ∧ (slotW none).run.line < 0x10070055 / 65536 % 2048) ∧ lineLive8 3 (0x0400 + 0x21000055 / 65536 % 1024) = true ∧
    lineLive16 3 (0x0400 + 0x32021234 / 65536 % 1024) = true ∧ 10 < ((wg 0 0).cell 0).beam.geom.hactive ∧
    ((wg 0x52020000 0x2F4).cell 0).span (0x2F4 + 2 * ((6 + 0x52020000 % 4096) % 2 ^ (0x52020000 / 4096 % 16))) 2 = some [0, 0] ∧
    ((wg 0x7 0 (some (2, 0x100))).cell 0).vid.slot = some (slotW (some (2, 0x100))) ∧
    ((wg 0x70000000 0 (some (2, 0x100))).cell 0).wgWord 0x200 = some 0x70000000 := by decide +kernel

/-- A copy of two rows of 8 bytes, and cell 0 with a running and a queued operation. -/
def opc : BlitOp := { ((vs id).cell 0).blitSnapshot with
  op := 0, fmt := 0, fn := 0, sbase := 0x100, dbase := 0x200, spitch := 16, dpitch := 16, w := 8, h := 2, color := 0x55 }
def bl (r q : Option BlitOp) (b : Bool) : State := vs fun c => { c with blit := { c.blit with run := r, queue := q, begun := b } }

theorem witness_BlitterCommands :
    let bad := ((vs id).cell 0).blitSnapshot
    ((bl none none false).startedCell 0 = true ∧ ((bl none none false).cell 0).blit.run = none) ∧
    (∀ q ∈ [none, some opc], (bl (some opc) q false).startedCell 0 = true ∧ ((bl (some opc) q false).cell 0).blit.run = some opc ∧
      ((bl (some opc) q false).cell 0).blit.queue = q) ∧
    (∀ o ∈ [opc, bad], let s := bl (some o) none false
      s.liveCell 0 = true ∧ (s.cell 0).blit.run = some o ∧ (s.cell 0).blit.begun = false ∧ (s.cell 0).actual = .running ∧
      (s.cell 0).inTransit = false ∧ (s.cell 0).ctl.st = .running ∧ ((s.cell 0).blitCheck o = 0) = (o = opc)) ∧
    (bl (some opc) none true).cellsRun = true ∧ (bl (some opc) none true).domOn 1 = true ∧ (bl (some opc) none true).blitNext 0 = some 0 := by
  refine ⟨by decide +kernel, by decide, ?_, by decide, by decide, by decide⟩
  simp only [List.forall_mem_cons, List.not_mem_nil, false_implies, implies_true, and_true]
  exact ⟨⟨by decide +kernel, rfl, rfl, by decide, by decide, by decide, by simp only [eq_iff_iff]; decide⟩,
    ⟨by decide +kernel, rfl, rfl, by decide, by decide, by decide, by simp only [eq_iff_iff]; decide⟩⟩

/-- Cell 0 with forager channel 2 and its check unit. -/
def fgs (f : Fg) (g : Cell → Cell) : State := (ek []).tweak fun c => g { (c.writeMemList 0x100 [0x77]) with fg := c.fg.set 2 f }
def dsc : List Byte := toBytes 0x100 4 ++ toBytes 0x200 4 ++ toBytes 1 4 ++ toBytes 0 4
def fb (out : List Byte) : Fg := { busy := true, cur := 0x400, desc := some (0x100, 0x200, 1, 0), out := out }

theorem witness_ForagerCommands :
    let out := fgs { busy := true, cur := 0x100000 } id
    let fetch := fgs { busy := true, cur := 0x400 } (·.writeMemList 0x400 dsc)
    let w (i : Nat) := ofBytes ((dsc.drop (4 * i)).take 4)
    ((fgs {} id).startedCell 0 = true ∧ (((fgs {} id).cell 0).fg.get 2).busy = false) ∧
    (∀ s ∈ [out, fetch], s.startedCell 0 = true ∧ ((s.cell 0).fg.get 2).busy = true ∧ ((s.cell 0).fg.get 2).desc = none ∧ (s.cell 0).fgHeld 2 = false) ∧
    (out.cell 0).span 0x100000 16 = none ∧ ((fetch.cell 0).span 0x400 16 = some dsc ∧ fgDescBad (w 0) (w 1) (w 2) (w 3) = false ∧
      (fgSide (w 0)).misaligned = false ∧ (fgSide (w 1)).misaligned = false) ∧
    (∀ l ∈ [[], [(0x77 : Byte)]], let s := fgs (fb l) id
      s.startedCell 0 = true ∧ (s.cell 0).fg.get 2 = fb l ∧ (s.cell 0).fgHeld 2 = false ∧ (s.cell 0).span 0x100 1 = some [0x77] ∧
      (s.cell 0).writable 0x200 = true) := by decide +kernel

theorem witness_CheckUnitCommands :
    let s (k : Ck) (v : Byte) : State := (ek []).tweak fun c => { c.putReg 0x380 v with ck := k }
    (∀ p ∈ [(0, 0), (1, 1), (2, 2), (3, 3)], ((s {} (BitVec.ofNat 8 p.1)).cell 0).ckPoly = p.2) ∧
    ((s {} 0).startedCell 0 = true ∧ ((s {} 0).cell 0).ck.finishing = false ∧ ((s {} 0).cell 0).ckFold ≠ 1 ∧ ((s {} 0).cell 0).ck.active = false) ∧
    ((s { active := true } 1).startedCell 0 = true ∧ ((s { active := true } 1).cell 0).ck.active = true ∧
      ((s { active := true } 1).cell 0).ck.finishing = false ∧ ((s { active := true } 1).cell 0).reg32 0x0384 = 0) ∧
    (s { finishing := true } 1).startedCell 0 = true ∧ ((s { finishing := true } 1).cell 0).ck.finishing = true ∧
    ((s { finishing := true } 1).cell 0).ckFold ≠ 2 := by decide +kernel

/-! ## Witnesses: timers, sound, keeper, swarm -/

set_option maxRecDepth 100000 in
theorem witness_TimersAndWatchdog :
    let tm (t : Tm) : State := (ek []).tweak fun c => { c with tm := (c.tm.set 3 t).set 1 { run := true, cnt := 7 } }
    let wd (w : Wd) (l : Option LockedSeq) (v : Byte) : State := (ek []).tweak fun c =>
      { c.putReg 0x1D0 v with wd := w, ctl := { c.ctl with locked := l } }
    (∀ k ∈ [({ run := true, cnt := 4, cmp := 5 } : Tm), { run := true, cnt := 65535, cmp := 5, cmpPend := some 9, capUnread := true }, { cnt := 5 }],
      (tm k).startedCell 0 = true ∧ (∀ m, ((tm k).cell 0).tmPaired m = false) ∧ ((tm k).cell 0).tmHeld = false ∧ ((tm k).cell 0).tmClk 3 ≠ 1 ∧
      ((tm k).cell 0).reg8 (tmBase 3 + 2) = 0 ∧ ((tm k).cell 0).tm.get 3 = k ∧ k.selfReset = false) ∧
    (let s := wd { count := 1 } none 1; s.startedCell 0 = true ∧ (s.cell 0).wdCounts = true ∧ (s.cell 0).wd.expireDue = false) ∧
    (∀ v ∈ [(1 : Byte), 3], let s := wd { warnDue := true, expireDue := true } none v
      s.startedCell 0 = true ∧ (s.cell 0).wd.warnDue = true ∧ (s.cell 0).wd.expireDue = true ∧ (s.cell 0).ctl.st = .running ∧
      (s.cell 0).regBit 0x01D0 1 = decide (v = 3)) ∧
    (∀ q ∈ [(⟨.wdKick, 3, false⟩ : LockedSeq), ⟨.wdKey, 3, false⟩], ∀ l ∈ [false, true], let s := wd { lock := l } (some q) 0
      s.startedCell 0 = true ∧ (s.cell 0).ctl.locked = some q) ∧
    (∀ o ∈ [false, true], let s := wd { opened := o } none 0
      s.startedCell 0 = true ∧ (s.cell 0).ctl.locked = none ∧ (s.cell 0).wd.opened = o ∧ (s.cell 0).wdEn = false) ∧
    ((0x7E : Byte) &&& 0x7F) ≠ ((wd {} none 0).cell 0).reg8 0x01D0 &&& 0x0F := by decide +kernel

set_option maxRecDepth 100000 in
theorem witness_SoundAndAudio :
    let vo (n : Fin 16) (v : Voice) : State := (ek []).tweak fun c => { c with snd := { c.snd with voices := c.snd.voices.set n v } }
    let br : State := (ek []).tweak fun c => { c with snd := { c.snd with bridge := 1, gainL := { cur := 3, target := 7, pend := true } } }
    let pt (p : HsPort) : State := { ek [] with ports := srv.ports.set 2 p }
    let lock := pt { bridge := 1, src := 1, stage := 2, mic := { cur := 3, target := 7, pend := true } }
    let btn := pt { jack := 2, kind := 2, micCode := 2000, btnNext := buttonOf 2000 100, btnRun := 3 }
    let aud := ((ek []).tweak fun c => { c with host := { c.host with audio := { c.host.audio with ctl := 1 } } }).modLink fun l => { l with vfEnable := true }
    let x := (ek []).cell 0
    ((ek []).startedCell 0 = true ∧ x.beam.on = true ∧ x.beam.started = true ∧ x.snd.idx < x.snd.keff ∧ x.snd.div = 1 ∧ x.kp.guest = none ∧
      1279 < x.beam.pgeom.htotal ∧ x.snd.logCount < 32 ∧ (x.snd.voices.get 14).fifo.length < 64) ∧
    ((vo 15 { fifo := List.replicate 64 3 }).startedCell 0 = true ∧ 64 ≤ (((vo 15 { fifo := List.replicate 64 3 }).cell 0).snd.voices.get 15).fifo.length) ∧
    (let s := vo 7 { active := true }; s.startedCell 0 = true ∧ ((s.cell 0).snd.voices.get 7).active = true ∧ ((s.cell 0).snd.voices.get 7).pre = none) ∧
    (br.present 0 = true ∧ (br.cell 0).snd.bridge = 1 ∧ (br.cell 0).snd.gainL.pend = true) ∧
    ((lock.ports.get 2).mic.pend = true ∧ lock.domOn 61 = true ∧ (lock.ports.get 2).bridge = 1 ∧ lock.srcRuns (lock.ports.get 2).src = true ∧
      (lock.ports.get 2).stage = 2) ∧
    (aud.present 0 = true ∧ aud.audHostEn 0 = true ∧ (aud.cell 0).kp.guest = none ∧ aud.queueOn (.audio 0) = true ∧
      (aud.cell 0).host.audio.waiting.length < 16) ∧
    (∀ j ∈ [(0 : Byte), 1], (pt { jack := j }).domOn 61 = true ∧ ((pt { jack := j }).ports.get 2).jack = j ∧ ((pt { jack := j }).ports.get 2).typings < 3) ∧
    ((pinned 4 [81] (pt {})).detShows 2 true = true ∧ (pinned 4 [81] (pt { jack := 1 })).detShows 2 false = true) ∧
    ([100, 164].foldl max 0 ≤ [100, 164].foldl min 4095 + 64 ∧ [100, 165].foldl min 4095 + 64 < [100, 165].foldl max 0) ∧
    (btn.domOn 61 = true ∧ (btn.ports.get 2).micOn = true ∧ btn.hs 2 0x0B 1 ≠ 0 ∧ (btn.ports.get 2).btnNext = buttonOf (btn.ports.get 2).micCode.toNat 100 ∧
      3 ≤ (btn.ports.get 2).btnRun) := by decide +kernel

/-- A HELLO of member 3, a state whose link 2 is changed, and one whose link 2 is UP to member 3. -/
def hi : HelloInfo := ⟨3, 0, 128, 24, 0, 0, 0, 0, ⟨true, 200, true⟩, 2, 0x40⟩
def State.lk (s : State) (f : Link → Link) : State :=
  { s with swarm := { s.swarm with coherent := true, links := s.swarm.links.set 2 (f (s.swarm.links.get 2)) } }
def upl (k : Link) : Link := { k with state := lkUp, peer := 3, signal := true, hello := some hi, rate := 3 }
def up (g : State → State) : State := g ((ek []).lk upl)

set_option maxRecDepth 100000 in
theorem witness_KeeperDecisions :
    let mv : State := (ek []).tweak fun c => { c with kp := { c.kp with moving := true, nextCore := some 77 } }
    let hp : State := { (ek []).withMem with keeper := { srv.keeper with frames := 8, pt := [(3, mkPte 1 (.rld 5) 5 7 1 0 false), (5, mkPte 2 (.rld 5) 5 4095 1 0 false)] } }
    ((ek []).liveCell 0 = true ∧ (ek []).mayMoveCore 0 5 false = true ∧ (ek []).mayMoveCore 0 5 true = true) ∧
    (mv.liveCell 0 = true ∧ (mv.cell 0).kp.moving = true ∧ (mv.cell 0).kp.nextCore = some 77) ∧
    (hp.keeperOn = true ∧ hp.keeper.halved = false ∧ hp.keeper.frames % 4 = 0 ∧ Table.wf (fun _ => 0) hp.keeper.pt = true) ∧
    (up id).liveCell 0 = true ∧ (up id).mayMigrate 0 3 true = true ∧ (up id).mayMigrate 0 3 false = true := by decide +kernel

/-- A frame whose replay is due, and the master and its age. -/
def jf : JFrame := ⟨4, true, 3, 0, 0, none, 0, []⟩
def State.mst (s : State) (m : Byte) (a : Nat) : State := { s with swarm := { s.swarm with master := m, beamAge := a } }

set_option maxRecDepth 100000 in
theorem witness_LinksAndMaster :
    let u := sv.lk upl
    (∀ st ∈ [lkUp, lkDown, lkTrain, lkHello], (sv.lk fun k => { k with state := st }).linkOn 2 = true ∧
      ((sv.lk fun k => { k with state := st }).swarmLink 2).state = st) ∧
    (sv.lkEn 2 = true ∧ (sv.swarmLink 2).failed = false ∧ 1 < (2 : Byte).toNat ∧ (1 : Byte).toNat ≤ 1) ∧
    (let s := sv.lk fun k => { k with state := lkDown, failed := true, signal := true };
      s.linkOn 2 = true ∧ (s.swarmLink 2).failed = true ∧ s.lkEn 2 = true ∧ (s.swarmLink 2).signal = true) ∧
    (u.servedBy oo ses ∧ u.writeGives ses 0x7100 2 0x7102 7 1 (rowAt 0x7102 7) 0 ∧ (u.swarmLink 2).state = lkUp ∧ u.lkEn 2 = true ∧
      (u.swarmLink 2).signal = true) ∧
    (hi.id.val ≠ sv.devId.toNat ∧ hi.swarm.toNat = sv.objOr 0x7000 2 0) ∧
    (let s := sv.lk fun k => { upl k with replay := [jf] };
      s.linkOn 2 = true ∧ (s.swarmLink 2).state = lkUp ∧ (s.swarmLink 2).replay = [jf] ∧
      (s.swarmLink 2).resends < 15) ∧
    ((sv.mst 3 4).pwr.mode.beamRuns = true ∧ (sv.mst 3 4).swarm.master ≠ 0xFF ∧ (sv.mst 3 4).swarm.master ≠ (sv.mst 3 4).devId.setWidth 8) ∧
    sv.servedBy oo ses ∧ sv.writeGives ses 0x7000 0 0x7000 6 1 (rowAt 0x7000 6) 0 := by
  exact ⟨by decide +kernel, by decide, by decide, ⟨servedBy_of (by decide +kernel), writeGives_of (by decide +kernel), by decide, by decide, by decide⟩, by decide,
    by decide +kernel, by decide, servedBy_of (by decide +kernel), writeGives_of (by decide +kernel)⟩

/-- A frame of member 3 to member 0, and `receives` as a value. -/
def fr (k : Nat) (tag : Word) (p : List Byte) (seq : BitVec 12 := 0) : JFrame := ⟨k, true, 3, 0, seq, none, tag, p⟩
def State.gets (s : State) (j : JFrame) : Bool :=
  s.linkOn 2 && (s.swarmLink 2).state == lkUp && JFrame.parse j.encode == some j && decide (j.kind < 12) && j.seq == (s.swarmLink 2).rxSeq &&
    j.dst == s.devId

theorem receives_of {s : State} {j : JFrame} (h : s.gets j = true) : s.receives 2 j.kind j.encode j := by
  simp only [State.gets, Bool.and_eq_true, beq_iff_eq, decide_eq_true_eq] at h
  obtain ⟨⟨⟨⟨⟨h1, h2⟩, h3⟩, h4⟩, h5⟩, h6⟩ := h
  exact ⟨h1, h2, h3, rfl, h4, h5, h6⟩

/-- Cell 0 away on member 3, a guest of member 3, and a mailbox session whose request a member answers. -/
def aw (s : State) : State := (s.modLink fun l => { l with vfEnable := true }).tweak fun c =>
  { c with kp := { c.kp with away := some 3 }, host := { c.host with slice := { c.host.slice with ctl := 1 } } }
def gst (s : State) : State := s.tweak fun c => { c with kp := { c.kp with guest := some 3, guestOn := true } }
def mbs : Session := { num := 1, transport := 1, fwd := [1, 3, 0, 0, 1, 0, 7, 0, 0, 0, 0, 0] }
def rsp : List Byte := [1, 3, 2, 0, 1, 0, 7, 0, 0, 0, 0, 0]

set_option maxRecDepth 100000 in
theorem witness_FrameCommands :
    let rp := (ek []).lk fun k => { upl k with replay := [fr 4 0 [] 7] }
    let mb := (up id).withSession mbs
    (up id).receives 2 0 (fr 0 0x04030201 []).encode (fr 0 0x04030201 []) ∧
    (rp.receives 2 1 (fr 1 7 []).encode (fr 1 7 []) ∧ (rp.swarmLink 2).resends < 15 ∧
      ((rp.swarmLink 2).replay.any fun f => f.seq == (7 : Word).setWidth 12) = true) ∧
    (((up id).mst 3 5).receives 2 3 (fr 3 7 (List.replicate 8 0)).encode (fr 3 7 (List.replicate 8 0)) ∧ ((up id).mst 3 5).swarm.master = 3 ∧
      (((up id).mst 3 5).swarmLink 2).peer.toNat = 3) ∧
    ((up aw).receives 2 4 (fr 4 0 [1, 2, 3, 4, 5, 6, 7, 8]).encode (fr 4 0 [1, 2, 3, 4, 5, 6, 7, 8]) ∧
      (up aw).wholePacket 2 (fr 4 0 [1, 2, 3, 4, 5, 6, 7, 8]) ∧ ((fr 4 0 []).home = (up aw).devId ∧ (fr 4 0 []).cell = 0) ∧
      ((up aw).cell 0).kp.away.isSome = true ∧ (up aw).objOr 0x4002 1 1 ≠ 0 ∧ (up aw).vfOn = true ∧ ((up aw).cell 0).host.slice.en = true ∧
      ((up aw).cell 0).host.slice.waiting.length < 8) ∧
    (up aw).receives 2 5 (fr 5 0 [1, 2, 3, 4, 255, 255, 255, 255]).encode (fr 5 0 [1, 2, 3, 4, 255, 255, 255, 255]) ∧
    ((up id).receives 2 6 (fr 6 0 []).encode (fr 6 0 []) ∧ (up id).homeOf 0 = (fr 6 0 []).home ∧ ((up id).cell 0).kp.away = none ∧
      ((up id).cell 0).ctl.st.started = true ∧ ((up id).cell 0).clocksStopped = false) ∧
    ((up gst).receives 2 7 (fr 7 0x180 [1, 2, 3, 4, 5, 6, 7, 8]).encode (fr 7 0x180 [1, 2, 3, 4, 5, 6, 7, 8]) ∧
      (up gst).wholePacket 2 (fr 7 0x180 []) ∧ ((up gst).cell 0).kp.guestOn = true ∧ ((up gst).cell 0).kp.guest = some (fr 7 0x180 []).home ∧
      (fr 7 0x180 []).tag.toNat / 1024 % 16 = 0) ∧
    (mb.receives 2 8 (fr 8 0 rsp).encode (fr 8 0 rsp) ∧ mb.wholePacket 2 (fr 8 0 rsp) ∧ (msgHead rsp).flags.getLsbD 1 = true ∧
      (mb.mc.sessions.find? fun z => z.num == (msgHead rsp).session && z.dev == mb.devId && !z.fwd.isEmpty &&
        (msgHead z.fwd).tid == (msgHead rsp).tid) = some mbs) ∧
    ((up id).linkOn 2 = true ∧ JFrame.parse (fr 9 0 rsp 4095).encode = some (fr 9 0 rsp 4095) ∧ (4095 : BitVec 12) ≠ ((up id).swarmLink 2).rxSeq) := by
  exact ⟨receives_of (by decide +kernel), ⟨receives_of (by decide +kernel), by decide +kernel⟩, ⟨receives_of (by decide +kernel), by decide⟩,
    ⟨receives_of (by decide +kernel), ⟨by decide +kernel, by decide⟩, by decide⟩, receives_of (by decide +kernel), ⟨receives_of (by decide +kernel), by decide⟩,
    ⟨receives_of (by decide +kernel), ⟨by decide +kernel, by decide⟩, by decide⟩, ⟨receives_of (by decide +kernel), ⟨by decide, by decide⟩, by decide⟩, by decide⟩

set_option maxRecDepth 100000 in
theorem witness_MigrationCommands :
    let kp (f : CellKp → CellKp) : State := up (·.tweak fun c => { c with kp := f c.kp })
    let pre := up (·.tweak fun c => { c with kp := { c.kp with migState := 1 }, dirty := some [3, 5] })
    let win := up (·.tweak fun c => { c with kp := { c.kp with migState := 1, passes := 1, migTarget := 3 }, dirty := some [], beam := { c.beam with line := 722 } })
    let stop := kp fun k => { k with migState := 2, migTarget := 3, stopped := true }
    let gone := kp fun k => { k with migState := 2, migTarget := 3, stopped := true, gone := true }
    let gu (m : Byte) : State := kp fun k => { k with guest := some 3, guestOn := false, migState := m, core := none, onCore := false }
    let n : MigNeeds := ⟨[⟨0, 5, .rld 5⟩], 0, 0, 3⟩
    let pl : List Byte := [63, 0, 0, 0, 0, 0, 0, 0] ++ (List.range 512).map (BitVec.ofNat 8 ·)
    (pre.liveCell 0 = true ∧ (pre.cell 0).kp.migState = 1 ∧ (pre.cell 0).dirty.isSome = true) ∧
    (win.liveCell 0 = true ∧ (win.cell 0).kp.migState = 1 ∧ (win.cell 0).dirty = some [] ∧ 1 ≤ (win.cell 0).kp.passes ∧
      (win.cell 0).beam.line = (win.cell 0).beam.geom.vactive + 2 ∧ (win.cell 0).vid.snap = none) ∧
    (stop.liveCell 0 = true ∧ (stop.cell 0).kp.migState = 2 ∧ (stop.cell 0).kp.gone = false ∧
      (stop.cell 0).kp.migDefers.toNat + 1 < stop.objOr 0x7000 0x0B 16) ∧
    ((up id).withMem.receives 2 9 (fr 9 0x185 []).encode (fr 9 0x185 []) ∧ (fr 9 0x185 []).tag.toNat / 1024 % 8 = 0 ∧
      (up id).withMem.canHost (fr 9 0x185 []).cell (fr 9 0x185 []).home ((up id).withMem.swarmLink 2).hello n = true) ∧
    ((gu 1).receives 2 10 (fr 10 0x180 pl).encode (fr 10 0x180 pl) ∧ (gu 1).arriving (fr 10 0x180 pl).cell (fr 10 0x180 pl).home = true ∧
      0 < ((gu 1).cell 0).map.pages ∧ pl.length = 520) ∧
    (gu 1).receives 2 11 (fr 11 0x180 [1, 2, 3]).encode (fr 11 0x180 [1, 2, 3]) ∧
    (stop.receives 2 9 (fr 9 0x400 []).encode (fr 9 0x400 []) ∧ (fr 9 0x400 []).tag.toNat / 1024 % 8 = 1 ∧ stop.homeOf 0 = (fr 9 0x400 []).home ∧
      (stop.cell 0).kp.migTarget.toNat = 3) ∧
    ((gu 3).receives 2 9 (fr 9 0x980 []).encode (fr 9 0x980 []) ∧ (fr 9 0x980 []).tag.toNat / 1024 % 8 = 2 ∧
      (gu 3).arriving (fr 9 0x980 []).cell (fr 9 0x980 []).home = true ∧ ((gu 3).cell 0).kp.migState = 3 ∧ (gu 3).coreOk 0 9 = true) ∧
    (gone.receives 2 9 (fr 9 0xC00 []).encode (fr 9 0xC00 []) ∧ (fr 9 0xC00 []).tag.toNat / 1024 % 8 = 3 ∧ (gone.cell 0).kp.gone = true ∧
      (gone.cell 0).kp.guest = none) ∧
    (gu 1).receives 2 9 (fr 9 0x1180 []).encode (fr 9 0x1180 []) ∧ (fr 9 0x1180 []).tag.toNat / 1024 % 8 = 4 := by
  exact ⟨by decide +kernel, by decide, by decide, ⟨receives_of (by decide +kernel), by decide⟩, ⟨receives_of (by decide +kernel), by decide⟩, receives_of (by decide +kernel),
    ⟨receives_of (by decide +kernel), by decide +kernel⟩, ⟨receives_of (by decide +kernel), by decide⟩, ⟨receives_of (by decide +kernel), by decide⟩, receives_of (by decide +kernel),
    by decide +kernel⟩

/-! ## Witnesses: the host and the heads -/

/-- `ek` with the host link and the VFs up; the same with the slice queue, the input queue and the command queue of cell 0 changed. -/
def hst : State := (ek []).modLink fun l => { l with
  speed := 3, width := 4, vfEnable := true, notice := { l.notice with ctl := 1 }, command := { l.command with ctl := 1 } }
def qs (ctl : Word) (f : Queue → Queue) : State :=
  hst.tweak fun c => { c with host := { c.host with slice := f { c.host.slice with ctl := ctl, slotBytes := 64 } } }
def iq (f : Queue → Queue) : State := hst.tweak fun c => { c with host := { c.host with input := f { c.host.input with ctl := 1 } } }
def p2 : Packet := { words := [1, 2] }

set_option maxRecDepth 100000 in
theorem witness_HostFunctionsAndDelivery :
    (hst.hostUp = true ∧ hst.present 0 = true ∧ hst.vfOn = true ∧ hst.dictServed = true ∧ hst.pwr.mode ≠ .train ∧ 5 ≤ hst.objOr 0x2500 5 5) ∧
    (∀ b ∈ [false, true], let s := qs 0x40001 fun k => { k with waiting := [p2, p2], tail := 5, head := 3, tailUs := 9, stalled := b }
      let k := s.queue (.slice 0)
      s.queueThere (.slice 0) = true ∧ s.queuesMove (.slice 0) = true ∧ qFromHost (.slice 0) = false ∧ k.pop = false ∧ k.credit = true ∧
      k.waiting = [p2, p2] ∧ 8 * p2.words.length ≤ k.slotBytes.toNat ∧ s.hostUp = true ∧ s.queueOn (.slice 0) = true ∧ k.tailUs ≠ 0 ∧
      k.stalled = b) := by decide +kernel

/-- The control word that ends a packet of a queue, with its CRC, and a word before it. -/
def endTag (q : QueueId) (l : List Long) : Long :=
  BitVec.ofNat 64 (3 + 16 * qClass q + 2 ^ 48 * (crc16 (l.map fun p => toBytes p.toNat 8).flatten).toNat)
def firstWord : Long × Long := (0x0105, BitVec.ofNat 64 (1 + 16 * qClass (.input 0)))

set_option maxRecDepth 100000 in
theorem witness_QueueRegisters :
    let off := qs 0 fun k => { k with ringBase := 0x1000, cplBase := 0x2000, slotBytes := 4096, head := 5, tail := 9 }
    let ring := qs 0x40001 fun k => { k with tail := 5, head := 3 }
    let inp := iq fun k => { k with opened := [firstWord] }
    (off.queueThere (.slice 0) = true ∧ off.fnUp (.slice 0) = true ∧ (off.queue (.slice 0)).en = false ∧
      ({ off.queue (.slice 0) with ctl := (0x40001 : Long).setWidth 32 &&& qCtlMask (.slice 0) } : Queue).configOk (.slice 0) = true) ∧
    (ring.fnUp (.slice 0) = true ∧ (ring.queue (.slice 0)).en = true ∧ ((5 : Word) - 3).toNat ≤ ((5 : Word) - 3).toNat ∧
      ((5 : Word) - 3).toNat < ((6 : Word) - 3).toNat) ∧
    (∀ n ∈ [0, 1], let s := qs 3 fun k => { k with waiting := [p2, p2], popped := n }
      s.fnUp (.slice 0) = true ∧ (s.queue (.slice 0)).en = true ∧ (s.queue (.slice 0)).pop = true ∧ s.pwr.mode ≠ .faultHold ∧
      (s.queue (.slice 0)).waiting = [p2, p2] ∧ (s.queue (.slice 0)).popped = n ∧ n < p2.words.length) ∧
    (qFromHost (.input 0) = true ∧ inp.fnUp (.input 0) = true ∧ (inp.queue (.input 0)).en = true ∧ inp.pwr.mode ≠ .faultHold ∧
      (inp.queue (.input 0)).words < qCapacity (.input 0) ∧ (inp.queue (.input 0)).spoiled = false ∧ (inp.cell 0).kp.away = none ∧
      tagValid firstWord.2 = true ∧ tagEnd firstWord.2 = false) ∧
    (tagValid (endTag (.input 0) [0x0106]) = true ∧ tagEnd (endTag (.input 0) [0x0106]) = true ∧
      packetOk (.input 0) ([] ++ [((0x0106 : Long), endTag (.input 0) [0x0106])]) = true) ∧
    (tagValid (endTag (.input 0) [0x0108]) = true ∧ tagEnd (endTag (.input 0) [0x0108]) = true ∧
      packetOk (.input 0) ([] ++ [((0x0108 : Long), endTag (.input 0) [0x0108])]) = false) ∧ ((iq id).queue (.input 0)).opened = [] := by
  decide +kernel

set_option maxRecDepth 100000 in
theorem witness_MailboxEventsTerminal :
    let hh (full nx : Bool) (n : Nat) : State := hst.tweak fun c => { c with
      host := { c.host with mbFull := full, evEndNext := nx, event := { c.host.event with ctl := 1, opened := [(5, 0)] } }
      dbg := { c.dbg with vtTx := List.replicate n 7 } }
    let vt : State := hst.tweak fun c => { c with dbg := { c.dbg with ctl := 4 } }
    (∀ full ∈ [false, true], ∀ nx ∈ [false, true], ∀ n ∈ [1, 64], let s := hh full nx n
      s.present 0 = true ∧ s.hostUp = true ∧ s.vfOn = true ∧ (s.cell 0).host.mbFull = full ∧ (s.cell 0).kp.away = none ∧ (s.cell 0).dbg.vt = false ∧
      (s.cell 0).dbg.vtTx = 7 :: List.replicate (n - 1) 7 ∧ (s.cell 0).dbg.vtRx.length < 64 ∧ s.startedCell 0 = true ∧
      s.queueOn (.event 0) = true ∧ (s.cell 0).kp.guest = none ∧ (s.cell 0).host.event.spoiled = false ∧ (s.cell 0).host.event.words < 64 ∧
      (s.cell 0).host.event.opened.length < 16 ∧ (s.cell 0).host.evEndNext = nx) ∧
    vt.vfOn = true ∧ (vt.cell 0).dbg.vt = true := by decide +kernel

set_option maxRecDepth 100000 in
theorem witness_HeadCommands :
    let hd (f : Head → Head) : State := { sv with heads := sv.heads.set 2 (f (sv.heads.get 2)) }
    let g := sv.headGeom 2
    let caps : SinkCaps := ⟨4, 3⟩
    let ov := (((hd fun h => { h with on := true, line := 3 }).objPut 0xB185 1 0 1).objPut 0xB185 2 0 0x00040005).objPut 0xB185 3 0 0x00100002
    (∀ st ∈ [0, 2, 4], (hd fun h => { h with link := st }).headUp 2 = true ∧ ((hd fun h => { h with link := st }).heads.get 2).on = false) ∧
    (∀ n ∈ [3, g.vactive], ((hd fun h => { h with on := true, line := n }).heads.get 2).on = true ∧ n + 1 < g.vtotal ∧ n + 1 ≠ g.vactive) ∧
    (g.vtotal ≤ g.vtotal - 1 + 1 ∧ 2 ≤ g.vactive) ∧ sv.combos 2 caps ≠ [] ∧
    ov.headUp 2 = true ∧ ov.layerRow 2 1 5 = some 1 ∧ ov.rowOpen 2 5 = true ∧ ov.ov 2 1 1 0 / 2 % 2 = 0 := by decide +kernel

/-! ## Witnesses: debug, power, memory -/

theorem readsObj_of {s : State} {q : Session} {base unit idx sub : Nat} (h : (s.findObj idx sub == some ⟨base, unit, idx, sub, rowAt idx sub⟩ &&
    (s.awayAt ⟨base, unit, idx, sub, rowAt idx sub⟩).isNone && s.readCode q ⟨base, unit, idx, sub, rowAt idx sub⟩ == 0 &&
    decide (9 ≤ (rowAt idx sub).ty)) = true) : s.readsObj q base unit idx sub (rowAt idx sub) := by
  simp only [Bool.and_eq_true, beq_iff_eq, decide_eq_true_eq, Option.isNone_iff_eq_none] at h
  exact ⟨h.1.1.1, h.1.1.2, h.1.2, h.2⟩

theorem bytesGive_of {s : State} {q : Session} {base unit idx sub : Nat} {l : List Byte} {code : Byte}
    (h : (s.findObj idx sub == some ⟨base, unit, idx, sub, rowAt idx sub⟩ && (s.awayAt ⟨base, unit, idx, sub, rowAt idx sub⟩).isNone &&
      s.writeCode q ⟨base, unit, idx, sub, rowAt idx sub⟩ (rowAt idx sub).ty l false == code) = true) :
    s.bytesGive q base unit idx sub l (rowAt idx sub) code := by
  simp only [Bool.and_eq_true, beq_iff_eq, Option.isNone_iff_eq_none] at h
  exact ⟨h.1.1, h.1.2, h.2⟩

/-- `ek` with the session `q` and cell 0 changed; a session at a level with selectors, and one that holds a challenge. -/
def ds (bytes : List Byte) (q : Session) (g : Cell → Cell) : State := ((ek bytes).withSession q).tweak g
def atLevel (n : Byte) : Session := { ses with levels := [(0, n)], dbgSel := [(0, 5), (1, 0x1FE), (2, 4)] }
def ch : Challenge := ⟨0, 2, List.replicate 12 7⟩
def asks : Session := { ses with dbgReq := [(0, 2)] }
def holds : Session := { asks with challenges := [ch] }
def dbgS : State := ds [] holds id
def good : List Byte := (hmac256 dbgS.dbgKey (ch.bytes ses.num)).take 16

/-- Served, with the object's row, by a session of `ds`. -/
theorem served_holds : dbgS.servedBy oo holds := servedBy_of (by decide +kernel)

set_option maxRecDepth 100000 in
theorem witness_DebugAccess :
    let v := ds [] (atLevel 2) fun c => { c with dbg := { c.dbg with ctl := 4, vtTx := [1, 2, 3], vtRx := [4] } }
    let d := ds [] (atLevel 2) fun c => { c with ctl := { c.ctl with st := .halted } }
    ((ds [] asks id).servedBy oo asks ∧ (ds [] asks id).readsObj asks 0x9000 0 0x9000 3 (rowAt 0x9000 3)) ∧
    (dbgS.servedBy oo holds ∧ dbgS.bytesGive holds 0x9000 0 0x9000 4 good (rowAt 0x9000 4) 0 ∧ holds.challenge 0 = some ch) ∧
    dbgS.bytesGive holds 0x9000 0 0x9000 4 (List.replicate 16 1) (rowAt 0x9000 4) 0x14 ∧
    (∀ n ∈ [(1 : Byte), 2], (ds [] (atLevel n) id).servedBy oo (atLevel n) ∧
      (ds [] (atLevel n) id).writeGives (atLevel n) 0x9000 0 0x9000 5 1 (rowAt 0x9000 5) 0) ∧
    (d.servedBy oo (atLevel 2) ∧ d.readsObj (atLevel 2) 0x9001 0 0x9001 4 (rowAt 0x9001 4) ∧ (atLevel 2).sel 0 0 = 5 ∧ (atLevel 2).sel 0 2 ≤ 512) ∧
    (d.bytesGive (atLevel 2) 0x9001 0 0x9001 4 [5, 6, 7, 8] (rowAt 0x9001 4) 0) ∧
    v.servedBy oo (atLevel 2) ∧ v.readsObj (atLevel 2) 0x9003 0 0x9003 1 (rowAt 0x9003 1) ∧ v.bytesGive (atLevel 2) 0x9003 0 0x9003 2 [5, 6, 7, 8] (rowAt 0x9003 2) 0 ∧
    v.hidden (atLevel 2) 0 = false ∧ (v.cell 0).dbg.vt = true ∧ (v.cell 0).kp.away = none ∧ (v.cell 0).dbg.vtRx.length + 4 ≤ 64 := by
  refine ⟨⟨servedBy_of (by decide +kernel), readsObj_of (by decide +kernel)⟩, ⟨served_holds, bytesGive_of (by decide +kernel), by decide +kernel⟩,
    bytesGive_of (by decide +kernel), ?_, ⟨servedBy_of (by decide +kernel), readsObj_of (by decide +kernel), by decide +kernel, by decide⟩,
    bytesGive_of (by decide +kernel), servedBy_of (by decide +kernel), readsObj_of (by decide +kernel), bytesGive_of (by decide +kernel), by decide +kernel⟩
  simp only [List.forall_mem_cons, List.not_mem_nil, false_implies, implies_true, and_true]
  exact ⟨⟨servedBy_of (by decide +kernel), writeGives_of (by decide +kernel)⟩, ⟨servedBy_of (by decide +kernel), writeGives_of (by decide +kernel)⟩⟩

set_option maxRecDepth 100000 in
theorem witness_DebugRunAndTap :
    let q2 : Session := { ses with levels := [(0, 2)] }
    let req := ds [0] ses fun c => { c with dbg := { c.dbg with haltReq := true } }
    let pau := ds [0] q2 fun c => { c with ctl := { c.ctl with st := .paused, prior := .sleep } }
    let cmd (k : CellCmd) : State := ds [0] ses fun c => { c with ctl := { c.ctl with st := .halted, prior := .running, cmds := [k, .halt] }, dbg := { c.dbg with haltCause := 0x11 } }
    let x := (cmd .step).cell 0
    ((req.cell 0).dbg.haltReq = true ∧ (req.cell 0).ctl.st = .running ∧ (req.cell 0).haltDue = true ∧ (req.cell 0).entryDue = false) ∧
    ((pau.cell 0).dbg.haltReq = false ∧ pau.servedBy oo q2 ∧ pau.writeGives q2 0x9000 0 0x9000 6 1 (rowAt 0x9000 6) 0 ∧ (pau.cell 0).ctl.st = .paused) ∧
    ((x.ctl.cmds = [.step, .halt] ∧ x.ctl.st = .halted ∧ (cmd .step).stepReady 0 = true ∧ x.ctl.prior = .running ∧
      ({ x with dbg := { x.dbg with skipBreak := decide (0x10 ≤ x.dbg.haltCause.toNat) } } : Cell).breakDue = none ∧
      x.dbg.ctl.getLsbD 1 = false ∧ x.core.loops = []) ∧ x.iRead x.core.pc = .ok 0) ∧
    (((cmd .dbgResume).cell 0).ctl.cmds = [.dbgResume, .halt] ∧ ((cmd .dbgResume).cell 0).ctl.st = .halted) ∧ (ek []).pwr.mode ≠ .off := by
  exact ⟨by decide +kernel, ⟨by decide, servedBy_of (by decide +kernel), writeGives_of (by decide +kernel), by decide⟩, ⟨by decide, by rfl⟩, by decide, by decide⟩

/-- The device in a mode with every domain on; the smallest boot image: six sections of 32 bytes without records. -/
def inMode (m : Mode) (f : Pwr → Pwr := id) : State :=
  { State.reset with pwr := f { State.reset.pwr with mode := m, doms := Vector.replicate 63 { st := 2 } } }
def sect (k : Nat) : List Byte := toBytes 0x31495343 4 ++ toBytes k 1 ++ [1, 0, 0] ++ List.replicate 24 0
def bootTab : List Byte := (List.range 6).flatMap fun k => toBytes (128 + 32 * k) 4 ++ toBytes 32 4 ++ [1] ++ List.replicate 7 0
def bootHead : List Byte := toBytes 0x31494248 4 ++ [1, 6, 0, 0] ++ toBytes 320 4 ++ List.replicate 16 0
def bootImg : List Byte := bootHead ++ toBytes (crc32c (bootHead ++ bootTab)).toNat 4 ++ bootTab ++ [1, 2, 3, 4, 5, 6].flatMap sect

set_option maxRecDepth 100000 in
theorem witness_PowerUpSequence :
    let tr : List ChanTrain := List.replicate 8 (.ok 2 10)
    let area : List (BitVec 17) := (List.range 128).map (BitVec.ofNat 17)
    let s := inMode .train
    let u (ch : List ChanTrain) : State :=
      s.clearArea.trainAll ((List.range 8).map fun k => if s.domOn (41 + k) then ch.getD k .unpowered else .unpowered)
    (∀ m ∈ [Mode.off, .hold, .sense, .load, .train], (inMode m).pwr.mode = m ∧ (inMode m).pwr.trips = 0 ∧ (inMode m).pwr.bootSrc = 0 ∧
      (inMode m).pwr.boot.busy = false ∧ (inMode m).pwr.woken = false ∧ (inMode m).pwr.held = []) ∧
    (inMode .hold fun p => { p with trips := 4 }).pwr.trips ≠ 0 ∧
    (imgError ((some (bootImg.drop 1)).map (·.take 320)) ≠ 0 ∧ imgError (some (bootImg.drop 1)) ≠ 0 ∧ imgError (some bootImg) = 0 ∧
      ((bootTable bootImg).filter fun e => e.2.2 == 2) = []) ∧
    (u []).trainedChans = [] ∧ (u tr).trainedChans ≠ [] ∧ (u tr).areaOk area = true ∧ area.all (u tr).frameFree = true := by decide +kernel

set_option maxRecDepth 100000 in
theorem witness_ModesAndWake :
    let om (m : Mode) (f : Pwr → Pwr := id) : State := let s := (ek []).withSession ses; { s with pwr := f { s.pwr with mode := m } }
    let w := ((om .retain).objPut 0x2705 3 0 0x21).objPut 0x8000 0x10 0 0
    (∀ p ∈ [(Mode.ready, 6), (.serve, 5), (.limited, 5), (.serve, 9), (.limited, 9), (.ready, 9), (.ready, 10)],
      (om p.1).servedBy oo ses ∧ (om p.1).writeGives ses 0x8000 0 0x8000 2 p.2 (rowAt 0x8000 2) 0) ∧
    ((om .ready).throttled = false ∧ (om .ready fun p => { p with throttle := Vector.replicate 8 50 }).throttled = true) ∧
    (let s := om .drain fun p => { p with drainTo := .ready };
      s.pwr.drainTo = .ready ∧ (s.cell 0).ctl.st = .running ∧ (s.cell 0).kp.away = none) ∧
    (w.pwr.mode = .retain ∧ w.domOn 49 = true ∧ w.objOr 0x8000 0x10 0 ≤ w.devTime.toNat) ∧
    (∀ n ∈ [0, 1, 2, 3, 4], (w.objPut 0x8000 0x0F 0 0x1F).wakeOn n = true) ∧
    ((w.objPut 0x2700 3 0 0).padWakes 5 true = false) := by
  refine ⟨?_, by decide +kernel, by decide, by decide, by decide, by decide⟩
  simp only [List.forall_mem_cons, List.not_mem_nil, false_implies, implies_true, and_true]
  exact ⟨⟨servedBy_of (by decide +kernel), writeGives_of (by decide +kernel)⟩, ⟨servedBy_of (by decide +kernel), writeGives_of (by decide +kernel)⟩,
    ⟨servedBy_of (by decide +kernel), writeGives_of (by decide +kernel)⟩, ⟨servedBy_of (by decide +kernel), writeGives_of (by decide +kernel)⟩,
    ⟨servedBy_of (by decide +kernel), writeGives_of (by decide +kernel)⟩, ⟨servedBy_of (by decide +kernel), writeGives_of (by decide +kernel)⟩,
    servedBy_of (by decide +kernel), writeGives_of (by decide +kernel)⟩

set_option maxRecDepth 100000 in
theorem witness_DomainsAndMeasurement :
    let dm (st : Byte) (dn : Bool) : State :=
      let s := (ek []).withSession ses; { s with pwr := { s.pwr with doms := s.pwr.doms.set 61 { st := st, down := dn } } }
    let cv (v : Int) (r : Byte) : State := { ek [] with
      conv := { srv.conv with ts := Vector.replicate 16 { temp := BitVec.ofInt 16 v } }, pwr := { (ek []).pwr with throttle := Vector.replicate 8 r } }
    ((dm 2 false).servedBy oo ses ∧ (dm 2 false).writeGives ses 0x8100 61 0x813D 1 0 (rowAt 0x813D 1) 0) ∧
    ((dm 0 false).servedBy oo ses ∧ (dm 0 false).writeGives ses 0x8100 61 0x813D 1 1 (rowAt 0x813D 1) 0) ∧
    (∀ st ∈ [(0 : Byte), 1, 2, 3, 4, 5], ((dm st true).dom 61).st = st ∧ ((dm st true).dom 61).down = true) ∧
    (∀ p ∈ [((900 : Int), (100 : Byte)), (900, 54), (-5, 95), (776, 95), (775, 95)], (cv p.1 p.2).convOn = true ∧
      ((cv p.1 p.2).conv.ts.get 3).temp.toInt = p.1 ∧ (cv p.1 p.2).pwr.throttle.get 3 = p.2 ∧ ∀ i : Fin 16, ((cv p.1 p.2).conv.sp.get i).bad < 15) ∧
    (ek []).tempObj 0x14 800 = 800 := by
  exact ⟨⟨servedBy_of (by decide +kernel), writeGives_of (by decide +kernel)⟩, ⟨servedBy_of (by decide +kernel), writeGives_of (by decide +kernel)⟩, by decide +kernel, by decide, by decide⟩

set_option maxRecDepth 100000 in
theorem witness_ResetsAndTrips :
    let fh : State := inMode .faultHold fun p => { p with fhAuto := 1, fhCause := 6 }
    (srv.pwr.mode ≠ .off ∧ srv.pwr.mode ≠ .hold ∧ srv.pwr.mode ≠ .faultHold ∧ srv.domOn 49 = true ∧ srv.seqRuns = true) ∧
    (sv.servedBy oo ses ∧ sv.writeGives ses 0x8000 0 0x8000 0x12 0xA5 (rowAt 0x8000 0x12) 0) ∧
    fh.pwr.mode = .faultHold ∧ fh.pwr.fhAuto ≠ 0 ∧ fh.pwr.fhCause = 6 ∧ fh.pwr.trips = 0 := by
  exact ⟨by decide +kernel, ⟨servedBy_of (by decide +kernel), writeGives_of (by decide +kernel)⟩, by decide⟩

set_option maxRecDepth 100000 in
theorem witness_MemoryAndPins :
    let m (st : Byte) : State := { ek [] with memu := { srv.memu with density := 2, frames := 131072, chans := Vector.replicate 8 { st := BitVec.setWidth _ st, counted := true } } }
    (∀ st ∈ [(1 : Byte), 2], ((m st).memu.chans.get 3).st.toNat = st.toNat ∧ (m st).objOr 0xC000 5 24 ≠ 0 ∧ (m st).dictServed = true ∧
      (m st).pwr.mode ≠ .train ∧ (m st).pwr.mode ≠ .load ∧ (m st).memu.density.toNat = 2) ∧
    (ek []).startedCell 0 = true ∧ (ek []).domOn 61 = true ∧ (ek []).convOn = true := by decide +kernel

set_option maxRecDepth 100000 in
/-- ED at its end, with each cause of an entry standing. -/
theorem witness_EntryLimit :
    let e (b : List Byte) (f : Cell → Cell) : State := (ekF 0x3F b).tweak fun c => f { c with core := { c.core with ed := 255 } }
    let ld := e (ldBytes 9 (.ind 1)) fun c => { c with map := { c.map with win := c.map.win.set 13 0 } }
    let wdw := e [] fun c => { c with wd := { c.wd with wdw := true } }
    let pace := e [] fun c => { c with pace := { c.pace with pend := true } }
    let irq := e [] fun c => { c with ic := { c.ic with pend := 0xFF, cfg := Vector.replicate 32 0x80 } }
    ((e [0x95, 3] id).issues 0 [0x95, 3] = true ∧ (e [0x0F] id).atBoundary 0 = true ∧ ld.issues 0 (ldBytes 9 (.ind 1)) = true ∧
      (ld.cell 0).map.xlatD ((LdMode.ind 1).addr (ld.cell 0).core) false = .refuse 1) ∧
    ((e [0x0F] id).cell 0).decodePc = .trap { vector := 28, cause := 1 } ∧
    (∀ s ∈ [wdw, pace, irq], s.present 0 = true ∧ s.canEnter 0 = true ∧ (s.cell 0).core.ed = 255) ∧
    (wdw.cell 0).wd.wdw = true ∧ (pace.cell 0).wd.wdw = false ∧ (pace.cell 0).pace.pend = true ∧
    (irq.cell 0).pace.pend = false ∧ (irq.cell 0).core.flag 5 = true ∧ (irq.cell 0).ic.candidate = some 0 := by
  exact ⟨by decide +kernel, rfl, by decide⟩

theorem witness_EmptyPopRead : (ek []).startedCell 0 = true ∧ ((ek []).cell 0).dbg.vtRx = [] := by decide +kernel

theorem witness_BlitterCancel : (bl (some opc) none true).startedCell 0 = true ∧ ((bl (some opc) none true).cell 0).blit.run = some opc := by
  exact ⟨by decide +kernel, rfl⟩

/-- The bytes of an item; a WRITE that is out of range, one whose type differs, a READ of a write-only object. -/
def itemBytes (i : Item) : List Byte :=
  toBytes i.idx 2 ++ [BitVec.ofNat 8 i.sub, BitVec.ofNat 8 i.ty, 0, 0] ++ toBytes i.bytes.length 2 ++ i.bytes ++
    List.replicate ((4 - i.bytes.length % 4) % 4) 0

set_option maxRecDepth 100000 in
theorem witness_RefusedAccess :
    (∀ p ∈ [((⟨0x2000, 1, 2, 0, 0, [77]⟩ : Item), (7 : Byte)), (⟨0x2000, 1, 3, 0, 0, [77, 0]⟩, 6)], let l := message 4 1 (itemBytes p.1)
      sv.canMessage oo ses 4 l ∧ msgItems (msgHead l) l = [p.1] ∧ sv.findObj p.1.idx p.1.sub = some ⟨0x2000, 0, 0x2000, 1, rowAt 0x2000 1⟩ ∧
      sv.awayAt ⟨0x2000, 0, 0x2000, 1, rowAt 0x2000 1⟩ = none ∧ isSelector 0x2000 1 = false ∧
      sv.writeCode ses ⟨0x2000, 0, 0x2000, 1, rowAt 0x2000 1⟩ p.1.ty p.1.bytes false = p.2) ∧
    (let i : Item := ⟨0x4001, 4, 0, 0, 0, []⟩; let l := message 3 1 (itemBytes i);
      sv.canMessage oo ses 3 l ∧ msgItems (msgHead l) l = [i] ∧ sv.findObj 0x4001 4 = some ⟨0x4001, 0, 0x4001, 4, rowAt 0x4001 4⟩ ∧
      sv.awayAt ⟨0x4001, 0, 0x4001, 4, rowAt 0x4001 4⟩ = none ∧ sv.readCode ses ⟨0x4001, 0, 0x4001, 4, rowAt 0x4001 4⟩ = 3) := by
  simp only [List.forall_mem_cons, List.not_mem_nil, false_implies, implies_true, and_true]
  exact ⟨⟨⟨canMessage_of (by decide +kernel), by rfl, by decide +kernel, by decide, by decide, by decide⟩,
    ⟨canMessage_of (by decide +kernel), by rfl, by decide +kernel, by decide, by decide, by decide⟩⟩,
    ⟨canMessage_of (by decide +kernel), by rfl, by decide +kernel, by decide, by decide⟩⟩

set_option maxRecDepth 100000 in
theorem witness_KeptResponse :
    let l (op : Byte) := message op 0 []
    let q (op : Byte) : Session := { ses with lastReq := l op, lastRsp := List.replicate 300 7 }
    (∀ op ∈ [(3 : Byte), 4, 5], let s := srv.withSession (q op)
      s.dictServed = true ∧ 12 ≤ (l op).length ∧ (l op).getD 0 0 = 1 ∧ (msgHead (l op)).op = op.toNat ∧
      s.sessionOn 4 (msgHead (l op)).session = some (q op) ∧
      (canSegments (if s.objOr 0x2601 2 2 ≠ 0 then 62 else 6) (q op).lastRsp).length ≤ 64) ∧
    sv.canMessage oo ses 4 writeMsg ∧ msgItems (msgHead writeMsg) writeMsg = [itemOf] := by
  exact ⟨by decide +kernel, canMessage_of (by decide +kernel), by rfl⟩

theorem witness_AbsentCells : ({ srv with part := .ak6424fc } : State).present 96 = false := by decide +kernel

/-- States that are not at reset and meet the invariant: one with a byte of memory. -/
theorem witness_StepKeepsInvariant : (Memory.wf (((ek [1]).cell 0).mem) = true ∧ Memory.wf (((ek [1]).cell 127).mem) = true) ∧
    (ek [1]).mc.journal.length = min 8192 (ek [1]).mc.jrSeq ∧ (∃ t, step (ek [1]) = .next t) ∧ ∃ t, step { srv with pending := [.nop 0 none] } = .next t := by
  exact ⟨by decide +kernel, by decide, ⟨_, rfl⟩, ⟨_, rfl⟩⟩

theorem witness_StopsAreNamed :
    step { srv with part := .ak6424fc, pending := [.nop 96 none] } = .refused .absentUnit ∧ ∃ t, step srv = .next t := ⟨rfl, ⟨_, rfl⟩⟩

theorem witness_MemoryReadsBack : Memory.wf ((ek [1]).cell 0).mem = true ∧
    (((ek [1]).cell 0).writeMem 0x0100 1).readMem 0x0100 = ((ek [1]).cell 0).readMem 0x0100 := by decide +kernel

/-! ## Small tests, from the worked examples and tables of the spec -/

/-- The state after a command; the state itself where it does not go on. -/
def after (r : Res) (s : State) : State := match r with | .next t => t | .fault _ => s | .refused _ => s

/-- A core of the example "fields and leading zeros", and one with q1 = 12345678h. -/
def fields (bytes : List Byte) : State := (ek bytes).withCore fun k => { k with b := ((k.b.set 1 0xB6).set 0 0xC1).set 2 3 }
def quad (bytes : List Byte) : State :=
  (ek bytes).withCore fun k => { k with b := (((k.b.set 4 0x78).set 5 0x56).set 6 0x34).set 7 0x12 }

/-- EK8, worked examples: fields and leading zeros (EXT, EXTS, INS, CLZ). -/
theorem test_ext : let t := after (exec (.ext 0 2 1 2 4) (fields [0x71, 0x21, 0x24])) srv
    (t.core 0).rb 2 = 0x03 ∧ (t.core 0).flag 1 = false ∧ (t.core 0).flag 2 = false ∧ (t.core 0).pc = 0x0103 := by decide +kernel
theorem test_exts : let t := after (exec (.exts 0 3 1 3 4) (fields [0x72, 0x31, 0x34])) srv
    (t.core 0).rb 3 = 0xFB ∧ (t.core 0).flag 1 = false ∧ (t.core 0).flag 2 = true := by decide +kernel
theorem test_ins : ((after (exec (.ins 0 0 2 2 2) (fields [0x70, 0x02, 0x22])) srv).core 0).rb 0 = 0xCD := by decide +kernel
theorem test_clz : let t := after (exec (.clz 0 5 2) (fields [0x1D, 0x52])) srv
    (t.core 0).rb 5 = 0x06 ∧ (t.core 0).flag 1 = false := by decide +kernel

/-- EK8, worked examples: PERM on a 32-bit value. -/
theorem test_perm_reverse : let k := (after (exec (.perm 0 1 1 (.imm 0x1B)) (quad [0x73, 0x11, 0x1B])) srv).core 0
    [k.rb 4, k.rb 5, k.rb 6, k.rb 7] = [0x12, 0x34, 0x56, 0x78] := by decide +kernel
theorem test_perm_swap : let k := (after (exec (.perm 0 0 1 (.imm 0x4E)) (quad [0x73, 0x01, 0x4E])) srv).core 0
    k.rw 0 = 0x1234 ∧ k.rw 1 = 0x5678 := by decide +kernel

/-- EK8, worked examples: LOOP #64 at 020Bh opens an entry from 020Eh to 0214h. -/
theorem test_loop : let s := ((ek []).tweak (·.writeMemList 0x020B [0xA1, 0x40, 0x05])).withCore fun k => { k with pc := 0x020B }
    ((after (exec (.loop 0 (.imm 64) 5) s) srv).core 0).loops = [⟨0x020E, 0x0214, 64, 0⟩] := by decide +kernel

/-- EK8, multiplier latency: F6h × 07h is FFBAh signed and 06BAh unsigned, and MFM of the next instruction does not see it. -/
theorem test_product : let s := (ek [0x1B, 0x45]).withCore fun k => { k with b := (k.b.set 4 0xF6).set 5 7, mhml := 0x0123 }
    ((after (exec (.muls 0 4 5) s) srv).core 0).prod.map (·.1) = some 0xFFBA ∧
    ((after (exec (.muls 0 4 5) s) srv).core 0).mhml = 0x0123 := by decide +kernel

/-- "The control store", ADDUS b3,b5 (C0 35): words 1800h to 1802h as the example lists their fields. -/
def addus (b3 : Byte) : State :=
  let s := (ek [0xC0, 0x35]).withCore fun k => { k with b := (k.b.set 3 b3).set 5 0x50 }
  { s with stores := { s.stores with
      extDisp := [(0xC0, 0x9800)]
      extWords := [(0x1800, 0x8000000008000000008010ce000800000000#144), (0x1801, 0x800000000800050000100408018800e00877#144),
        (0x1802, 0x800000000803fc00003a0c08000800000006#144)] } }

set_option maxRecDepth 100000 in
/-- 30h + 50h is 80h with C = 0 and N = 1; C8h + 50h saturates with C = 1 and N = 1. -/
theorem test_addus :
    (let k := (after (exec (.extensionOpcode 0) (addus 0x30)) srv).core 0
    k.rb 3 = 0x80 ∧ k.flag 0 = false ∧ k.flag 1 = false ∧ k.flag 2 = true ∧ k.flag 3 = false ∧ k.pc = 0x0102) ∧
    (let k := (after (exec (.extensionOpcode 0) (addus 0xC8)) srv).core 0
    k.rb 3 = 0xFF ∧ k.flag 0 = true ∧ k.flag 1 = false ∧ k.flag 2 = true ∧ k.flag 3 = false ∧ k.pc = 0x0102) := by
  decide +kernel

/-- R294: the check values over "123456789". -/
theorem test_check_values : ∀ p ∈ [(0, (0xE3069283 : Word)), (1, 0x29B1), (2, 0xF4)],
    ckFinal p.1 (([0x31, 0x32, 0x33, 0x34, 0x35, 0x36, 0x37, 0x38, 0x39] : List Byte).foldl (ckByte p.1) (ckInit p.1)) = p.2 := by decide +kernel

/-- FIPS 180-4, which R461's HMAC rests on: the digest of the empty message begins E3 B0 C4 42. -/
theorem test_sha256 : (sha256 []).take 4 = [0xE3, 0xB0, 0xC4, 0x42] := by decide +kernel

/-- "The house beam", stagger example: a line of 1650 × 750 on 9,900,000 beam clocks lasts 13,200 beam clocks (D = 8). -/
theorem test_line_length : lineLen ⟨1, 1, 1650, 1280, 750, 720⟩ 9900000 = 13200 * 2 ^ 24 := by decide +kernel

/-- "Sprites", the entry of the example: slot 0 is 16 × 16 at X = 40, Y = 90. -/
theorem test_sprite : spriteOf 0 0x640300100902805A =
    { slot := 0, y := 90, x := 40, w := 16, h := 16, hf := false, vf := false, pat := 0x0010, pal := 3, level := 4, bpp := 4, col := true } := by
  decide +kernel

/-- "Cell sound", the example's contributions: 6,527,899 left and 3,481,546 right. -/
theorem test_contribution : contribution 32512 255 200 15 = 6527899 ∧ contribution 32512 255 200 8 = 3481546 := by decide +kernel

/-- "Combs", the example's line of 1,280 pixels: 100 + 320 + 12 + 13 + 40 × 8 = 765 comb clocks. -/
theorem test_slot_cost : let x := ((ek []).cell 0).putLive 0x0502 200
    slotCost x { sl0 with cost := 12 } { clocks := 320 } { x := x, writes := [], sprSeen := true } = 765 := by decide +kernel

/-- "The host", the slice example: header word 0, and the delivery of packet 291 to slot 35 with its completion entry. -/
theorem test_slice_header : (sliceHeader 5 0 false false 100 720 66 1280 0).head? = some 0x0500004200640005 := by decide +kernel
theorem test_slice_delivery : let s := qs 0x3060001 fun k => { k with waiting := [{ words := List.replicate 482 0 }], tail := 291, head := 291, slotBytes := 4096 }
    let k := (after (exec (.packetDeliver (.slice 0)) s) srv).queue (.slice 0)
    k.lastSlot = 35 ∧ k.lastCpl = (0xF10, 0x1230007) ∧ k.tail = 292 := by decide +kernel

/-- "The dictionary", the example: a frame of EtherType 88B5h with a write of KP_OBJECTIVE in session 0013h, its response,
and the journal's entry. -/
def hdpFrame : List Byte := List.replicate 6 0xFF ++ [2, 0, 0, 0, 0, 9, 0x88, 0xB5, 1, 4, 0, 0, 0x13, 0, 7, 0, 1, 0, 0, 0,
  0, 0x30, 1, 2, 0, 0, 1, 0, 2, 0, 0, 0]
def hdpState : State := mii { srv.withSession { num := 0x13, transport := 3, mac := 0x020000000009 } with devTime := 0xE8D4A51000 }

set_option maxRecDepth 100000 in
theorem test_hdp_write : let t := after (exec (.t1sFrame true hdpFrame) hdpState) srv
    t.mc.t1sTx.drop 14 = [1, 4, 2, 0, 0x13, 0, 7, 0, 1, 0, 0, 0, 0, 0x30, 1, 2, 0, 0, 0, 0] ∧ t.objOr 0x3000 1 1 = 2 ∧
    t.jrEntry hdpState.mc.jrSeq = [0, 0x10, 0xA5, 0xD4, 0xE8, 0, 0, 0, 3, 0, 0x13, 0, 0, 0x30, 1, 0, 1, 0, 0, 0, 0, 0, 0, 0, 2, 0, 0, 0, 0, 0, 0, 0] := by
  decide +kernel

set_option maxRecDepth 100000 in
/-- "Waggle lists", the palette split: the first PAL sets entry 01h to blue at pixel 0 and moves on by two words. -/
theorem test_waggle_pal : let s := wg 0x40010000 0x40
    let t := after (exec (.wgPal 0) s) srv
    ((t.cell 0).vid.slot.map fun l => (l.eng.ptr, l.run.count, l.run.writes)) = some (0x208, 1, [(10, .pal 1 0x40)]) := by decide +kernel

end Sys2Proof.Machine
end

section
/-! PROOFS for spec/00_scope.md: no command faults or changes the queue and the part (O57, O58), a command for an absent
cell is refused (O53), a read of an empty VT_RX (O49), a refused access (O51). -/

namespace Sys2Proof.Machine

/-! ## What a command may answer -/

/-- What the model may answer on `s`: a next state that is `Kept`, or one of the two refusals that have a name. -/
inductive State.Lawful (s : State) : Res → Prop
  | next {t : State} (h : s.Kept t) : s.Lawful (.next t)
  | absent : s.Lawful (.refused .absentUnit)
  | vendor : s.Lawful (.refused .vendorMicrocode)

section Frames

variable {s t u : State} {c : CellNo} {k r : Res}

theorem State.Lawful.same : s.Lawful (.next s) := .next (.refl s)

theorem State.Lawful.trans (h : s.Kept t) (l : t.Lawful r) : s.Lawful r := by
  cases l with
  | next k => exact .next (h.trans k)
  | absent => exact .absent
  | vendor => exact .vendor

theorem State.Lawful.ite {p : Prop} [Decidable p] (h : s.Lawful k) (l : s.Lawful r) : s.Lawful (if p then k else r) := by
  split
  · exact h
  · exact l

theorem State.Kept.ite {p : Prop} [Decidable p] (h : s.Kept t) (l : s.Kept u) : s.Kept (if p then t else u) := by
  split
  · exact h
  · exact l

/-- An event that acts only where it is due (assumption 3). -/
theorem State.Kept.orSame {p : Prop} [Decidable p] (h : s.Kept t) : s.Kept (if p then t else s) := h.ite (.refl s)

theorem onCell_lawful (h : s.Lawful k) : s.Lawful (onCell c s k) := h.ite .absent

theorem onLive_lawful (h : s.Lawful k) : s.Lawful (onLive c s k) := onCell_lawful (h.ite .same)

theorem onStarted_lawful (h : s.Lawful k) : s.Lawful (onStarted c s k) := onLive_lawful (h.ite .same)

theorem onComb_lawful {n : Fin 24} (h : s.Lawful k) : s.Lawful (onComb n s k) := h.ite .absent

theorem onQueue_lawful {q : QueueId} (h : s.Lawful k) : s.Lawful (onQueue q s k) := by
  unfold onQueue
  split
  · exact onCell_lawful h
  · exact h

theorem takeCmd_lawful {q : CellCmd} {f : State → Option State} (hf : ∀ u v, s.Kept u → f u = some v → s.Kept v) :
    s.Lawful (s.takeCmd c q f) := by
  unfold State.takeCmd
  have ht (r : List CellCmd) : s.Kept (s.modCtl c fun m => { m with cmds := r }) := (State.Kept.refl s).modCtl c _
  split
  · exact .same
  · split
    · dsimp only
      split
      · exact .next (hf _ _ (ht _) ‹_›)
      · exact .next ((ht _).lapse ..)
    · exact .same

end Frames

/-! ## The object dictionary -/

section Dictionary

variable {s : State} {o : Origin} {idx sub : Nat}

theorem dictWriteOne_lawful {bytes : List Byte} : s.Lawful (dictWriteOne o idx sub bytes s) :=
  .next ((State.Kept.refl s).writeOne ..).orSame

theorem dictPut_lawful {v : Nat} : s.Lawful (dictPut o idx sub v s) := dictWriteOne_lawful

theorem dictReadOne_lawful : s.Lawful (dictReadOne o idx sub s) := .next ((State.Kept.refl s).readOne ..).orSame

end Dictionary

/-! ## The bodies of EK8 instructions (R69 to R87) -/

section Bodies

variable (c : CellNo) (s : State)

theorem runBody_lawful {body : CellNo → State → EkRes} (hb : (body c s).kept s) (len cycles taken : Nat) :
    s.Lawful (s.runBody c len cycles taken body) := by
  have h := State.Kept.refl s
  unfold State.runBody
  dsimp only
  split <;> rename_i e <;> rw [e] at hb
  · exact .next (h.takeTrap c _)
  · exact .next hb
  · exact .vendor
  · exact .next (h.enterVector c _ _ _)
  · exact .next (h.enterInterrupt c)
  · exact .next (h.modCell c (by simp [Cell.goSleep]))
  · exact .next (State.Kept.modCell hb c (by simp))
  · exact .next (State.Kept.finishSeq hb c _ _)
  · exact .next (State.Kept.finishSeq hb c _ _)

/-- An instruction of the queue answers as its body does, or stops short of it. -/
theorem runInstr_lawful {body : CellNo → State → EkRes} (hb : (body c s).kept s) {bs : List Byte} {cycles taken : Nat} :
    s.Lawful (runInstr c bs cycles taken body s) := by
  have h := State.Kept.refl s
  rcases runInstr_cases (c := c) (s := s) cycles taken body bs with ⟨_, e⟩ | e | ⟨_, _, e⟩ | ⟨_, _, e⟩ | ⟨_, e⟩ <;> rw [e]
  · exact .absent
  · exact .same
  · exact .next (h.haltCell c _)
  · exact .next (h.takeTrap c _)
  · exact runBody_lawful c s hb ..

variable {c s} in
/-- A store of the core through the mapper, with the core registers or the control block changed along with it. -/
theorem State.Kept.stored {x y : Cell} {a : Half} {l : List Byte} (e : (s.cell c).dWrite a l = .ok y) (hx : x.mem = y.mem) :
    s.Kept (s.setCell c x) := (State.Kept.refl s).setCell_wf c fun w => hx ▸ Cell.dWrite_wf e w

variable {c s} in
theorem State.Kept.pushed {x y : Cell} {l : List Byte} (e : (s.cell c).push l = .ok y) (hx : x.mem = y.mem) :
    s.Kept (s.setCell c x) := by
  unfold Cell.push at e
  dsimp only at e
  split at e
  · cases e
  · rename_i d
    cases e
    exact .stored d hx

/-- A load of memory, with the corrections and the losses of R519 and R520. -/
theorem State.Kept.eccRead {s₀ : State} (h : s₀.Kept s) (a : Nat) (ecc : EccState) : s₀.Kept (s.eccRead c a ecc).1 := by
  unfold State.eccRead
  split
  · exact h
  · cases ecc with
    | clean => exact h
    | correctable => dsimp only; exact h.correctable _
    | uncorrectable => dsimp only; exact h.uncorrectable ..

@[simp] theorem bodyAlu_kept (o : AluOp) (d : Fin 16) (x : ByteSrc) : (bodyAlu o d x c s).kept s := coreBody_kept s c _

@[simp] theorem bodyMul_kept (signed : Bool) (d r : Fin 16) : (bodyMul signed d r c s).kept s := coreBody_kept s c _

@[simp] theorem bodyUn_kept (o : UnOp) (d : Fin 16) : (bodyUn o d c s).kept s := coreBody_kept s c _

@[simp] theorem bodyPush_kept (f : Core → List Byte) : (bodyPush f c s).kept s := by
  unfold bodyPush
  split
  · trivial
  · rename_i e
    exact .pushed e rfl

@[simp] theorem bodyPop_kept (n : Nat) (f : Core → List Byte → Core) : (bodyPop n f c s).kept s := by
  unfold bodyPop
  dsimp only
  split
  · trivial
  · exact (State.Kept.refl s).modCore c _

@[simp] theorem bodyRet_kept : (bodyRet c s).kept s := by
  unfold bodyRet
  split
  · trivial
  · exact (State.Kept.refl s).modCore c _

@[simp] theorem bodyRett_kept : (bodyRett c s).kept s := by
  unfold bodyRett
  split
  · trivial
  · exact (State.Kept.refl s).modCore c _

@[simp] theorem bodyReti_kept : (bodyReti c s).kept s := by
  unfold bodyReti
  split
  · trivial
  · exact ((State.Kept.refl s).modCore c _).modIc c _

@[simp] theorem bodyRetiOr_kept : (bodyRetiOr c s).kept s := by
  unfold bodyRetiOr
  split
  · trivial
  · exact bodyReti_kept c s

@[simp] theorem bodySleep_kept : (bodySleep c s).kept s := by
  unfold bodySleep
  split
  · exact .refl s
  · trivial

@[simp] theorem bodyLd_kept (d : Fin 16) (m : LdMode) (ecc : EccState) : (bodyLd d m ecc c s).kept s := by
  unfold bodyLd
  dsimp only
  split
  · trivial
  · exact ((State.Kept.refl s).eccRead ..).modCore c _

@[simp] theorem bodySt_kept (r : Fin 16) (m : LdMode) : (bodySt r m c s).kept s := by
  unfold bodySt
  dsimp only
  split
  · trivial
  · rename_i e
    exact .stored e rfl

@[simp] theorem bodyLdw_kept (d b : Fin 8) (inc : Bool) : (bodyLdw d b inc c s).kept s := by
  unfold bodyLdw
  dsimp only
  split
  · trivial
  · exact (State.Kept.refl s).modCore c _

@[simp] theorem bodyStw_kept (r b : Fin 8) (inc : Bool) : (bodyStw r b inc c s).kept s := by
  unfold bodyStw
  dsimp only
  split
  · trivial
  · rename_i e
    exact .stored e rfl

@[simp] theorem bodyLdc_kept (d : Fin 16) (b : Fin 8) (inc : Bool) : (bodyLdc d b inc c s).kept s := by
  unfold bodyLdc
  dsimp only
  split
  · trivial
  · exact (State.Kept.refl s).modCore c _

@[simp] theorem bodyLdcw_kept (d b : Fin 8) (inc : Bool) : (bodyLdcw d b inc c s).kept s := by
  unfold bodyLdcw
  dsimp only
  split
  · trivial
  · exact (State.Kept.refl s).modCore c _

@[simp] theorem bodyBr_kept (q : Cond) (d8 : Byte) : (bodyBr q d8 c s).kept s := by
  unfold bodyBr
  dsimp only
  split
  · exact .refl s
  · exact .refl s

theorem callTo_kept (ret dest : Half) : (callTo ret dest c s).kept s := by
  unfold callTo
  split
  · trivial
  · rename_i e
    exact .pushed e rfl

@[simp] theorem bodyBsr_kept (d8 : Byte) : (bodyBsr d8 c s).kept s := callTo_kept c s ..

@[simp] theorem bodyJmp_kept (t : Target) : (bodyJmp t c s).kept s := State.Kept.refl s

@[simp] theorem bodyCall_kept (t : Target) : (bodyCall t c s).kept s := callTo_kept c s ..

@[simp] theorem bodyDjnz_kept (d : Fin 16) (d8 : Byte) : (bodyDjnz d d8 c s).kept s := by
  unfold bodyDjnz
  dsimp only
  split
  · exact (State.Kept.refl s).modCore c _
  · exact (State.Kept.refl s).modCore c _

@[simp] theorem bodyLoop_kept (len : Nat) (n : Half) (u : Byte) : (bodyLoop len n u c s).kept s := by
  unfold bodyLoop
  dsimp only
  split
  · exact .refl s
  · split
    · trivial
    · exact (State.Kept.refl s).modCore c _

@[simp] theorem bodyPushl_kept : (bodyPushl c s).kept s := by
  unfold bodyPushl
  split
  · trivial
  · rename_i e
    exact .pushed e rfl

@[simp] theorem bodyPopl_kept : (bodyPopl c s).kept s := by
  unfold bodyPopl
  dsimp only
  split
  · trivial
  · split
    · exact (State.Kept.refl s).modCore c _
    · split
      · trivial
      · exact (State.Kept.refl s).modCore c _

end Bodies

/-! ## Extension microcode (R122 to R144) -/

section Microcode

variable {s₀ : State} {u v : Uctx} (c : CellNo)

/-- What a word answers is kept: the state that it goes on with, or the one with which the routine ends. -/
inductive Ustep.Kept (s : State) : Ustep → Prop
  | go {u : Uctx} (h : s.Kept u.s) : Ustep.Kept s (.go u)
  | done {u : Uctx} (h : s.Kept u.s) : Ustep.Kept s (.done u)
  | error (quarters : Nat) : Ustep.Kept s (.error quarters)
  | trap (a : Abandon) : Ustep.Kept s (.trap a)

/-- What a routine answers is kept. -/
inductive Uend.Kept (s : State) : Uend → Prop
  | done {u : Uctx} (h : s.Kept u.s) : Uend.Kept s (.done u)
  | vendor : Uend.Kept s .vendor
  | error {u : Uctx} (h : s.Kept u.s) (quarters : Nat) : Uend.Kept s (.error u quarters)
  | trap (a : Abandon) : Uend.Kept s (.trap a)

theorem Ustep.Kept.ite {p : Prop} [Decidable p] {a b : Ustep} (h : a.Kept s₀) (k : b.Kept s₀) : (if p then a else b).Kept s₀ := by
  split
  · exact h
  · exact k

theorem Uctx.setReg_kept (h : s₀.Kept u.s) (n : Nat) (b : Byte) : s₀.Kept (u.setReg c n b).s := by
  unfold Uctx.setReg
  split
  · exact h.modCore c _
  · split
    · exact h.modCore c _
    · split
      · exact h.modCore c _
      · split
        · exact h
        · exact h

theorem Uctx.setRegW_kept (h : s₀.Kept u.s) (n : Nat) (w : Half) : s₀.Kept (u.setRegW c n w).s :=
  setReg_kept c (setReg_kept c h _ _) _ _

theorem Uctx.busOp_kept (h : s₀.Kept u.s) {w : BitVec 144} {ea data : Half} (e : u.busOp c w ea data = .ok v) : s₀.Kept v.s := by
  unfold Uctx.busOp at e
  dsimp only at e
  split at e
  · cases e; exact h
  · split at e
    · cases e
    · cases e; exact h
  · split at e
    · cases e
    · rename_i d
      cases e
      exact h.trans (.stored d rfl)
  · split at e
    · cases e
    · cases e; exact h
  · cases e; exact h
  · split at e
    · cases e; exact h.ioRead ..
    · cases e; exact (h.ioRead ..).ioRead ..
  · cases e
    exact State.Kept.ite (h.ioWrite ..) ((h.ioWrite ..).ioWrite ..)
  · cases e; exact h
  · cases e; exact h.modCell c rfl

theorem Uctx.sequence_kept (h : s₀.Kept u.s) (w : BitVec 144) (cnd : Bool) : (u.sequence c w cnd).Kept s₀ := by
  unfold Uctx.sequence
  dsimp only
  split
  · exact .go h
  · exact .go h
  · exact .go h
  · exact .ite (.error _) (.go h)
  · exact .ite (.ite (.error _) (.go h)) (.go h)
  · split
    · exact .error _
    · exact .go h
  · exact .ite (.done h) (.error _)
  · exact .ite (.go h) (.ite (.done h) (.error _))
  · exact .go h
  · exact .go h
  · split
    · exact .error _
    · exact .go h

theorem Uctx.word_kept (h : s₀.Kept u.s) (w : BitVec 144) : (u.word c w).Kept s₀ := by
  unfold Uctx.word
  extract_lets commits late k word pa pb pw va vb lit ir2 o base ea wen wbReg cnd
  clear_value wbReg
  refine .ite (.error _) (.ite (.error _) (.ite (.ite (.error _) (.trap _)) (.ite (.error _) (.ite (.error _) ?_))))
  split
  · exact .ite (.error _) (.trap _)
  · rename_i u₁ e
    have h₁ : s₀.Kept u₁.s := busOp_kept c h e
    extract_lets u₂ u₃ u₄ u₅
    have h₂ : s₀.Kept u₂.s := by
      unfold u₂
      split
      · exact setReg_kept c h₁ _ _
      · split
        · exact setRegW_kept c h₁ _ _
        · exact h₁
    have h₃ : s₀.Kept u₃.s := by
      unfold u₃
      split
      · exact h₂
      · exact setRegW_kept c h₂ _ _
    have h₅ : s₀.Kept u₅.s := h₃.modCore c _
    exact sequence_kept c h₅ _ _

theorem Uctx.run_kept (n : Nat) (h : s₀.Kept u.s) : (Uctx.run c n u).Kept s₀ := by
  induction n generalizing u with
  | zero => exact .error h 0
  | succ n ih =>
    unfold Uctx.run
    split
    · exact .vendor
    · have hw := word_kept c h (Table.read (fun _ => 0) u.s.stores.extWords u.addr)
      split <;> rename_i e <;> rw [e] at hw <;> cases hw
      · exact ih ‹_›
      · exact .done ‹_›
      · exact .error h _
      · exact .trap _

@[simp] theorem State.runExt_kept (s : State) (e a : Half) (b : Byte) : (s.runExt c e a b).kept s := by
  have h := State.Kept.refl s
  unfold State.runExt
  extract_lets x op ir
  have hr := Uctx.run_kept (u := { s := s, addr := e.toNat, t := #v[loByte a, hiByte a, b, 0], ir := ir }) c 1024 h
  split <;> rename_i d <;> rw [d] at hr
  · trivial
  · trivial
  · cases hr with | error k => exact State.Kept.coreCheck (State.Kept.ite k h) c _
  · cases hr with
    | done k =>
      dsimp only
      split
      · exact k
      · exact k

@[simp] theorem bodyIn_kept (s : State) (d : Fin 16) (m : IoMode) : (bodyIn d m c s).kept s := by
  unfold bodyIn
  dsimp only
  split
  · split
    · trivial
    · exact s.runExt_kept c ..
  · exact ((State.Kept.refl s).ioRead ..).modCore c _

@[simp] theorem bodyOut_kept (s : State) (r : Fin 16) (m : IoMode) : (bodyOut r m c s).kept s := by
  have h := State.Kept.refl s
  unfold bodyOut
  dsimp only
  split
  · split
    · trivial
    · exact s.runExt_kept c ..
  · split
    · exact h.ioWrite ..
    · exact (h.ioWrite ..).modCore c _

end Microcode

/-! ## The instruction that stands at PC (R63, R95) -/

@[simp] theorem EkRes.kept_seq (s t : State) : (EkRes.seq t).kept s ↔ s.Kept t := .rfl

@[simp] theorem EkRes.kept_enter (s : State) (n : Nat) : (EkRes.enter n).kept s := trivial

section Decoded

variable (n : Nat) (b₁ b₂ b₃ : Byte) (c : CellNo) (s : State)

@[simp] theorem decode0_kept : ((decode0 n).body c s).kept s := by
  unfold decode0
  split <;> simp [coreBody_kept, State.Kept.refl]

@[simp] theorem decode4_kept : ((decode4 n b₁).body c s).kept s := by
  unfold decode4
  split <;> simp [coreBody_kept]

@[simp] theorem decode5_kept : ((decode5 n b₁ b₂ b₃).body c s).kept s := by
  unfold decode5
  dsimp only
  split <;> simp

@[simp] theorem decode6_kept : ((decode6 n b₁ b₂ b₃).body c s).kept s := by
  unfold decode6
  dsimp only
  split <;> simp

@[simp] theorem decode7_kept : ((decode7 n b₁ b₂).body c s).kept s := by
  unfold decode7
  split <;> simp [coreBody_kept]

@[simp] theorem decode9_kept : ((decode9 n b₁ b₂).body c s).kept s := by
  unfold decode9
  split <;> simp

@[simp] theorem decodeA_kept : ((decodeA n b₁ b₂).body c s).kept s := by
  unfold decodeA
  split <;> simp [coreBody_kept]

theorem decodeBytes_kept (op : Byte) : ((decodeBytes op b₁ b₂ b₃).body c s).kept s := by
  unfold decodeBytes
  dsimp only
  split <;> repeat' split
  all_goals simp [coreBody_kept]

theorem Cell.decodePc_kept {x : Cell} {d : Decoded} (e : x.decodePc = .instr d) : (d.body c s).kept s := by
  unfold Cell.decodePc at e
  dsimp only at e
  split at e
  · cases e
  · split at e
    · cases e
    · split at e
      · cases e
      · split at e
        · cases e
        · split at e
          · cases e
          · cases e; exact decodeBytes_kept ..

end Decoded

/-! ## Commands of the core (R69 to R95, R464 to R467) -/

section CoreCommands

variable (s : State) (c : CellNo)

/-- An access by the core to the register at `a`. -/
theorem coreWrite_lawful {a : Nat} {v : Byte} : s.Lawful (coreWrite c a v s) :=
  onStarted_lawful (.next ((State.Kept.refl s).ioWriteAs ..))

theorem coreReadAt_lawful {a : Nat} : s.Lawful (coreReadAt c a s) :=
  onStarted_lawful (.next ((State.Kept.refl s).coreRead ..))

theorem execNop_lawful (err : Option MicroErr) : s.Lawful (execNop c err s) := by
  unfold execNop
  split
  · exact runInstr_lawful c s (body := fun _ s => .seq s) (State.Kept.refl s)
  · exact onCell_lawful (.ite (.next ((State.Kept.refl s).coreCheck ..)) .same)

theorem execReservedOpcode_lawful : s.Lawful (execReservedOpcode c s) := by
  have h := State.Kept.refl s
  refine onCell_lawful (.ite .same ?_)
  split
  · exact .next (h.haltCell ..)
  · split
    · exact .next (h.takeTrap ..)
    · exact .same
    · exact .same

theorem execExtensionOpcode_lawful : s.Lawful (execExtensionOpcode c s) := by
  have h := State.Kept.refl s
  refine onCell_lawful (.ite .same ?_)
  split
  · exact .next (h.haltCell ..)
  · split
    · exact .next (h.takeTrap ..)
    · exact .same
    · split
      · exact .next (h.takeTrap ..)
      · exact runBody_lawful c s (s.runExt_kept c ..) ..

theorem execInterruptEntry_lawful : s.Lawful (execInterruptEntry c s) :=
  onCell_lawful (.ite (.next ((State.Kept.refl s).enterInterrupt c)) .same)

theorem execWdwEntry_lawful : s.Lawful (execWdwEntry c s) :=
  onCell_lawful (.ite (.next (((State.Kept.refl s).modCell c rfl).enterVector c _ _ _)) .same)

theorem execPaceEntry_lawful : s.Lawful (execPaceEntry c s) :=
  onCell_lawful (.ite (.next (((State.Kept.refl s).modPace c _).enterVector c _ _ _)) .same)

theorem stepBody_lawful : s.Lawful (s.stepBody c) := by
  have h := State.Kept.refl s
  refine .ite (.next (h.enterInterrupt c)) ?_
  split
  · exact .next (h.takeTrap ..)
  · exact runBody_lawful c s (Cell.decodePc_kept _ _ ‹_›) ..
  · split
    · exact .next (h.takeTrap ..)
    · exact runBody_lawful c s (s.runExt_kept c ..) ..

variable {s} in
theorem stepEnd_lawful {r : Res} (h : s.Lawful r) (prior : CState) (pace : Pace) : s.Lawful (stepEnd c prior pace r) := by
  cases h with
  | next h => exact .next (.ite h (h.haltAgain ..))
  | absent => exact .absent
  | vendor => exact .vendor

theorem stepCell_lawful : s.Lawful (s.stepCell c) := by
  unfold State.stepCell
  extract_lets x pace woke y t prior ctl dbg z
  have ht : s.Kept t := .ite (.mk (.refl s) rfl rfl) (.refl s)
  have hm : z.mem = (t.cell c).mem := by
    show y.mem = (t.cell c).mem
    unfold y t
    split
    · exact Cell.wakeUp_mem ..
    · rfl
  have hz : s.Kept (t.setCell c z) := ht.setCell c hm
  split
  · exact .next ((State.Kept.refl s).haltAgain ..)
  · split
    · exact .next (hz.haltAgain ..)
    · exact stepEnd_lawful c (.trans hz (stepBody_lawful _ c)) ..

theorem takeStep_lawful : s.Lawful (s.takeStep c) := by
  have h (r : List CellCmd) : s.Kept (s.modCtl c fun k => { k with cmds := r }) := (State.Kept.refl s).modCtl c _
  unfold State.takeStep
  split
  · exact .ite (.ite (.trans (h _) (stepCell_lawful _ c)) .same) (.next ((h _).lapse ..))
  · exact .same

end CoreCommands

/-! ## Commands of beams and audio (R33 to R54, R102 to R106, R335 to R350) -/

section BeamsAndAudio

variable (s : State) (c : CellNo)

theorem execCellLineStart_lawful : s.Lawful (execCellLineStart c s) := by
  have h := State.Kept.refl s
  exact onLive_lawful (.ite .same (.ite (.next (h.cellLine c 0).orSame) (.next (h.cellLine c _))))

theorem execGeomSwitch_lawful : s.Lawful (execGeomSwitch c s) := by
  refine onLive_lawful ?_
  dsimp only
  split
  · exact .same
  · exact .ite .same (.next ((State.Kept.refl s).setCell c rfl))

theorem execSpriteSnapshotDone_lawful : s.Lawful (execSpriteSnapshotDone c s) := by
  refine onLive_lawful ?_
  split
  · exact .same
  · exact .next ((State.Kept.refl s).modCell c (Cell.snapshot_mem ..))

theorem execProgramLineStart_lawful (sw : Bool) : s.Lawful (execProgramLineStart c sw s) := by
  have h := (State.Kept.refl s).endLine c
  exact onLive_lawful (.ite .same (.next ((h.modCell c (by simp)).lineEvents c)))

theorem execProgramFrameStart_lawful : s.Lawful (execProgramFrameStart c s) := by
  have h := State.Kept.refl s
  refine onLive_lawful (.ite .same (.ite (.next ?_) (.ite .same (.next ?_))))
  · exact ((h.modCell c (by simp)).lineEvents c).modCell c (Cell.moveBegins_mem ..)
  · exact (((h.endLine c).modCell c (by simp)).lineEvents c).modCell c (Cell.moveBegins_mem ..)

theorem execPaceCredit_lawful : s.Lawful (execPaceCredit c s) :=
  onLive_lawful (.next (.orSame ((State.Kept.refl s).setCell c rfl)))

theorem execBridgeLock_lawful (b : BridgeId) : s.Lawful (execBridgeLock b s) := by
  have h := State.Kept.refl s
  cases b with
  | cell c => exact onCell_lawful (.next (h.modCell c rfl).orSame)
  | port n => exact .next (h.modPort n _).orSame

theorem execGainStepTimeout_lawful (g : GainId) : s.Lawful (execGainStepTimeout g s) := by
  have h := State.Kept.refl s
  cases g with
  | host c => exact onCell_lawful (.next (h.modCell c rfl))
  | ear n => exact .next (h.modPort n _)
  | side n => exact .next (h.modPort n _)
  | mic n => exact .next (h.modPort n _)

theorem execJackRemove_lawful (n : Fin 4) : s.Lawful (execJackRemove n s) := by
  have h := (State.Kept.refl s).modPort n
  exact .ite (.next ((h _).fireShared _ |>.ite (h _))) .same

theorem execAudioPacket_lawful (port : Option (Fin 4)) : s.Lawful (execAudioPacket c port s) := by
  have h := State.Kept.refl s
  cases port with
  | none => exact onCell_lawful (.next (h.audioStream0 c))
  | some n => exact onCell_lawful (.next (h.audioStream1 c n).orSame)

end BeamsAndAudio

/-! ## Cell commands (R97), control stores, images and pages -/

section CellCommands

variable (s : State) (c : CellNo)

theorem execCsRepairDone_lawful (ok : Bool) : s.Lawful (execCsRepairDone ok s) := by
  have h := State.Kept.refl s
  unfold execCsRepairDone
  split
  · exact .same
  · exact .ite (.next (.mk h rfl rfl)) (.next (State.Kept.raise (.mk h rfl rfl) ..))

theorem execCellStart_lawful (core : Fin 128) (stagger : Nat) : s.Lawful (execCellStart c core stagger s) := by
  refine onLive_lawful (.ite (takeCmd_lawful fun u v h e => ?_) .same)
  split at e <;> cases e
  exact h.startCell ..

theorem execCellPause_lawful : s.Lawful (execCellPause c s) := by
  refine onLive_lawful (takeCmd_lawful fun u v h e => ?_)
  split at e <;> cases e <;> exact h.modCell c (Cell.pause_mem _)

theorem execCellResume_lawful (pix : Nat) : s.Lawful (execCellResume c pix s) := by
  refine onLive_lawful (takeCmd_lawful fun u v h e => ?_)
  split at e <;> cases e
  exact h.modCell c (Cell.resume_mem ..)

theorem execCellStop_lawful : s.Lawful (execCellStop c s) := by
  refine onCell_lawful (takeCmd_lawful fun u v h e => ?_)
  split at e <;> cases e
  exact h.stopCell c

theorem execCellResetCmd_lawful : s.Lawful (execCellResetCmd c s) := by
  refine onLive_lawful (takeCmd_lawful fun u v h e => ?_)
  split at e <;> cases e <;> exact h.resetInPlace ..

theorem execCellUnload_lawful : s.Lawful (execCellUnload c s) := by
  refine onCell_lawful (takeCmd_lawful fun u v h e => ?_)
  split at e <;> cases e
  exact h.unloadCell c

theorem execWake_lawful (pix ticks : Nat) : s.Lawful (execWake c pix ticks s) :=
  onLive_lawful (.next (.orSame ((State.Kept.refl s).setCell c (Cell.wakeUp_mem ..))))

theorem execSleepAlarm_lawful (n : Fin 4) : s.Lawful (execSleepAlarm c n s) :=
  onLive_lawful (.next (.orSame ((State.Kept.refl s).setCell c rfl)))

theorem execImgLoadDone_lawful (img : Option (List Byte)) (pages : List PageAlloc) : s.Lawful (execImgLoadDone c img pages s) := by
  have h := State.Kept.refl s
  refine onCell_lawful (.ite .same ?_)
  split
  · exact .next (h.modCell c rfl)
  · split
    · exact .next (h.modCell c rfl)
    · exact .ite (.next (h.loadCell ..)) .same

theorem execPageRedirect_lawful (page : PageNo) : s.Lawful (execPageRedirect page s) := by
  unfold execPageRedirect
  split
  · exact .same
  · exact .next ((State.Kept.refl s).endMove _)

theorem takeResume_lawful (pix : Nat) : s.Lawful (s.takeResume c pix) := by
  refine takeCmd_lawful fun u v h e => ?_
  split at e <;> cases e
  exact h.modCell c (Cell.dbgResume_mem ..)

/-- A write of one object answers a next state in every case. -/
theorem dictPut_next (o : Origin) (idx sub v : Nat) : ∃ t, dictPut o idx sub v s = .next t ∧ s.Kept t :=
  ⟨_, rfl, .orSame ((State.Kept.refl s).writeOne ..)⟩

theorem execDbgHalt_lawful (o : Origin) : s.Lawful (execDbgHalt c o s) := by
  obtain ⟨t, e, h⟩ := dictPut_next s o (0x9000 + 16 * c.val) 6 1
  unfold execDbgHalt
  rw [e]
  exact .ite (.next ((State.Kept.refl s).takeHalt c)) (.next (h.takeHalt c))

theorem execDbgStep_lawful (o : Origin) : s.Lawful (execDbgStep c o s) := by
  obtain ⟨t, e, h⟩ := dictPut_next s o (0x9000 + 16 * c.val) 6 2
  unfold execDbgStep
  rw [e]
  exact .ite (takeStep_lawful s c) (.trans h (takeStep_lawful t c))

theorem execDbgResume_lawful (o : Origin) (pix : Nat) : s.Lawful (execDbgResume c o pix s) := by
  obtain ⟨t, e, h⟩ := dictPut_next s o (0x9000 + 16 * c.val) 6 3
  unfold execDbgResume
  rw [e]
  exact .ite (takeResume_lawful s c pix) (.trans h (takeResume_lawful t c pix))

theorem execTapClockEdge_lawful (trst rising tms tdi : Bool) (ir : TapInstr) : s.Lawful (execTapClockEdge trst rising tms tdi ir s) := by
  have h := State.Kept.refl s
  exact .ite .same (.ite (.next (.mk h rfl rfl)) (.ite (.next (.mk h rfl rfl)) (.next (.mk h rfl rfl))))

end CellCommands

/-! ## The host and the dictionary's transports (R397 to R457) -/

section HostCommands

variable (s : State) (c : CellNo) (q : QueueId)

theorem execPf0Flr_lawful : s.Lawful (execPf0Flr s) := .next (.orSame (((State.Kept.refl s).vfsOff).modLink _))

theorem execVfEnableWrite_lawful (on : Bool) : s.Lawful (execVfEnableWrite on s) := by
  have h := State.Kept.refl s
  exact .next (.ite h (.ite h.vfsOff (.orSame (h.modLink _))))

theorem execHostLinkChange_lawful (k : LinkChange) : s.Lawful (execHostLinkChange k s) := by
  have h := State.Kept.refl s
  refine .next (.ite h ?_)
  cases k with
  | up g w n => exact .orSame (h.modLink _)
  | down => exact h.modLink _
  | retrain g w n => exact .orSame ((h.modLink _).modLink _)
  | reset => exact h.modLink _
  | corrected => exact h.modLink _

theorem execQueueCtlWrite_lawful (off : Nat) (v : Long) : s.Lawful (execQueueCtlWrite q off v s) :=
  onQueue_lawful (.next (.orSame (((State.Kept.refl s).modQueue ..).afterTake ..)))

theorem execQueueWindowWrite_lawful (part : WinPart) (data tag : Long) : s.Lawful (execQueueWindowWrite q part data tag s) := by
  have h := State.Kept.refl s
  refine onQueue_lawful (.next (.ite h ?_))
  cases part with
  | whole => exact h.windowWord ..
  | low => exact h.modQueue ..
  | high => exact h.windowWord ..

theorem execQueueDrop_lawful : s.Lawful (execQueueDrop q s) := by
  have h := State.Kept.refl s
  exact onQueue_lawful (.next (.ite h (.ite (h.modQueue ..) (.orSame ((h.modQueue ..).afterTake ..)))))

theorem execHostMailboxWrite_lawful (part : WinPart) (stat : Bool) (v : Long) : s.Lawful (execHostMailboxWrite c part stat v s) := by
  have h := State.Kept.refl s
  refine onCell_lawful (.next (.ite h (.ite (h.modHost c _) ?_)))
  cases part with
  | whole => exact h.mailboxWrite ..
  | low => exact h.modHost c _
  | high => exact h.mailboxWrite ..

section Served

variable {s₀ s t : State} {n : Fin 7} {l : List Byte} {ex : Bool} {limit : Nat}

theorem State.Kept.servedClient {node : Byte} {mac : Long} {r : Option (List Byte)} (h : s₀.Kept s)
    (e : s.serveClient n node mac l ex limit = (t, r)) : s₀.Kept t := by
  have k := h.serveClient n node mac l ex limit
  rwa [e] at k

theorem State.Kept.servedFixed {k : Half} {r : Served} (h : s₀.Kept s) (e : s.serveFixed k n l ex limit = (t, r)) : s₀.Kept t := by
  have hf := h.serveFixed k n l ex limit
  rwa [e] at hf

end Served

/-- A message of a client, and its response on the client's transport. -/
theorem dictMessage_lawful (o : Origin) (op : Nat) (mac : Long) (body : List Byte) : s.Lawful (dictMessage o op mac body s) := by
  have h := State.Kept.refl s
  refine .ite .same ?_
  split
  · exact .next (h.serveFixed ..)
  · exact .next (h.serveFixed ..)
  · split <;> rename_i e
    · exact .next (.ite (h.servedClient e) ((h.servedClient e).t1sSend ..))
    · exact .next (h.servedClient e)
  · split <;> rename_i e
    · exact .next ((h.servedClient e).canSend ..)
    · exact .next (h.servedClient e)
  · split <;> rename_i e
    · exact .next ((h.servedClient e).canSend ..)
    · exact .next (h.servedClient e)
  · exact .same

theorem execSessionIdleTimeout_lawful (session : Half) : s.Lawful (execSessionIdleTimeout session s) := by
  unfold execSessionIdleTimeout
  split
  · exact .same
  · exact .next (.orSame ((State.Kept.refl s).closeSession ..))

theorem execMbxGo_lawful (len : Nat) (buf : List Byte) : s.Lawful (execMbxGo len buf s) := by
  unfold execMbxGo
  refine .ite .same ?_
  extract_lets full t
  have h : s.Kept t := (State.Kept.refl s).modMc rfl rfl
  refine .ite (.next (h.mbxEnd _)) (.ite (.next (h.mbxEnd _)) ?_)
  split <;> rename_i e
  · exact .next (h.servedFixed e)
  · exact .next (.ite (h.servedFixed e) ((h.servedFixed e).mbxEnd _))

theorem execCommandPacketTake_lawful : s.Lawful (execCommandPacketTake s) := by
  unfold execCommandPacketTake
  refine .ite .same ?_
  split
  · exact .same
  · rename_i p _
    extract_lets t u body
    have h : s.Kept u := ((State.Kept.refl s).modLink _).roomBack _
    refine .ite (.next (h.modLink _)) ?_
    split <;> rename_i e
    · exact .next (h.servedFixed e)
    · exact .next (.ite (h.servedFixed e) ((h.servedFixed e).cmdEnd _))

theorem execT1sFrame_lawful (ok : Bool) (bytes : List Byte) : s.Lawful (execT1sFrame ok bytes s) := by
  have h := State.Kept.refl s
  unfold execT1sFrame
  extract_lets be mac
  refine .ite .same (.ite (.next (h.modMc rfl rfl)) (.ite .same (.ite ?_ (.ite (.ite (.next ?_) (.next ?_)) .same))))
  · split <;> rename_i e
    · exact .next ((h.servedClient e).t1sSend ..)
    · exact .next (h.servedClient e)
  · exact (h.modMc rfl rfl).fireShared _
  · exact h.modMc rfl rfl

theorem execCanFrame_lawful (k : Fin 2) (fd : Bool) (id : BitVec 11) (data : List Byte) : s.Lawful (execCanFrame k fd id data s) := by
  have h := State.Kept.refl s
  unfold execCanFrame
  extract_lets n can node ctl mask
  refine .ite .same (.ite (.ite .same ?_) (.ite (.next ?_) .same))
  · split
    · exact .next (h.setCan ..)
    · split <;> rename_i e
      · exact .next (((h.setCan ..).servedClient e).canSend ..)
      · exact .next ((h.setCan ..).servedClient e)
  · exact (h.setCan ..).fireShared _

theorem execCanControllerStateChange_lawful (k : Fin 2) (st : Fin 4) : s.Lawful (execCanControllerStateChange k st s) := by
  have h := ((State.Kept.refl s).setCan k { s.mc.can.get k with state := BitVec.ofNat 8 st.val }).raiseEvent 0x50 k.val false st.val
  exact .ite .same (.next (.ite (h.closeTransport _) h))

theorem execGainWrite_lawful (g : GainId) (o : Origin) (v : Half) : s.Lawful (execGainWrite g o v s) := by
  cases g with
  | host c => exact dictPut_lawful
  | ear n => exact dictPut_lawful
  | side n => exact dictPut_lawful
  | mic n => exact dictPut_lawful

theorem execDevResetWrite_lawful (o : Option Origin) (v : Byte) : s.Lawful (execDevResetWrite o v s) := by
  cases o with
  | none => exact .next (.orSame ((State.Kept.refl s).deviceReset 4))
  | some o => exact dictPut_lawful

end HostCommands

/-! ## Blitter, foragers, video slots, sound, timers -/

section EngineCommands

variable (s : State) (c : CellNo)

theorem execBlitOpBegin_lawful : s.Lawful (execBlitOpBegin c s) := by
  refine onLive_lawful ?_
  dsimp only
  split
  · exact .same
  · exact .next (.ite (.refl s) ((State.Kept.refl s).setCell c (Cell.blitBegin_mem ..)))

theorem execBlitBurstDone_lawful (g : Fin 16) (err : Option MicroErr) : s.Lawful (execBlitBurstDone g err s) := by
  refine .ite .same ?_
  split
  · exact .same
  · rename_i c _
    have h : s.Kept { s with blitTurn := s.blitTurn.set g c.val } := .mk (.refl s) rfl rfl
    dsimp only
    split
    · exact .next (((h.modCell c (Cell.blitEnd_mem _)).microError ..).cellFault c 1)
    · exact .next (.mk (h.setCell_wf c fun w => Cell.blitBurst_wf _ _ _ w) rfl rfl)
    · exact .next h

theorem execFgBeat_lawful (k : Fin 4) (busyDomain : Bool) : s.Lawful (execFgBeat c k busyDomain s) := by
  have h := State.Kept.refl s
  refine onStarted_lawful (.ite .same ?_)
  split
  · exact .same
  · exact .next (.ite (h.setCell c (Cell.fgEnd_mem ..)) (.ite (h.fgSource ..) (h.fgDest ..)))

theorem execSlotStart_lawful (k : Fin 24) (err : Option MicroErr) : s.Lawful (execSlotStart k err s) := by
  refine onComb_lawful (.ite .same ?_)
  split
  · exact .same
  · exact .next (.ite (.refl s) ((State.Kept.refl s).startSlot ..))

theorem execSlotFetchArrive_lawful (k : Fin 24) (waits : Nat) : s.Lawful (execSlotFetchArrive k waits s) := by
  refine onComb_lawful ?_
  split
  · exact .same
  · exact .next ((State.Kept.refl s).modVid ..)

theorem execSlotComplete_lawful (k : Fin 24) : s.Lawful (execSlotComplete k s) := by
  refine onComb_lawful ?_
  split
  · exact .same
  · exact .next (.ite (.refl s) ((State.Kept.refl s).completeSlot ..))

theorem execSlotMiss_lawful : s.Lawful (execSlotMiss c s) := by
  refine onLive_lawful ?_
  split
  · exact .same
  · exact .next (.orSame ((State.Kept.refl s).missSlot ..))

theorem execPrefillRelease_lawful : s.Lawful (execPrefillRelease c s) := by
  refine onLive_lawful ?_
  dsimp only
  split
  · exact .same
  · exact .ite (.next (((State.Kept.refl s).modVid ..).modComb ..)) .same

theorem execPrefillEnd_lawful : s.Lawful (execPrefillEnd c s) := by
  refine onLive_lawful ?_
  split
  · exact .same
  · exact .next (((State.Kept.refl s).modVid ..).modComb ..)

theorem execWritebackWriteDone_lawful : s.Lawful (execWritebackWriteDone c s) := by
  refine onLive_lawful ?_
  split
  · exact .same
  · exact .next ((State.Kept.refl s).setCell_wf c fun w => Cell.writeMemList_wf _ _ _ w)

theorem execSamplePoint_lawful (late : BitVec 16) : s.Lawful (execSamplePoint c late s) := by
  refine onLive_lawful ?_
  extract_lets x b n y snd
  refine .ite .same (.next ?_)
  have hy : y.mem = (s.cell c).mem := Cell.soundPoint_mem ..
  refine State.Kept.guestSample (State.Kept.setCell (.refl s) c ?_) c
  exact hy

theorem execWaveFetch_lawful (v : Fin 8) : s.Lawful (execWaveFetch c v s) :=
  onLive_lawful (.next (.orSame ((State.Kept.refl s).setCell c (Cell.modVoice_mem ..))))

theorem execTimerCount_lawful (who : BitVec 4) : s.Lawful (execTimerCount c who s) :=
  onLive_lawful (.next (.ite (.refl s) ((State.Kept.refl s).setCell c (Cell.tmCycle_mem ..))))

theorem execWdExpire_lawful : s.Lawful (execWdExpire c s) := by
  refine onLive_lawful ?_
  extract_lets x fault wd t
  refine .ite .same (.next ?_)
  have h : s.Kept t := (State.Kept.refl s).setCell c (Cell.putReg_mem ..)
  exact .ite (h.cellFault c 3) (h.resetInPlace c 4)

end EngineCommands

/-! ## Keeper, power, heads -/

section DeviceCommands

variable (s : State) (c : CellNo)

theorem execKeeperPageDecision_lawful (heat : List (PageNo × Nat)) : s.Lawful (execKeeperPageDecision heat s) := by
  unfold execKeeperPageDecision
  refine .ite .same ?_
  extract_lets t u
  have ht : s.Kept t := State.Kept.foldl (fun _ _ h => .ite (h.setPte ..) h) _ (.refl s)
  have hu : s.Kept u := State.Kept.foldl (fun _ _ h => h.setPte ..) _ ht
  exact .next (hu.modKeeper _)

theorem execCoreMoveDone_lawful : s.Lawful (execCoreMoveDone c s) := by
  have h := State.Kept.refl s
  refine onLive_lawful ?_
  dsimp only
  split
  · refine .next ((((State.Kept.modKp ?_ c _).giveCore c _).modKeeper _).modCell c (Cell.resumeCount_mem ..)).fenceCheck
    split
    · exact h.modKeeper _
    · exact h
  · exact .same

theorem execMicroTrap_lawful (q : SeqUnit) (e : MicroEvent) : s.Lawful (execMicroTrap q e s) := by
  have h := State.Kept.refl s
  refine .next (.ite h ?_)
  cases e with
  | request a => exact h.modSeq ..
  | mret => exact h.modSeq ..
  | error x => exact h.seqError ..

theorem execRailsGood_lawful (id : BitVec 3) (boot : BitVec 2) : s.Lawful (execRailsGood id boot s) := by
  have h (f : Pwr → Pwr) := (((State.Kept.refl s).modPwr f).setMode .sense).setDom 49 2
  exact .next (.orSame (.ite (h _) ((h _).faultHold 6)))

theorem execFusesRead_lawful (f : Option FuseData) : s.Lawful (execFusesRead f s) := by
  have h := State.Kept.refl s
  refine .next (.orSame ?_)
  cases f with
  | none => exact h.faultHold 1
  | some f => exact h.enterLoad f

/-- The end of TRAIN: FAULT-HOLD, or READY with the domains that are wanted, or SERVE after a wake (R486, R503). -/
theorem State.Kept.trainEnd {s t : State} {ch : List ChanTrain} {area : List (BitVec 17)} (e : s.trainEnd ch area = some t) : s.Kept t := by
  unfold State.trainEnd at e
  extract_lets l u v w x woken y z at e
  have hu : s.Kept u := ((State.Kept.refl s).clearArea).trainAll _
  have hx : s.Kept x := ((((hu.formArea _).startBeam).setDoms _).startLinks)
  have hz : s.Kept z := .ite (((hx.modPwr _).setMode _).releasePads) ((hx.modPwr _).setMode _)
  split at e
  · rw [← Option.some.inj e]
    exact hu.faultHold 5
  · split at e
    · cases e
    · rw [← Option.some.inj e]
      exact .ite hz.serve hz

theorem execTrainDone_lawful (ch : List ChanTrain) (area : List (BitVec 17)) : s.Lawful (execTrainDone ch area s) := by
  refine .next (.orSame ?_)
  split
  · exact .refl s
  · rename_i e
    exact .ite (.trainEnd e) (State.Kept.trainEnd e).applyHeld

theorem execThermalTrip_lawful (t : Fin 16) : s.Lawful (execThermalTrip t s) :=
  .next (.ite (.refl s) (((State.Kept.refl s).modPwr _).faultHold 6))

theorem execBankVoltageChange_lawful (b : Fin 8) (v : Fin 3) : s.Lawful (execBankVoltageChange b v s) :=
  .next (.ite (.refl s) (State.Kept.raise (.mk (.refl s) rfl rfl) ..))

theorem execHotplug_lawful (h : Fin 4) (sink : Option SinkCaps) : s.Lawful (execHotplug h sink s) := by
  have k := (State.Kept.refl s).modHead h fun k => { k with sink := sink }
  exact .next (.ite (k.trainHead h) k)

end DeviceCommands

/-! ## The swarm (R372 to R396) -/

section SwarmCommands

variable (s : State) (l : Fin 7)

theorem receive_lawful {kind : Nat} {bytes : List Byte} {f : JFrame → State → State} (hf : ∀ j t, s.Kept t → s.Kept (f j t)) :
    s.Lawful (receive l kind bytes f s) := by
  have h := State.Kept.refl s
  refine .ite .same ?_
  split
  · exact .next ((h.modLinkL l _).sendNak l)
  · exact .ite (.next (h.modLinkL l _)) (.ite .same (.ite (.next (h.sendNak l))
      (.next (.ite (hf _ _ (h.modLinkL l _)) ((h.modLinkL l _).relay l _)))))

theorem migc_lawful {code : Nat} {bytes : List Byte} {f : JFrame → CellNo → State → State}
    (hf : ∀ j c t, s.Kept t → s.Kept (f j c t)) : s.Lawful (migc code l bytes f s) :=
  receive_lawful s l fun j t h => .ite (hf j j.cell t h) h

variable {s} in
/-- Parts of a packet collect in the link. -/
theorem State.Kept.gather {t : State} (h : s.Kept t) (j : JFrame) : s.Kept (t.gather l j).1 := by
  unfold State.gather
  dsimp only
  split
  · exact h.modLinkL l _
  · exact h.modLinkL l _

variable {s l} in
theorem State.Kept.gathered {t u : State} {j : JFrame} {r : Option (List Byte)} (h : s.Kept t) (e : t.gather l j = (u, r)) :
    s.Kept u := by
  have k := h.gather l j
  rwa [e] at k

theorem execLinkSignal_lawful (present : Bool) : s.Lawful (execLinkSignal l present s) := by
  have h := (State.Kept.refl s).modLinkL l fun k => { k with signal := present }
  exact .ite .same (.next (.ite (.ite h (h.dropLink l).linksChanged) (.ite (h.startTrain l) h)))

theorem execLinkTrainRateDone_lawful (accepted : Bool) : s.Lawful (execLinkTrainRateDone l accepted s) := by
  have h := State.Kept.refl s
  exact .ite .same (.ite (.next (.mk (h.setLink ..) rfl rfl)) (.ite (.next (h.modLinkL l _)) (.next (h.setLink ..).linksChanged)))

theorem execLinkRetryTimeout_lawful : s.Lawful (execLinkRetryTimeout l s) := by
  have h := State.Kept.refl s
  exact .next (.orSame (.ite (h.startTrain l) (h.modLinkL l _)))

theorem execJajanHello_lawful (hi : HelloInfo) : s.Lawful (execJajanHello l hi s) := by
  have h := State.Kept.refl s
  exact .next (.ite (h.hello l hi) (.orSame (h.modLinkL l _)))

theorem execJajanBeam_lawful (bytes : List Byte) (m : PulseMeas) : s.Lawful (execJajanBeam l bytes m s) := by
  refine receive_lawful s l fun j t h => ?_
  extract_lets src better u v w
  have hu : s.Kept u := .ite (h.setMaster _) h
  have hw : s.Kept w := (hu.modSwarm _).takeTime _
  exact .ite (.ite (hw.beamPulse m) hw) hu

theorem execReplayTimeout_lawful : s.Lawful (execReplayTimeout l s) := by
  unfold execReplayTimeout
  split
  · exact .same
  · exact .next (.orSame ((State.Kept.refl s).resend ..))

theorem execIdleCtrlTimer_lawful : s.Lawful (execIdleCtrlTimer l s) := .ite .same (.next ((State.Kept.refl s).modLinkL l _))

theorem execJajanSlice_lawful (bytes : List Byte) : s.Lawful (execJajanSlice l bytes s) := by
  refine receive_lawful s l fun j t h => ?_
  dsimp only
  split <;> rename_i e
  · exact h.gathered e
  · have k := h.gathered e
    exact .ite k (.ite (k.modVid ..) ((k.modVid ..).sliceEnqueue ..))

theorem execJajanAudio_lawful (bytes : List Byte) : s.Lawful (execJajanAudio l bytes s) :=
  receive_lawful s l fun _ _ h => .ite (h.modCell _ rfl) h

theorem execJajanEvent_lawful (bytes : List Byte) (input : Fin 4) : s.Lawful (execJajanEvent l bytes input s) :=
  receive_lawful s l fun _ _ h => .ite (h.shInput ..) h

theorem execJajanCellio_lawful (bytes : List Byte) : s.Lawful (execJajanCellio l bytes s) := by
  refine receive_lawful s l fun j t h => ?_
  dsimp only
  split <;> rename_i e <;> have k := h.gathered e
  · exact k
  · split
    · exact .ite (k.modHost ..) k
    · refine .ite ?_ (.ite ((k.modHost ..).msiVf ..) k)
      split
      · exact k.mailboxIn ..
      · exact k
    · exact .ite (k.evCommit ..) k
    · exact .ite (State.Kept.foldl (fun _ _ h => h.vtTxIn ..) _ k) k
    · exact .ite (k.vtRxIn ..) k
    · exact k

theorem execJajanDict_lawful (bytes : List Byte) : s.Lawful (execJajanDict l bytes s) := by
  refine receive_lawful s l fun j t h => ?_
  split <;> rename_i e
  · exact (h.gathered e).dictIn ..
  · exact h.gathered e

theorem execMigcStart_lawful (bytes : List Byte) (n : MigNeeds) : s.Lawful (execMigcStart l bytes n s) :=
  migc_lawful s l fun _ _ _ h => .ite (h.takeGuest ..) (h.sendTo ..)

theorem execJajanPage_lawful (bytes : List Byte) : s.Lawful (execJajanPage l bytes s) :=
  receive_lawful s l fun _ _ h => .ite (h.setCell_wf _ fun w => Cell.putBlocks_wf _ _ _ w) h

theorem execJajanState_lawful (bytes : List Byte) : s.Lawful (execJajanState l bytes s) :=
  receive_lawful s l fun _ _ h => .ite h (.ite (((h.modKp ..).modKp ..).sendTo ..) (h.modKp ..))

theorem execMigcReady_lawful (bytes : List Byte) : s.Lawful (execMigcReady l bytes s) :=
  migc_lawful s l fun _ _ _ h => .ite ((h.sendMigc ..).modKp ..) h

theorem execMigcGo_lawful (bytes : List Byte) (core : Fin 128) : s.Lawful (execMigcGo l bytes core s) :=
  migc_lawful s l fun _ _ _ h => .ite ((h.startGuest ..).sendTo ..) h

theorem execMigcAck_lawful (bytes : List Byte) : s.Lawful (execMigcAck l bytes s) :=
  migc_lawful s l fun _ _ _ h => .ite (h.releaseMigrated _) h

theorem execMigcCancel_lawful (bytes : List Byte) (exceeded : Bool) : s.Lawful (execMigcCancel l bytes exceeded s) :=
  migc_lawful s l fun _ _ _ h => .ite (.ite (h.dropGuest _) (h.modKp ..)) (.ite (h.abandonMigration _) h)

end SwarmCommands

/-! ## Every command -/

theorem execTrap_lawful (c : CellNo) (n : Fin 4) (s : State) : s.Lawful (execTrap c n s) := by
  refine runInstr_lawful c s ?_
  exact EkRes.kept_enter s n.val

theorem execLoop_lawful (c : CellNo) (x : LoopSrc) (len : Byte) (s : State) : s.Lawful (execLoop c x len s) := by
  refine runInstr_lawful c s ?_
  exact bodyLoop_kept ..

theorem wgInstr_lawful (op : Nat) (c : CellNo) (s : State) : s.Lawful (wgInstr op c s) := by
  refine onCell_lawful ?_
  dsimp only
  split
  · exact .same
  · refine .ite .same ?_
    split
    · exact .same
    · exact .ite (.next ((State.Kept.refl s).modVid ..)) .same

/-- The model never faults, keeps its queue, its part and its memory ranges, and names each refusal. -/
theorem exec_lawful (s : State) (i : Instr) : s.Lawful (exec i s) := by
  have h := State.Kept.refl s
  cases i with
  | houseFrameStart => exact .next (.orSame (h.houseFrame ..))
  | framePulse => exact .next (.orSame (h.beamPulse ..))
  | linePulse => exact .next (.orSame (h.linePulse ..))
  | syncWindowExpire => exact .next (.orSame h.windowEnd)
  | holdoverExpire => exact .next (.orSame (h.setLock ..))
  | cellLineStart => exact execCellLineStart_lawful ..
  | geomSwitch => exact execGeomSwitch_lawful ..
  | spriteSnapshotDone => exact execSpriteSnapshotDone_lawful ..
  | programLineStart => exact execProgramLineStart_lawful ..
  | programFrameStart => exact execProgramFrameStart_lawful ..
  | paceCredit => exact execPaceCredit_lawful ..
  | vidCommit | regWrite | ckFeed | mbAckWrite | eventPush | eventDrop | vtTxWrite | gvSetWrite | gvClrWrite =>
    exact onStarted_lawful (.next (h.ioWriteAs ..))
  | vbCaptureRead => exact onStarted_lawful (.next ((h.atPixel ..).coreRead ..))
  | regCaptureRead | vtRxRead => exact onStarted_lawful (.next (h.coreRead ..))
  | lineLiveWrite | soundRegWrite => exact onStarted_lawful (.next (.orSame ((h.atPixel ..).ioWriteAs ..)))
  | nop => exact execNop_lawful ..
  | sleep => exact runInstr_lawful _ s (bodySleep_kept ..)
  | ei | di | scf | clc | ccf | xch | clz | movw | addw | subw | cmpw | incw | decw | ldsp | stsp | mfm | mtm | mff | mtf
  | ins | ext | exts | perm | bit | setb | clrb | leave | mflc => exact runInstr_lawful _ s (coreBody_kept ..)
  | ret => exact runInstr_lawful _ s (bodyRet_kept ..)
  | reti => exact runInstr_lawful _ s (bodyRetiOr_kept ..)
  | rett => exact runInstr_lawful _ s (bodyRett_kept ..)
  | pushf | pushw | push => exact runInstr_lawful _ s (bodyPush_kept ..)
  | popf | popw | pop => exact runInstr_lawful _ s (bodyPop_kept ..)
  | add | adc | sub | sbc | and | or | xor | cmp | mov | tst => exact runInstr_lawful _ s (bodyAlu_kept ..)
  | mul | muls => exact runInstr_lawful _ s (bodyMul_kept ..)
  | mulProductLand => exact onCell_lawful (.next (h.modCore ..))
  | inc | dec | neg | not | shl | shr | sar | rol | ror | swap => exact runInstr_lawful _ s (bodyUn_kept ..)
  | ld => exact runInstr_lawful _ s (bodyLd_kept ..)
  | st => exact runInstr_lawful _ s (bodySt_kept ..)
  | ldw => exact runInstr_lawful _ s (bodyLdw_kept ..)
  | stw => exact runInstr_lawful _ s (bodyStw_kept ..)
  | ldc => exact runInstr_lawful _ s (bodyLdc_kept ..)
  | ldcw => exact runInstr_lawful _ s (bodyLdcw_kept ..)
  | out => exact runInstr_lawful _ s (bodyOut_kept ..)
  | bra | beq | bne | bcs | bcc | bmi | bpl | bvs | bvc | bhi | bls | bge | blt | bgt | ble =>
    exact runInstr_lawful _ s (bodyBr_kept ..)
  | bsr => exact runInstr_lawful _ s (bodyBsr_kept ..)
  | jmp => exact runInstr_lawful _ s (bodyJmp_kept ..)
  | call => exact runInstr_lawful _ s (bodyCall_kept ..)
  | djnz => exact runInstr_lawful _ s (bodyDjnz_kept ..)
  | trap => exact execTrap_lawful ..
  | loop => exact execLoop_lawful ..
  | pushl => exact runInstr_lawful _ s (bodyPushl_kept ..)
  | popl => exact runInstr_lawful _ s (bodyPopl_kept ..)
  | extensionOpcode => exact execExtensionOpcode_lawful ..
  | reservedOpcode => exact execReservedOpcode_lawful ..
  | interruptEntry => exact execInterruptEntry_lawful ..
  | wdwEntry => exact execWdwEntry_lawful ..
  | paceEntry => exact execPaceEntry_lawful ..
  | csRepairDone => exact execCsRepairDone_lawful ..
  | microTrap => exact execMicroTrap_lawful ..
  | cellStart => exact execCellStart_lawful ..
  | cellPause => exact execCellPause_lawful ..
  | cellResume => exact execCellResume_lawful ..
  | cellStop => exact execCellStop_lawful ..
  | cellResetCmd => exact execCellResetCmd_lawful ..
  | cellUnload => exact execCellUnload_lawful ..
  | cellProfileWrite | shRouteWrite | imgLoad | shareScopeWrite | windowWrite | hsSrcWrite | fenceWrite | capRecordWrite
  | lkRetrainWrite | swElectWrite | hdEnWrite | dbgDropWrite | modeReqReady | modeReqServe | modeReqRetain | modeReqDiag
  | pdEnWrite | gpOwnerWrite => exact dictPut_lawful
  | wake => exact execWake_lawful ..
  | sleepAlarm => exact execSleepAlarm_lawful ..
  | sysResetWrite | icPendsetWrite | icEoiWrite | mapWindowWrite | mapKeyWrite | blitStart | blitCancel | fgStart | fgCancel
  | ckStart | ckFinish | ckAbort | tgStartTimers | tgStopTimers | timerCaptureCmd | timerCmpWrite | wdKickWrite | wdKeyWrite
  | wdCtlWrite | wdConfigWrite | vcFifoPush | vcFlush => exact coreWrite_lawful ..
  | lockedSeqExpire => exact onStarted_lawful (.next (h.modCell _ (Cell.expireLocked_mem _)))
  | resetCauseRead | paceOvrCntRead | lsMisscntRead | sprStatRead | wgStatRead | palDataRead | wbStatRead | timerCapRead
  | timerCntRead => exact coreReadAt_lawful ..
  | intSourceEdge => exact onStarted_lawful (.next (h.edge ..))
  | sharedSourceEvent => exact .next (.orSame (h.fireShared ..))
  | imgLoadDone => exact execImgLoadDone_lawful ..
  | pageMoveStart => exact .next (.orSame (h.startMove ..))
  | pageRedirect => exact execPageRedirect_lawful ..
  | pageShareCompare => exact .next (.orSame (h.sharePages ..))
  | slotRelease => exact onLive_lawful (.next (h.releaseSlot ..))
  | slotStart => exact execSlotStart_lawful ..
  | slotFetchArrive => exact execSlotFetchArrive_lawful ..
  | slotComplete => exact execSlotComplete_lawful ..
  | slotMiss => exact execSlotMiss_lawful ..
  | prefillRelease => exact execPrefillRelease_lawful ..
  | prefillEnd => exact execPrefillEnd_lawful ..
  | wgEnd | wgWait | wgWr8 | wgWr16 | wgPal | wgTbl | wgRepl | wgEndr | wgIrq | wgNop | wgJmp => exact wgInstr_lawful ..
  | palDataWrite => exact onStarted_lawful (.next ((h.atPixel ..).ioWriteAs ..))
  | flipSealWrite | sealWrite => exact .next (.orSame (h.modHead ..))
  | blitOpBegin => exact execBlitOpBegin_lawful ..
  | blitBurstDone => exact execBlitBurstDone_lawful ..
  | fgDescFetch => exact onStarted_lawful (.next (h.modCell _ (Cell.fgFetch_mem ..)))
  | fgBeat => exact execFgBeat_lawful ..
  | ckResultReady => exact onStarted_lawful (.next (h.modCell _ (Cell.ckReady_mem _)))
  | timerCount => exact execTimerCount_lawful ..
  | wdTick => exact onLive_lawful (.next (h.modCell _ (Cell.wdTick_mem _)))
  | wdWarnReached => exact onLive_lawful (.next (.orSame (h.modCell _ rfl)))
  | wdExpire => exact execWdExpire_lawful ..
  | samplePoint => exact execSamplePoint_lawful ..
  | waveFetch => exact execWaveFetch_lawful ..
  | masterClockLoss | masterClockReturn => exact .next (.orSame (h.setAudClk ..))
  | bridgeLock => exact execBridgeLock_lawful ..
  | gainWrite => exact execGainWrite_lawful ..
  | gainStepTimeout => exact execGainStepTimeout_lawful ..
  | jackInsert => exact .next (.orSame (h.modPort ..))
  | jackTyped => exact .next (.orSame (h.jackTyped ..))
  | jackRemove => exact execJackRemove_lawful ..
  | buttonSample => exact .next (.orSame (h.buttonRead ..))
  | audioPacket => exact execAudioPacket_lawful ..
  | keeperCoreDecision => exact onLive_lawful (.next (.orSame (h.modKp ..)))
  | keeperPageDecision => exact execKeeperPageDecision_lawful ..
  | keeperRundevDecision => exact onLive_lawful (.next (.orSame (h.startMigration ..)))
  | coreMoveDone => exact execCoreMoveDone_lawful ..
  | linkSignal => exact execLinkSignal_lawful ..
  | linkTrainRateDone => exact execLinkTrainRateDone_lawful ..
  | linkRetryTimeout => exact execLinkRetryTimeout_lawful ..
  | jajanHello => exact execJajanHello_lawful ..
  | jajanCtrl => exact receive_lawful _ _ fun _ _ k => k.modLinkL ..
  | jajanNak => exact receive_lawful _ _ fun _ _ k => k.resend ..
  | jajanBeam => exact execJajanBeam_lawful ..
  | jajanSlice => exact execJajanSlice_lawful ..
  | jajanAudio => exact execJajanAudio_lawful ..
  | jajanEvent => exact execJajanEvent_lawful ..
  | jajanCellio => exact execJajanCellio_lawful ..
  | jajanDict => exact execJajanDict_lawful ..
  | jajanPage => exact execJajanPage_lawful ..
  | jajanState => exact execJajanState_lawful ..
  | migcStart => exact execMigcStart_lawful ..
  | migcReady => exact execMigcReady_lawful ..
  | migcGo => exact execMigcGo_lawful ..
  | migcAck => exact execMigcAck_lawful ..
  | migcCancel => exact execMigcCancel_lawful ..
  | replayTimeout => exact execReplayTimeout_lawful ..
  | idleCtrlTimer => exact execIdleCtrlTimer_lawful ..
  | delayMeasure => exact .next (.orSame (h.modLinkL ..))
  | masterLost => exact .next (.orSame h.elect)
  | precopyPassDone => exact onLive_lawful (.next (.orSame (h.nextPass _)))
  | switchWindowOpen => exact onLive_lawful (.next (.orSame (h.openWindow _)))
  | vfFlr => exact onCell_lawful (.next (.orSame (h.vfReset _)))
  | pf0Flr => exact execPf0Flr_lawful ..
  | queueCtlWrite => exact execQueueCtlWrite_lawful ..
  | queueHeadWrite => exact onQueue_lawful (.next (.orSame (h.modQueue ..)))
  | queuePop => exact onQueue_lawful (.next (.orSame (h.popWord _)))
  | queueWindowWrite => exact execQueueWindowWrite_lawful ..
  | queueDrop => exact execQueueDrop_lawful ..
  | packetDeliver => exact onQueue_lawful (.next (.orSame (h.deliverPacket _)))
  | queueStall => exact onQueue_lawful (.next (.orSame (h.stallQueue _)))
  | commandPacketTake => exact execCommandPacketTake_lawful ..
  | hostMailboxWrite => exact execHostMailboxWrite_lawful ..
  | headLineStart => exact .next (.orSame (h.headLineStart ..))
  | overlayRowArrive => exact .next (.orSame (h.rowArrive ..))
  | hotplug => exact execHotplug_lawful ..
  | headTrainDone => exact .next (.orSame (h.headTrained ..))
  | headTrainRetry => exact .next (.orSame (h.trainHead ..))
  | dictOpen | dictClose | dictRead | dictWrite | dictKeep => exact dictMessage_lawful ..
  | sessionIdleTimeout => exact execSessionIdleTimeout_lawful ..
  | mbxGo => exact execMbxGo_lawful ..
  | t1sFrame => exact execT1sFrame_lawful ..
  | t1sAppRxRead | canAppRxRead | jrBlockRead | dbgChalRead | dbgDataRead | dbgVtOutRead => exact dictReadOne_lawful
  | canFrame => exact execCanFrame_lawful ..
  | canSegTimeout => exact .next (.orSame (h.setCan ..))
  | dbgRespWrite | dbgDataWrite | dbgVtInWrite => exact dictWriteOne_lawful
  | challengeExpire => exact .next (h.modMc rfl rfl)
  | dbgLockoutEnd => exact .next (.mk h rfl rfl)
  | dbgHalt => exact execDbgHalt_lawful ..
  | dbgStep => exact execDbgStep_lawful ..
  | dbgResume => exact execDbgResume_lawful ..
  | vtHostRxRead => exact onCell_lawful (.next (.orSame (h.vtHostRead _)))
  | vtHostTxWrite => exact onCell_lawful (.next (.orSame (h.vtHostWrite ..)))
  | powerOn => exact .next h.aonUp
  | railsGood => exact execRailsGood_lawful ..
  | fusesRead => exact execFusesRead_lawful ..
  | bootImageDone => exact .next (.orSame (h.bootRead ..))
  | bootGo => exact .next (.orSame (h.modPwr ..))
  | trainDone => exact execTrainDone_lawful ..
  | drainComplete => exact .next (.orSame h.drainDone)
  | throttleStep => exact .next (.orSame (h.throttlePair ..))
  | pdDrainEnd => exact .next (h.drainEnd ..)
  | pdRampDownEnd => exact .next (h.rampDownEnd ..)
  | pdRampUpEnd => exact .next (.orSame (h.domOnNow ..))
  | wakeNLow | fieldWakeFrame => exact .next (h.wake ..)
  | padWakeEdge | wakeWordWrite | wakeTimeAlarm => exact .next (.orSame (h.wake ..))
  | resetNLow => exact .next (h.deviceReset ..)
  | devResetWrite => exact execDevResetWrite_lawful ..
  | mcWdogExpire => exact .next (.orSame (h.faultHold ..))
  | fhAutoReset => exact .next (.orSame (h.deviceReset ..))
  | thermalTrip => exact execThermalTrip_lawful ..
  | converterFrame => exact .next (.orSame (h.convFrame ..))
  | rldRefresh | rldDriftTrack => exact .next (.orSame (h.modChan ..))
  | patrolScrub => exact .next (.orSame (h.scrub ..))
  | pinFilterSettle => exact .next (.orSame (h.pinSettle ..))
  | bankVoltageChange => exact execBankVoltageChange_lawful ..
  | suppliesRemoved => exact .next h.aonDown
  | hostLinkChange => exact execHostLinkChange_lawful ..
  | vfEnableWrite => exact execVfEnableWrite_lawful ..
  | linkUncorrectableCodewords => exact .next (.orSame (h.retrain ..).linksChanged)
  | audioFamilySample => exact .next (.orSame (h.familySample ..))
  | switchDeadline => exact onLive_lawful (.next (.orSame ((h.sendMigc ..).cancelSwitch _)))
  | writebackWriteDone => exact execWritebackWriteDone_lawful ..
  | channelTrainDone => exact .next (.orSame (h.chanTrained ..))
  | canControllerStateChange => exact execCanControllerStateChange_lawful ..
  | thermalTripRelease => exact .next (h.modPwr ..)
  | tapClockEdge => exact execTapClockEdge_lawful ..
  -- IN, the one command left: its constructor's name is a keyword of Lean.
  | _ => exact runInstr_lawful _ s (bodyIn_kept ..)

theorem State.Lawful.kept {s t : State} (l : s.Lawful (.next t)) : s.Kept t := by
  cases l
  assumption

/-- A lawful answer is no fault, and a refusal has one of the two names. -/
theorem State.Lawful.stops {s : State} {k : Res} (l : s.Lawful k) :
    (∀ f, k ≠ .fault f) ∧ ∀ r, k = .refused r → r = .absentUnit ∨ r = .vendorMicrocode := by
  cases l with
  | next h => simp
  | absent => simp
  | vendor => simp

/-- A step answers as its front command does on the rest of the queue. -/
theorem step_lawful (s : State) : ∃ u : State, u.Lawful (step s) := by
  rcases hp : s.pending with _ | ⟨i, r⟩
  · rw [step_nil hp]
    exact ⟨s, .next (State.Kept.refl s).idle⟩
  · rw [step_cons hp]
    exact ⟨_, exec_lawful _ i⟩

/-! ## The machine as a whole -/

/-- Settles O57: every command keeps the queue that it finds and the part, so a step only takes the front (`step_of_kept`). -/
theorem queueFirstInFirstOut : Obligations.QueueFirstInFirstOut := by
  intro s t e
  obtain ⟨hp, hq, _⟩ := step_of_kept (fun i u _ h => (h ▸ exec_lawful u i).kept) e
  exact ⟨hp, hq⟩

/-- Settles O58: a step answers lawfully, and a lawful answer is a next state or one of two refusals. -/
theorem stopsAreNamed : Obligations.StopsAreNamed := fun s =>
  have ⟨_, l⟩ := step_lawful s
  l.stops

/-- Settles O53: each of these commands stands under `onCell`, which refuses a cell that the part lacks. -/
theorem absentCells : Obligations.AbsentCells := by
  intro s c k n v h
  simp only [List.forall_mem_cons, List.not_mem_nil, false_implies, implies_true, and_true]
  have absent (r : Res) : onCell c s r = .refused .absentUnit := onCell_absent h r
  exact ⟨absent _, absent _, absent _, absent _, absent _, absent _, absent _, absent _, absent _, absent _, absent _⟩

/-! ## A read of VT_RX (R11) -/

section VtRx

variable (s : State) (c : CellNo)

theorem onStarted_runs {s : State} {c : CellNo} (h : s.startedCell c = true) (k : Res) : onStarted c s k = k := by
  simp only [State.startedCell, State.liveCell, Bool.and_eq_true] at h
  obtain ⟨⟨hp, hr⟩, hs⟩ := h
  rw [onStarted, onLive_runs hp hr, if_pos hs]

/-- VT_RX is in the I/O space of every profile. -/
theorem ioMapped_vtRx (prof : Byte) : ioMapped prof 0x03C1 = true := by
  have ha : isAffine 0x03C1 = false := by decide
  have hr : inRanges ioRanges 0x03C1 = true := by decide
  simp [ioMapped, ha, hr]

theorem captureGroup_vtRx : captureGroup 0x03C1 = none := by decide

theorem viewIo_vtRx : s.viewIo c 0x03C1 = (s.cell c).dbg.vtRx.headD 0 := rfl

theorem readEffect_vtRx (x : Cell) : x.readEffect 0x03C1 = x.vtPop := rfl

theorem ioRead_vtRx (ag : Agent) :
    s.ioRead c ag 0x03C1 = (s.setCell c (s.cell c).vtPop, (s.cell c).dbg.vtRx.headD 0) := by
  have hu : (s.cell c).ioUnmapped 0x03C1 = false := by simp [Cell.ioUnmapped, ioMapped_vtRx]
  have hd : s.ioDark 0x03C1 = false := by simp [State.ioDark]
  simp [State.ioRead, hu, hd, captureGroup_vtRx, viewIo_vtRx, readEffect_vtRx]

/-- A core's read of VT_RX changes its own cell only: the terminal's queue and the byte read. -/
theorem coreRead_vtRx : s.coreRead c 0x03C1 =
    s.setCell c { (s.cell c).vtPop with ctl := { (s.cell c).ctl with rd := (s.cell c).dbg.vtRx.headD 0 } } := by
  simp [State.coreRead, ioRead_vtRx, Cell.vtPop]

end VtRx

/-- Settles O49: the read answers the head of the queue, 00h when there is none, and takes only the head. -/
theorem emptyPopRead : Obligations.EmptyPopRead := by
  intro s c hs he
  refine ⟨s.coreRead c 0x03C1, onStarted_runs hs _, ?_⟩
  rw [coreRead_vtRx]
  exact ⟨State.onlyCell_setCell .., by simp [he], by simp [he, Cell.vtPop], by simp [State.core, Cell.vtPop]⟩

/-! ## A refused access (R14) -/

/-- The objects, the cells, the journal and the outcome of the last item stand: what the answer to a request leaves. -/
structure State.Answered (s t : State) : Prop where
  objs : t.objs = s.objs
  cells : t.cells = s.cells
  journal : t.mc.journal = s.mc.journal
  jrSeq : t.mc.jrSeq = s.mc.jrSeq
  result : t.mc.result = s.mc.result
  value : t.mc.value = s.mc.value

/-- What a refused write leaves: the objects and the cells stand, and the newest journal entry is still held. -/
structure State.Unwritten (s t : State) : Prop where
  objs : t.objs = s.objs
  cells : t.cells = s.cells
  jrSeq : s.mc.jrSeq ≤ t.mc.jrSeq
  newest : ∀ e, s.mc.journal.head? = some e → e ∈ t.mc.journal

section Refusals

variable {s t u : State} {q : Session} {o : Obj} {code : Byte}

theorem State.Unwritten.refl (s : State) : s.Unwritten s := ⟨rfl, rfl, Nat.le_refl _, fun _ => List.mem_of_mem_head?⟩

theorem State.Unwritten.of_eq (ho : t.objs = s.objs) (hc : t.cells = s.cells) (hj : t.mc.journal = s.mc.journal)
    (hn : t.mc.jrSeq = s.mc.jrSeq) : s.Unwritten t :=
  ⟨ho, hc, Nat.le_of_eq hn.symm, fun _ h => hj ▸ List.mem_of_mem_head? h⟩

/-- One more entry leaves the one before it in the ring of 8,192. -/
theorem State.Unwritten.event (ho : t.objs = s.objs) (hc : t.cells = s.cells) (hj : t.mc.journal = s.mc.journal)
    (hn : t.mc.jrSeq = s.mc.jrSeq) (code sub : Nat) (old new : Long) : s.Unwritten (t.event code sub old new) where
  objs := ho
  cells := hc
  jrSeq := by
    show s.mc.jrSeq ≤ t.mc.jrSeq + 1
    omega
  newest e h := by
    obtain ⟨r, hr⟩ := List.head?_eq_some_iff.mp h
    simp [State.event, State.journal, hj, hr]

theorem State.badResp_unwritten (s : State) : s.Unwritten s.badResp := by
  unfold State.badResp
  dsimp only
  split
  · exact .event (by simp) (by simp) (by simp) (by simp) ..
  · exact .of_eq rfl rfl rfl rfl

theorem State.respEffect_unwritten (c : CellNo) (h : code ≠ 0) : s.Unwritten (s.respEffect q c code) := by
  have hm := (s.modSession q fun q => { q with challenges := [] }).badResp_unwritten
  simp only [State.respEffect, if_neg h]
  split
  · exact ⟨hm.objs, hm.cells, hm.jrSeq, hm.newest⟩
  · exact .of_eq rfl rfl rfl rfl

/-- The effect of a write that is refused: the object stands, and only a DBG_RESP write counts anything. -/
theorem State.writeEffect_unwritten (bytes : List Byte) (h : code ≠ 0) : s.Unwritten (s.writeEffect q o bytes code) := by
  simp only [State.writeEffect, if_pos h]
  split
  · split
    · exact respEffect_unwritten _ h
    · exact .refl s
  · exact .refl s

theorem State.again_eq (h : s.mc.sessions.find? (fun k => k.same q) = some q) : s.again q = q := by
  simp [State.again, h]

theorem State.journalFor_own (e : JEntry) (h : q.transport ≠ 6) : s.journalFor q e = s.journal e := if_neg h

/-- A write that is refused here makes its journal entry and changes no object. -/
theorem State.writeItem_refused {i : Item} (hq : s.mc.sessions.find? (fun k => k.same q) = some q) (ht : q.transport ≠ 6)
    (ho : s.findObj i.idx i.sub = some o) (ha : s.awayAt o = none) (hs : isSelector o.base o.sub = false)
    (hc : s.writeCode q o i.ty i.bytes false = code) (h0 : code ≠ 0) :
    (s.writeItem q i.idx i.sub i.ty i.bytes false).2 = code ∧
      (s.journal (s.writeEntry q i.idx i.sub (some o) i.ty i.bytes code)).Unwritten
        (s.writeItem q i.idx i.sub i.ty i.bytes false).1 := by
  simp only [State.writeItem, again_eq hq, ho, ha, hs, hc, journalFor_own _ ht]
  exact ⟨trivial, writeEffect_unwritten _ h0⟩

/-- A read that is refused here changes nothing and has no value. -/
theorem State.readItem_refused {idx sub : Nat} (room : Nat) (hq : s.mc.sessions.find? (fun k => k.same q) = some q)
    (ho : s.findObj idx sub = some o) (ha : s.awayAt o = none) (hc : s.readCode q o = code) (h0 : code ≠ 0) :
    s.readItem q idx sub room = (s, code, o.row.ty, []) := by
  simp only [State.readItem, again_eq hq, ho, ha, hc, if_pos h0]

end Refusals

/-! ## A message of one item that reaches its session (R441 to R446) -/

section Messages

variable {s t : State} {q : Session} {o : Origin} {l : List Byte} {i : Item}

theorem State.keep_answered (q : Session) (l rsp : List Byte) : s.Answered (s.keep q l rsp) := ⟨rfl, rfl, rfl, rfl, rfl, rfl⟩

theorem State.canSend_answered (k : Fin 2) (fd : Bool) (node : Byte) (rsp : List Byte) : s.Answered (s.canSend k fd node rsp) :=
  ⟨rfl, rfl, rfl, rfl, rfl, rfl⟩

theorem State.Answered.trans {u : State} (h : s.Answered t) (k : t.Answered u) : s.Answered u :=
  ⟨k.objs.trans h.objs, k.cells.trans h.cells, k.journal.trans h.journal, k.jrSeq.trans h.jrSeq, k.result.trans h.result,
    k.value.trans h.value⟩

theorem State.sessionOn_transport {n : Fin 7} {k : Half} (h : s.sessionOn n k = some q) : q.transport = n := by
  have := List.find?_some h
  simp only [Bool.and_eq_true, beq_iff_eq] at this
  exact this.1.2

/-- Serving such a message runs its items and keeps the response. -/
theorem State.serveClient_items {op : Nat} (h : s.canMessage o q op l) (hop : op = 3 ∨ op = 4) :
    ∃ r rsp, s.serveClient 4 o.node 0 l true 3968 = (((s.execItems q (msgHead l) l 3968).1).keep q l rsp, r) := by
  obtain ⟨hd, _, hl, hv, hh, hb, hq, hn, hf, _⟩ := h
  have h1 : (msgHead l).op ≠ 1 := by omega
  have h2 : (msgHead l).op ≠ 2 := by omega
  have h5 : (msgHead l).op ≠ 5 := by omega
  have h4 : ¬ (4 : Fin 7) = 3 := by decide
  have hfull : (!s.dictServed || decide (l.length < 12) || l.getD 0 0 != 1) = false := by
    simp only [hd, hv, Bool.not_true, bne_self_eq_false, Bool.or_false, Bool.false_or, decide_eq_false_iff_not]
    omega
  simp only [State.serveClient, hfull, h1, h2, h5, h4, hq, hn, hb, State.execItems, hf]
  exact ⟨_, _, rfl⟩

/-- The command runs the items of the message, and the answer leaves the rest. -/
theorem dictMessage_items {op : Nat} (h : s.canMessage o q op l) (hop : op = 3 ∨ op = 4) :
    ∃ t, (∀ mac, dictMessage o op mac l s = .next t) ∧ ((s.execItems q (msgHead l) l 3968).1).Answered t := by
  obtain ⟨r, rsp, e⟩ := State.serveClient_items h hop
  obtain ⟨hd, ht, _, _, hh, _⟩ := h
  have hk := State.keep_answered (s := (s.execItems q (msgHead l) l 3968).1) q l rsp
  simp only [dictMessage, hd, hh, ht, e, Bool.not_true, bne_self_eq_false, Bool.or_false]
  cases r with
  | none => exact ⟨_, fun _ => rfl, hk⟩
  | some b => exact ⟨_, fun _ => rfl, hk.trans (State.canSend_answered ..)⟩

theorem State.execItems_write (h : s.canMessage o q 4 l) (hi : msgItems (msgHead l) l = [i]) :
    (s.execItems q (msgHead l) l 3968).1 =
      (s.writeItem q i.idx i.sub i.ty i.bytes false).1.modMc fun m =>
        { m with result := (s.writeItem q i.idx i.sub i.ty i.bytes false).2, value := [] } := by
  obtain ⟨_, _, _, _, hh, _, _, _, hf, _⟩ := h
  simp [State.execItems, hf, hh, hi, State.writeItems]

theorem State.execItems_read (h : s.canMessage o q 3 l) (hi : msgItems (msgHead l) l = [i]) :
    ∃ room, (s.execItems q (msgHead l) l 3968).1 =
      (s.readItem q i.idx i.sub room).1.modMc fun m =>
        { m with result := (s.readItem q i.idx i.sub room).2.1, value := (s.readItem q i.idx i.sub room).2.2.2 } := by
  obtain ⟨_, _, _, _, hh, _, _, _, hf, _⟩ := h
  simp only [State.execItems, hf, hh, hi, State.readItems]
  exact ⟨_, rfl⟩

end Messages

/-- Settles O51: the message runs its one item, whose refusal leaves every object; a write has made its entry by then. -/
theorem refusedAccess : Obligations.RefusedAccess := by
  intro s o q l i b code h0 hi ho ha
  refine ⟨fun hm hs hc => ?_, fun hm hc => ?_⟩
  · obtain ⟨t, e, k⟩ := dictMessage_items hm (.inr rfl)
    rw [State.execItems_write hm hi] at k
    obtain ⟨_, _, _, _, _, _, hq, _, _, hf⟩ := hm
    have ht : q.transport ≠ 6 := by simp [State.sessionOn_transport hq]
    obtain ⟨hr, w⟩ := State.writeItem_refused hf ht ho ha hs hc h0
    refine ⟨t, e _, k.result.trans hr, k.objs.trans w.objs, k.cells.trans w.cells, ?_, ?_⟩
    · rw [k.jrSeq]
      exact w.jrSeq
    · rw [k.journal]
      exact ⟨_, w.newest _ (s.journal_newest _), rfl, rfl, rfl, rfl, rfl⟩
  · obtain ⟨t, e, k⟩ := dictMessage_items hm (.inl rfl)
    obtain ⟨room, hx⟩ := State.execItems_read hm hi
    obtain ⟨_, _, _, _, _, _, _, _, _, hf⟩ := hm
    rw [hx, State.readItem_refused room hf ho ha hc h0] at k
    exact ⟨t, e _, k.result, k.value, k.objs, k.cells, k.journal⟩

end Sys2Proof.Machine
end

section
/-! PROOFS for spec/01_the_hive.md: what a step does, with a command waiting and with none (O1). -/

namespace Sys2Proof.Machine

/-! ## Device time of an idle step (R28, assumption 2) -/

section Idle

variable {s : State}

theorem State.idle_of_off (h : s.pwr.mode = .off) : s.idle = s := if_pos h

theorem State.idle_of_crystal (hm : s.pwr.mode ≠ .off) (hx : s.pwr.crystalOff = false) :
    s.idle = { s with devTime := s.devTime + 40 } := by
  simp [State.idle, hm, hx]

end Idle

/-- Settles O1: the queue's front decides the step, and with none the power mode and the crystal decide the idle step. -/
theorem stepRunsFront : Obligations.StepRunsFront := by
  refine ⟨fun s i r h => step_cons h, fun s h => ⟨fun hm => ?_, fun hm hx => ?_⟩⟩
  · rw [step_nil h, State.idle_of_off hm]
  · rw [step_nil h, State.idle_of_crystal hm hx]

end Sys2Proof.Machine
end

section
/-! PROOFS for spec/02_beam.md: house frames and sync pulses (O14), lines and frames of a cell's beams (O15), and the commands
of a cell's life (O17). -/

namespace Sys2Proof.Machine

/-! ## Folds -/

/-- A fold of steps that keep `g` keeps it. -/
theorem foldl_keeps {σ α β : Type} (g : σ → β) {f : σ → α → σ} (hf : ∀ u a, g (f u a) = g u) (l : List α) (u : σ) :
    g (l.foldl f u) = g u :=
  List.foldlRecOn (motive := fun v => g v = g u) l f rfl fun v h a _ => (hf v a).trans h

/-! ## Operations that leave the house beam alone -/

section House

variable (s : State)

@[simp] theorem State.msi_house (fn vec : Nat) : (s.msi fn vec).house = s.house := rfl

@[simp] theorem State.sendTo_house (d : BitVec 3) (kind : Nat) (last : Bool) (tag : Word) (p : List Byte) :
    (s.sendTo d kind last tag p).house = s.house := by
  unfold State.sendTo
  split <;> rfl

@[simp] theorem State.shInput_house (c : CellNo) (input : Nat) : (s.shInput c input).house = s.house := rfl

@[simp] theorem State.shToCell_house (n : Fin 153) (d : BitVec 3) (c : CellNo) (input : Nat) :
    (s.shToCell n d c input).house = s.house := by
  unfold State.shToCell
  dsimp only
  repeat' split
  all_goals simp

@[simp] theorem State.fireShared_house (n : Fin 153) : (s.fireShared n).house = s.house := by
  unfold State.fireShared
  dsimp only
  split
  · rfl
  · simp
  · split <;> simp
  · simp

@[simp] theorem State.scoutStep_house (kind u : Nat) (e g : Bool) : (s.scoutStep kind u e g).house = s.house := by
  unfold State.scoutStep
  extract_lets k n₀ n t
  split
  · rfl
  · exact t.raiseEvent_house ..

@[simp] theorem State.scoutRead_house (r : ScoutRead) : (s.scoutRead r).house = s.house := by
  simp only [State.scoutRead, State.scoutStep_house]
  repeat' split
  all_goals rfl

@[simp] theorem State.combScouts_house : s.combScouts.house = s.house :=
  foldl_keeps State.house (fun u k => by simp) _ s

@[simp] theorem State.keeperFrame_house : s.keeperFrame.house = s.house := rfl

@[simp] theorem State.sendBeam_house : s.sendBeam.house = s.house := by
  unfold State.sendBeam
  split
  · exact foldl_keeps State.house (fun u l => by split <;> rfl) _ s
  · rfl

@[simp] theorem State.swapTable_house : s.swapTable.house = s.house := by
  unfold State.swapTable
  split
  · rfl
  · refine foldl_keeps State.house (fun u c => ?_) _ _
    dsimp only
    repeat' split
    all_goals rfl

@[simp] theorem State.assignSlot_house (a : SlotAssign) : (s.assignSlot a).house = s.house := by
  unfold State.assignSlot
  dsimp only
  repeat' split
  all_goals rfl

@[simp] theorem State.planSlots_house (l : List SlotAssign) : (s.planSlots l).house = s.house := by
  have h : (l.foldl State.assignSlot s).house = s.house := foldl_keeps State.house State.assignSlot_house l s
  unfold State.planSlots
  extract_lets t
  split
  · exact (State.raise_house ..).trans h
  · exact h

@[simp] theorem State.soloCheck_house : s.soloCheck.house = s.house :=
  foldl_keeps State.house (fun u r => by split <;> simp) _ s

@[simp] theorem State.fenceUnit_house (q : Nat × Nat) : (s.fenceUnit q).house = s.house := by
  unfold State.fenceUnit
  dsimp only
  split <;> simp

@[simp] theorem State.fenceCheck_house : s.fenceCheck.house = s.house := foldl_keeps State.house State.fenceUnit_house _ s

/-! ## The house beam's own operations (R33 to R40) -/

variable {s}

/-- With no written source due, none is taken (R38). -/
theorem State.takeSource_of_not_due (h : s.house.srcDue = false) : s.takeSource = s := by
  simp [State.takeSource, h]

/-- A new rate changes the length of house frames and the cells' pixel clocks. -/
theorem State.takeRate_eq (s : State) :
    ∃ r n x, s.takeRate = { s with house := { s.house with rate := r, frameClks := n }, cells := x } := by
  unfold State.takeRate
  dsimp only
  split <;> exact ⟨_, _, _, rfl⟩

/-- Without a swarm master the house frame count rises by one (R36, R386). -/
theorem State.countFrame_house (h : s.followsSwarm = false) :
    s.countFrame.house = { s.house with frame := s.house.frame + 1 } := by
  simp only [State.countFrame, h, Bool.false_and, Bool.false_eq_true, if_false, State.modSwarm_house, State.modHouse_house]
  cases s.swarm.masterFrame <;> rfl

/-- The frame start leaves the beam that the rate and the count have set, with its next length. -/
theorem State.houseFrame_house (slots : List SlotAssign) (scouts : List ScoutRead) :
    (s.houseFrame slots scouts).house = ((s.combBusy.takeSource).takeRate).countFrame.house.startFrame := by
  have h (u : State) : (scouts.foldl State.scoutRead u).house = u.house := foldl_keeps State.house State.scoutRead_house _ u
  simp only [State.houseFrame, State.fenceCheck_house, State.soloCheck_house, State.planSlots_house, State.combScouts_house, h,
    State.keeperFrame_house, State.swapTable_house, State.sendBeam_house, State.modHouse_house]

theorem State.houseFrame_counts (slots : List SlotAssign) (scouts : List ScoutRead) (hs : s.house.srcDue = false)
    (hf : s.followsSwarm = false) :
    (s.houseFrame slots scouts).house.frame = s.house.frame + 1 ∧ (s.houseFrame slots scouts).house.lock = s.house.lock := by
  obtain ⟨r, n, x, e⟩ := s.combBusy.takeRate_eq
  have hc : s.combBusy.takeRate.followsSwarm = false := by rw [e]; exact hf
  rw [State.houseFrame_house, State.takeSource_of_not_due (s := s.combBusy) hs, State.countFrame_house hc, e]
  exact ⟨rfl, rfl⟩

/-- The house beam after a change of the lock state (R38); the phase error and the frames stand. -/
def HouseBeam.relocked (h : HouseBeam) (l : LockState) : HouseBeam :=
  { h with
    lock := l, goodRun := 0, rateRun := 0, phaseRun := 0, missRun := 0, validRun := 0, holdFrames := 0
    wasLocked := h.wasLocked || l == .locked
    freqOfs := if l == .free then 0 else h.freqOfs
    jumpDue := h.jumpDue && l == .acquiring }

theorem State.setLock_house {l : LockState} (h : s.house.lock ≠ l) : (s.setLock l).house = s.house.relocked l := by
  unfold State.setLock
  rw [if_neg h]
  cases l <;> simp [HouseBeam.relocked]

end House

/-! ## Sync pulses (R38, R40) -/

section Pulses

variable {s : State} {m : PulseMeas}

/-- A frame pulse outside its window, or the second of one, is only counted (R40). -/
theorem State.beamPulse_ignored (h : inWindow s.house.frameClks 1 m.ofs = false ∨ s.house.pulseSeen = true) :
    s.beamPulse m = s.glitch := by
  rcases h with h | h <;> simp [State.beamPulse, h]

theorem State.beamPulse_valid (hw : inWindow s.house.frameClks 1 m.ofs = true) (hp : s.house.pulseSeen = false) :
    s.beamPulse m = s.validPulse m := by
  simp [State.beamPulse, hw, hp]

/-- A valid pulse in FREE: the fourth in a row starts ACQUIRING, and the ones before it count (R38). -/
theorem State.validPulse_free (h : s.house.lock = .free) :
    (s.validPulse m).house.pulseSeen = true ∧
    (s.house.validRun < 3 → (s.validPulse m).house.lock = .free ∧ (s.validPulse m).house.validRun = s.house.validRun + 1) ∧
    (3 ≤ s.house.validRun → (s.validPulse m).house.lock = .acquiring) := by
  by_cases hr : 3 ≤ s.house.validRun
  · simp [State.validPulse, h, hr, State.setLock_house, HouseBeam.relocked]
  · simp [State.validPulse, h, hr]

/-- A line pulse outside its window is only counted (R40). -/
theorem State.linePulse_ignored {win : Nat} {ofs err : Int}
    (h : inWindow s.house.frameClks (s.objOr 0x2100 4 1125) ofs = false) : s.linePulse win ofs err = s.glitch := by
  simp [State.linePulse, h]

theorem State.linePulse_valid {win : Nat} {ofs err : Int}
    (h : inWindow s.house.frameClks (s.objOr 0x2100 4 1125) ofs = true) (hw : s.house.lineWin ≠ some win) :
    s.linePulse win ofs err = s.modHouse fun h => { h with lineWin := some win, phaseErr := BitVec.ofInt 32 err } := by
  simp [State.linePulse, h, hw]

theorem State.windowEnd_seen (h : s.house.pulseSeen = true) :
    s.windowEnd = s.modHouse fun h => { h with pulseSeen := false } := by
  simp [State.windowEnd, h]

/-- The first window without a valid pulse counts, the second one leaves LOCKED (R38). -/
theorem State.windowEnd_locked (hp : s.house.pulseSeen = false) (hl : s.house.lock = .locked) :
    (s.house.missRun = 0 → s.windowEnd.house.lock = .locked ∧ s.windowEnd.house.missRun = 1) ∧
    (1 ≤ s.house.missRun → s.windowEnd.house.lock = .holdover) := by
  refine ⟨fun h => ?_, fun h => ?_⟩
  · simp [State.windowEnd, hp, hl, h]
  · have hm : ¬ s.house.missRun + 1 < 2 := by omega
    simp only [State.windowEnd, hp, Bool.false_eq_true, if_false, State.modHouse_house, hl, hm]
    rw [State.setLock_house (by simp [hl])]
    rfl

end Pulses

/-! ## The commands of the house beam -/

section HouseCommands

variable {s : State}

theorem execHouseFrameStart_runs (h : s.pwr.mode.beamRuns = true) (slots : List SlotAssign) (scouts : List ScoutRead) :
    execHouseFrameStart slots scouts s = .next (s.houseFrame slots scouts) :=
  congrArg Host.Outcome.next (if_pos h)

theorem execFramePulse_runs (h : s.pulsesDue = true) (ofs err rate disc : Int) :
    execFramePulse ofs err rate disc s = .next (s.beamPulse { ofs := ofs, err := err, rate := rate, disc := disc }) :=
  congrArg Host.Outcome.next (if_pos h)

theorem execLinePulse_runs (h : s.pulsesDue = true) (hl : s.objOr 0x2101 3 0 ≠ 0) (win : Nat) (ofs err : Int) :
    execLinePulse win ofs err s = .next (s.linePulse win ofs err) := by
  simp only [State.pulsesDue] at h
  simp [execLinePulse, h, hl]

theorem execSyncWindowExpire_runs (h : s.pulsesDue = true) : execSyncWindowExpire s = .next s.windowEnd := by
  simp only [State.pulsesDue, Bool.and_eq_true] at h
  obtain ⟨hr, hp⟩ := h
  simp [execSyncWindowExpire, hr, hp]

theorem execHoldoverExpire_runs (hs : s.house.src = 3) (hl : s.house.lock = .holdover) (hf : 64 ≤ s.house.holdFrames) :
    execHoldoverExpire s = .next (s.setLock .free) := by
  simp [execHoldoverExpire, hs, hl, hf]

end HouseCommands

/-- Settles O14: the frame start moves only the count, and each pulse command reduces to one operation of the house beam. -/
theorem houseBeamLock : Obligations.HouseBeamLock := by
  refine ⟨fun s l r hb hs hf => ⟨_, execHouseFrameStart_runs hb l r, State.houseFrame_counts l r hs hf⟩, ?_⟩
  intro s ofs err rate disc win h
  refine ⟨fun hd hw => ?_, fun hd hw hp hl => ?_, fun hd hx hw => ?_, fun hd hx hw hn => ?_, fun hd hp => ?_,
    fun hd hp hl => ?_, fun hs hl hf => ?_⟩
  · exact ⟨_, execFramePulse_runs hd ofs err rate disc, State.beamPulse_ignored hw⟩
  · refine ⟨_, execFramePulse_runs hd .., ?_⟩
    rw [State.beamPulse_valid (m := ⟨ofs, err, rate, disc⟩) hw hp]
    exact State.validPulse_free hl
  · exact ⟨_, execLinePulse_runs hd hx .., State.linePulse_ignored hw⟩
  · refine ⟨_, execLinePulse_runs hd hx .., ?_⟩
    rw [State.linePulse_valid hw hn]
    exact ⟨rfl, rfl, rfl⟩
  · exact ⟨_, execSyncWindowExpire_runs hd, State.windowEnd_seen hp⟩
  · exact ⟨_, execSyncWindowExpire_runs hd, State.windowEnd_locked hp hl⟩
  · have hn : s.house.lock ≠ .free := fun e => LockState.noConfusion (hl.symm.trans e)
    refine ⟨_, execHoldoverExpire_runs hs hl hf, ?_⟩
    simp only [State.setLock_house hn]
    exact ⟨rfl, rfl⟩

/-! ## Cell commands that run -/

theorem State.liveCell_runs {s : State} {c : CellNo} (h : s.liveCell c = true) (k : Res) : onLive c s k = k := by
  simp only [State.liveCell, Bool.and_eq_true] at h
  exact onLive_runs h.1 h.2 k

theorem State.beamCell_iff {s : State} {c : CellNo} :
    s.beamCell c = true ↔ s.liveCell c = true ∧ (s.cell c).beam.on = true ∧ (s.cell c).beam.waiting = false := by
  simp [State.beamCell, and_assoc]

/-! ## Timers change themselves and raise edges (R303, R308) -/

section Timers

/-- From `x` to `y` only the timers and the interrupt controller change. -/
def Cell.OnlyTm (x y : Cell) : Prop := ∃ t i, y = { x with tm := t, ic := i }

theorem Cell.OnlyTm.refl (x : Cell) : x.OnlyTm x := ⟨x.tm, x.ic, rfl⟩

theorem Cell.OnlyTm.trans {x y z : Cell} (h : x.OnlyTm y) (k : y.OnlyTm z) : x.OnlyTm z := by
  obtain ⟨t, i, rfl⟩ := h
  obtain ⟨t', i', rfl⟩ := k
  exact ⟨t', i', rfl⟩

theorem Cell.OnlyTm.ite {x y z : Cell} {p : Prop} [Decidable p] (h : x.OnlyTm y) (k : x.OnlyTm z) :
    x.OnlyTm (if p then y else z) := by
  split
  · exact h
  · exact k

theorem Cell.OnlyTm.foldl {α : Type} {f : Cell → α → Cell} (hf : ∀ y a, Cell.OnlyTm y (f y a)) (l : List α) (x : Cell) :
    x.OnlyTm (l.foldl f x) :=
  List.foldlRecOn (motive := x.OnlyTm) l f (.refl x) fun y h a _ => h.trans (hf y a)

theorem Cell.OnlyTm.beam {x y : Cell} (h : x.OnlyTm y) : y.beam = x.beam := by
  obtain ⟨_, _, rfl⟩ := h
  rfl

theorem Cell.OnlyTm.live8 {x y : Cell} (h : x.OnlyTm y) (a : Nat) : y.live8 a = x.live8 a := by
  obtain ⟨_, _, rfl⟩ := h
  rfl

variable (x : Cell) (n : Fin 4)

theorem Cell.edge_onlyTm (m : Nat) : x.OnlyTm (x.edge m) := ⟨_, _, rfl⟩

theorem Cell.modTm_onlyTm (f : Tm → Tm) : x.OnlyTm (x.modTm n f) := ⟨_, _, rfl⟩

theorem Cell.tmSet_onlyTm (v : Nat) : x.OnlyTm (x.tmSet n v) :=
  .ite ((x.modTm_onlyTm _ _).trans (Cell.modTm_onlyTm ..)) (x.modTm_onlyTm ..)

theorem Cell.tmRun_onlyTm (on : Bool) : x.OnlyTm (x.tmRun n on) :=
  .ite ((x.modTm_onlyTm _ _).trans (Cell.modTm_onlyTm ..)) (x.modTm_onlyTm ..)

theorem Cell.tmFlags_onlyTm (bits : Byte) (quiet : Bool) : x.OnlyTm (x.tmFlags n bits quiet) :=
  .ite ((x.modTm_onlyTm _ _).trans (Cell.edge_onlyTm ..)) (x.modTm_onlyTm ..)

theorem Cell.tmCount_onlyTm : x.OnlyTm (x.tmCount n).1 := by
  unfold Cell.tmCount
  extract_lets t v ovf w y
  have hy : (x.tmSet n w).OnlyTm y := Cell.modTm_onlyTm ..
  exact (x.tmSet_onlyTm n w).trans hy

theorem Cell.tmTake_onlyTm (acts : List (Fin 4 × Nat × Bool)) : x.OnlyTm (x.tmTake acts n) := by
  unfold Cell.tmTake
  extract_lets mine y z
  have hy : x.OnlyTm y := .ite (x.modTm_onlyTm ..) (.refl x)
  have hz : x.OnlyTm z := hy.trans (.ite ((y.tmSet_onlyTm n 0).trans (Cell.modTm_onlyTm ..)) (.refl y))
  exact .ite (hz.trans (z.tmRun_onlyTm ..)) (.ite (hz.trans (z.tmRun_onlyTm ..)) hz)

theorem Cell.tmCycle_onlyTm (who quiet : BitVec 4) : x.OnlyTm (x.tmCycle who quiet).1 := by
  have hc (l : List (Fin 4)) (p : Cell × List (Fin 4 × Byte)) : p.1.OnlyTm
      (l.foldl (fun p n => ((p.1.tmCount n).1, p.2 ++ [(n, (p.1.tmCount n).2)])) p).1 :=
    List.foldlRecOn (motive := fun q : Cell × List (Fin 4 × Byte) => p.1.OnlyTm q.1) l _ (.refl p.1)
      fun q h n _ => h.trans (q.1.tmCount_onlyTm n)
  exact (hc _ (x, [])).trans ((Cell.OnlyTm.foldl (fun y t => y.tmTake_onlyTm t _) ..).trans
    (Cell.OnlyTm.foldl (fun y (p : Fin 4 × Byte) => y.tmFlags_onlyTm p.1 p.2 _) ..))

theorem Cell.tmCapture_onlyTm : x.OnlyTm (x.tmCapture n) := by
  unfold Cell.tmCapture
  split
  · exact .refl x
  · extract_lets f ovr y z
    have hy : x.OnlyTm y := .ite ((x.modTm_onlyTm _ _).trans (Cell.modTm_onlyTm ..)) (x.modTm_onlyTm ..)
    exact hy.trans (.trans (.ite (y.modTm_onlyTm ..) (.refl y)) (Cell.tmFlags_onlyTm ..))

theorem Cell.tmCaptureOn_onlyTm (src sh : Nat) : x.OnlyTm (x.tmCaptureOn src sh) :=
  Cell.OnlyTm.foldl (fun y n => .ite (y.tmCapture_onlyTm n) (.refl y)) _ x

end Timers

/-! ## The shadow transfer (R51 to R53) -/

section Transfer

/-- One shadowed register becomes live. -/
def Cell.shadowLive (x : Cell) (a : Nat) : Cell := if shadowedReg x.prof a then x.putLive a (x.reg8 a) else x

/-- The addresses of the shadowed registers, range by range. -/
def shadowAddrs : List Nat := shadowRanges.flatMap fun r => (List.range (r.2 + 1 - r.1)).map fun i => r.1 + i

theorem Cell.transferShadows_eq (x : Cell) : x.transferShadows = shadowAddrs.foldl Cell.shadowLive x := by
  simp only [shadowAddrs, List.foldl_flatMap, List.foldl_map]
  rfl

theorem mem_shadowAddrs {prof : Byte} {a : Nat} (h : shadowedReg prof a = true) : a ∈ shadowAddrs := by
  simp only [shadowedReg, Bool.and_eq_true, List.any_eq_true, decide_eq_true_eq] at h
  obtain ⟨_, r, hr, hlo, hhi⟩ := h
  simp only [shadowAddrs, List.mem_flatMap, List.mem_map, List.mem_range]
  exact ⟨r, hr, a - r.1, by omega, by omega⟩

theorem Cell.shadowLive_eq (x : Cell) (a : Nat) : ∃ l, x.shadowLive a = { x with live := l } := by
  unfold Cell.shadowLive
  split <;> exact ⟨_, rfl⟩

/-- The transfer changes live bytes only. -/
theorem Cell.foldl_shadowLive_eq (l : List Nat) (x : Cell) : ∃ v, l.foldl Cell.shadowLive x = { x with live := v } := by
  induction l generalizing x with
  | nil => exact ⟨_, rfl⟩
  | cons a r ih =>
    obtain ⟨v, hv⟩ := x.shadowLive_eq a
    obtain ⟨w, hw⟩ := ih { x with live := v }
    exact ⟨w, by rw [List.foldl_cons, hv, hw]⟩

theorem Cell.shadowLive_live8 (x : Cell) (a b : Nat) :
    (x.shadowLive a).live8 b = if b = a ∧ shadowedReg x.prof a = true then x.reg8 b else x.live8 b := by
  unfold Cell.shadowLive
  by_cases h : shadowedReg x.prof a = true
  · by_cases hb : b = a
    · subst hb
      simp [h, Cell.live8, Cell.putLive]
    · simp [h, hb, Cell.live8, Cell.putLive]
  · simp [h]

/-- A shadowed register in the list is live as its shadow reads. -/
theorem Cell.foldl_shadowLive_live8 {l : List Nat} (x : Cell) {a : Nat} (hs : shadowedReg x.prof a = true)
    (h : a ∈ l ∨ x.live8 a = x.reg8 a) : (l.foldl Cell.shadowLive x).live8 a = x.reg8 a := by
  induction l generalizing x with
  | nil => simpa using h
  | cons b r ih =>
    obtain ⟨v, hv⟩ := x.shadowLive_eq b
    have hr : (x.shadowLive b).reg8 a = x.reg8 a := by rw [hv]; rfl
    have hp : (x.shadowLive b).prof = x.prof := by rw [hv]
    rw [List.foldl_cons, ← hr]
    refine ih _ (hp ▸ hs) ?_
    rw [hr, Cell.shadowLive_live8]
    by_cases hb : a = b
    · subst hb
      exact .inr (if_pos ⟨rfl, hs⟩)
    · rw [if_neg fun e => hb e.1]
      exact h.imp_left fun e => (List.mem_cons.mp e).resolve_left hb

theorem Cell.transferShadows_live8 (x : Cell) {a : Nat} (h : shadowedReg x.prof a = true) :
    x.transferShadows.live8 a = x.reg8 a := by
  rw [Cell.transferShadows_eq]
  exact Cell.foldl_shadowLive_live8 x h (.inl (mem_shadowAddrs h))

theorem Cell.transferShadows_beam (x : Cell) : x.transferShadows.beam = x.beam := by
  obtain ⟨_, h⟩ := Cell.foldl_shadowLive_eq shadowAddrs x
  rw [Cell.transferShadows_eq, h]

theorem Cell.snapBegin_beam (x : Cell) : x.snapBegin.beam = x.beam := rfl

theorem Cell.snapBegin_live8 (x : Cell) (a : Nat) : x.snapBegin.live8 a = x.live8 a := rfl

theorem CellBeam.transferGeom_line (b : CellBeam) (ok : Bool) (g : Geom) : (b.transferGeom ok g).1.line = b.line := by
  unfold CellBeam.transferGeom
  repeat' split
  all_goals rfl

variable {s : State} {c : CellNo}

theorem State.transfer_none (h : (s.cell c).beam.commit = false) : s.transfer c = s := by
  simp [State.transfer, h]

/-- With COMMIT set the shadows become live, COMMIT is cleared and COMMIT_DONE set (R52). -/
theorem State.transfer_commit (h : (s.cell c).beam.commit = true) :
    ((s.transfer c).cell c).beam.line = (s.cell c).beam.line ∧ ((s.transfer c).cell c).beam.commit = false ∧
    ((s.transfer c).cell c).beam.commitDone = true ∧
    ∀ a, shadowedReg (s.cell c).prof a = true → ((s.transfer c).cell c).live8 a = (s.cell c).reg8 a := by
  unfold State.transfer
  extract_lets x g r b y z w t
  rw [if_neg (by simp [x, h])]
  have ht : (if r.2 = true then t.raise 3 c.val true 0 else t).cell c = w := by
    split <;> simp [t]
  have hw : y.transferShadows.snapBegin.OnlyTm w := (Cell.edge_onlyTm _ 3).trans (.ite (Cell.edge_onlyTm ..) (.refl z))
  rw [ht, hw.beam, Cell.snapBegin_beam, Cell.transferShadows_beam]
  refine ⟨CellBeam.transferGeom_line .., rfl, rfl, fun a ha => ?_⟩
  rw [hw.live8, Cell.snapBegin_live8]
  exact y.transferShadows_live8 ha

end Transfer

/-! ## Cell beam lines (R47, R53) -/

section CellLines

variable {s : State} {c : CellNo} {n : Nat}

/-- Line `n` of the cell beam, with its samples counted from 0. -/
def Cell.atLine (x : Cell) (n : Nat) : Cell := { x with beam := { x.beam with line := n }, snd := { x.snd with idx := 0 } }

/-- A line that neither begins the frame nor transfers the shadows. -/
theorem State.cellLine_plain (h0 : n ≠ 0) (h : n ≠ (s.cell c).beam.geom.vactive) :
    s.cellLine c n = s.setCell c ((s.cell c).atLine n) := by
  simp [State.cellLine, h0, h, Cell.atLine]

theorem State.cellLine_vactive (h0 : n ≠ 0) (h : n = (s.cell c).beam.geom.vactive) :
    s.cellLine c n = (s.setCell c ((s.cell c).atLine n)).transfer c := by
  simp [State.cellLine, h0, ← h, Cell.atLine]

theorem State.cellLine_line (h0 : n ≠ 0) : ((s.cellLine c n).cell c).beam.line = n := by
  by_cases h : n = (s.cell c).beam.geom.vactive
  · rw [State.cellLine_vactive h0 h]
    cases hc : (s.cell c).beam.commit
    · rw [State.transfer_none (by simp [Cell.atLine, hc])]
      simp [Cell.atLine]
    · rw [(State.transfer_commit (by simp [Cell.atLine, hc])).1]
      simp [Cell.atLine]
  · rw [State.cellLine_plain h0 h]
    simp [Cell.atLine]

theorem execCellLineStart_next (h : s.beamCell c = true) (hs : (s.cell c).beam.started = true)
    (hn : (s.cell c).beam.line + 1 < (s.cell c).beam.geom.vtotal) :
    execCellLineStart c s = .next (s.cellLine c ((s.cell c).beam.line + 1)) := by
  obtain ⟨hl, ho, hw⟩ := State.beamCell_iff.mp h
  simp [execCellLineStart, State.liveCell_runs hl, ho, hw, hs, hn]

end CellLines

/-! ## What the events of a program line leave (R102, R300, R417) -/

section LineEvents

/-- The beam of a cell with the counts of its line: credits accrued and instructions run (R102, R105). -/
def Cell.lineCounts (x : Cell) : CellBeam × Nat × Nat := (x.beam, x.pace.acc, x.pace.k)

theorem Cell.OnlyTm.lineCounts {x y : Cell} (h : x.OnlyTm y) : y.lineCounts = x.lineCounts := by
  obtain ⟨_, _, rfl⟩ := h
  rfl

/-- At a program line start the timers count, or the line is noted for the make-up. -/
theorem Cell.tmLineStart_lineCounts (x : Cell) : x.tmLineStart.lineCounts = x.lineCounts := by
  unfold Cell.tmLineStart
  split
  · rfl
  · exact (Cell.OnlyTm.ite (.refl x) (x.tmCycle_onlyTm ..)).lineCounts

variable (s : State) (c d : CellNo)

/-- A cell changed outside its beam and counts. -/
theorem State.modCell_lineCounts {f : Cell → Cell} (h : ∀ x, (f x).lineCounts = x.lineCounts) :
    ((s.modCell c f).cell d).lineCounts = (s.cell d).lineCounts := by
  rw [State.modCell_eq, State.setCell_cell]
  split
  · next e => rw [h, e]
  · rfl

theorem State.roomBack_input_lineCounts : ((s.roomBack (.input c)).cell d).lineCounts = (s.cell d).lineCounts := by
  unfold State.roomBack
  extract_lets k t
  have ht : (t.cell d).lineCounts = (s.cell d).lineCounts := s.modCell_lineCounts c d fun _ => rfl
  split
  · unfold State.msiOf
    dsimp only [qCell]
    split <;> exact ht
  · exact ht

theorem State.applyInput_lineCounts (src : Byte) (pins : Nat → Long) :
    ((s.applyInput c src pins).cell d).lineCounts = (s.cell d).lineCounts := by
  unfold State.applyInput
  extract_lets x ws h rose took q t u
  have ht : (t.cell d).lineCounts = (s.cell d).lineCounts := s.modCell_lineCounts c d fun _ => rfl
  have hu : (u.cell d).lineCounts = (s.cell d).lineCounts := by
    unfold u
    split
    · exact (t.roomBack_input_lineCounts c d).trans ht
    · exact ht
  split
  · exact (State.modCell_lineCounts u c d (f := (·.edge 19)) fun _ => rfl).trans hu
  · exact hu

theorem State.shareCore_lineCounts : ((s.shareCore c).cell d).lineCounts = (s.cell d).lineCounts := by
  unfold State.shareCore
  split
  · rfl
  · dsimp only
    split
    · rfl
    · refine foldl_keeps (fun u : State => (u.cell d).lineCounts) (fun u e => ?_) _ s
      exact State.modCell_lineCounts u e d fun _ => rfl

/-- The events of a program line keep the beam and the counts of every cell. -/
theorem State.lineEvents_lineCounts : ((s.lineEvents c).cell d).lineCounts = (s.cell d).lineCounts := by
  unfold State.lineEvents
  extract_lets t
  refine (State.shareCore_lineCounts ..).trans ((State.applyInput_lineCounts ..).trans (s.modCell_lineCounts c d fun x₀ => ?_))
  extract_lets b x y w z
  have hx : x₀.OnlyTm x := .ite (Cell.edge_onlyTm ..) (.refl _)
  have hy : x₀.OnlyTm y := hx.trans (.ite (Cell.edge_onlyTm ..) (.refl _))
  have hz := Cell.tmCaptureOn_onlyTm z.tmLineStart 2 0
  rw [hz.lineCounts, Cell.tmLineStart_lineCounts]
  exact hy.lineCounts

end LineEvents

/-! ## Program lines and frames (R47, R53) -/

section ProgramLines

variable {s : State} {c : CellNo}

theorem State.endLine_beam : ((s.endLine c).cell c).beam = (s.cell c).beam := by
  unfold State.endLine
  dsimp only
  repeat' split
  all_goals simp

theorem Cell.moveBegins_beam (x : Cell) (now : Long) : (x.moveBegins now).beam = x.beam := by
  unfold Cell.moveBegins
  split <;> rfl

/-- After the events of a line its cell has the beam and the counts that the line was set up with. -/
theorem State.lineEvents_modCell (f : Cell → Cell) :
    (((s.modCell c f).lineEvents c).cell c).lineCounts = (f (s.cell c)).lineCounts := by
  rw [State.lineEvents_lineCounts, State.modCell_eq, State.setCell_cell_self]

/-- The cell as its next program line is set up. -/
def Cell.nextLine (x : Cell) (clks m : Nat) (sw : Bool) : Cell :=
  let b := x.beam
  let last := decide (b.pline + 2 = b.pgeom.vtotal) && decide (b.pIv + 1 = b.pgeom.num)
  let x := { x with beam := { b with pline := b.pline + 1, switchNext := sw && last && b.held.isSome, hpix := 0 } }
  x.startLine clks m x.pace.tEnd

theorem execProgramLineStart_next {sw : Bool} (h : s.beamCell c = true)
    (hn : (s.cell c).beam.pline + 1 < (s.cell c).beam.pgeom.vtotal) :
    execProgramLineStart c sw s = .next (((s.endLine c).modCell c fun x =>
      x.nextLine (s.endLine c).house.frameClks ((s.endLine c).lineRate c) sw).lineEvents c) := by
  obtain ⟨hl, ho, hw⟩ := State.beamCell_iff.mp h
  rw [execProgramLineStart, State.liveCell_runs hl]
  exact if_neg (by simp [ho, hw, hn])

/-- The cell as the program frame that `g` sets up starts. -/
def State.atFrame (s : State) (c : CellNo) (g : Cell → Cell) : State :=
  ((s.modCell c fun x => ((g x).edge 0).tmCaptureOn 3 0).lineEvents c).modCell c fun x => x.moveBegins s.devTime

theorem State.atFrame_beam (g : Cell → Cell) : ((s.atFrame c g).cell c).beam = (g (s.cell c)).beam := by
  have he := State.lineEvents_modCell (s := s) (c := c) fun x => ((g x).edge 0).tmCaptureOn 3 0
  have ht : (g (s.cell c)).OnlyTm (((g (s.cell c)).edge 0).tmCaptureOn 3 0) :=
    (Cell.edge_onlyTm ..).trans (Cell.tmCaptureOn_onlyTm ..)
  rw [State.atFrame, State.modCell_eq, State.setCell_cell_self, Cell.moveBegins_beam]
  exact congrArg Prod.fst (he.trans ht.lineCounts)

theorem execProgramFrameStart_next (h : s.beamCell c = true) (hn : (s.cell c).beam.pgeom.vtotal ≤ (s.cell c).beam.pline + 1) :
    execProgramFrameStart c s = .next ((s.endLine c).atFrame c fun x =>
      x.nextFrame (s.endLine c).house.frameClks ((s.endLine c).lineRate c)) := by
  obtain ⟨hl, ho, hw⟩ := State.beamCell_iff.mp h
  simp only [execProgramFrameStart, State.liveCell_runs hl, ho, hw, Nat.not_lt.mpr hn, Bool.not_true, Bool.false_eq_true,
    if_false]
  rfl

theorem execProgramFrameStart_first (h : s.liveCell c = true) (ho : (s.cell c).beam.on = true)
    (hw : (s.cell c).beam.waiting = true) :
    execProgramFrameStart c s = .next (s.atFrame c fun x => x.firstFrame s.house.frameClks (s.lineRate c)) := by
  simp only [execProgramFrameStart, State.liveCell_runs h, ho, hw, Bool.not_true, Bool.false_eq_true, if_false, if_true]
  rfl

end ProgramLines

/-! ## Geometry switches and credits (R53, R102) -/

section GeometryAndPace

variable {s : State} {c : CellNo}

/-- The beam whose held geometry `h` becomes live in a house frame of `clks` beam clocks (R46, R53). -/
def CellBeam.switched (b : CellBeam) (h : Geom) (clks frame : Nat) : CellBeam :=
  { b with geom := h, held := none, heldAge := 0, d := dOf h clks, line := h.vtotal - 1
           stagger := frame % h.den * clks + b.stagger % clks }

theorem execGeomSwitch_next {g : Geom} (h : s.beamCell c = true) (hg : (s.cell c).beam.held = some g)
    (ha : 2 ≤ (s.cell c).beam.heldAge) (hp : (s.cell c).beam.pgeom = g) :
    execGeomSwitch c s = .next (s.setCell c { s.cell c with
      beam := (s.cell c).beam.switched g s.house.frameClks s.house.frame.toNat }) := by
  obtain ⟨hl, ho, _⟩ := State.beamCell_iff.mp h
  have hn : ¬ (s.cell c).beam.heldAge < 2 := Nat.not_lt.mpr ha
  simp [execGeomSwitch, State.liveCell_runs hl, hg, ho, hn, hp, CellBeam.switched]

theorem Pace.accrue_below {p : Pace} (h : p.avail < p.q) :
    p.accrue true = { p with acc := p.acc + 1, avail := p.avail + 1 } := by
  simp [Pace.accrue, h]

theorem execPaceCredit_next (h : s.beamCell c = true) (hq : (s.cell c).pace.acc < (s.cell c).pace.q) :
    execPaceCredit c s = .next (s.setCell c { s.cell c with pace := (s.cell c).pace.accrue (s.cell c).runnable }) := by
  obtain ⟨hl, ho, hw⟩ := State.beamCell_iff.mp h
  simp [execPaceCredit, State.liveCell_runs hl, ho, hw, hq]

end GeometryAndPace

/-- Settles O15: each command reduces to one operation of the cell's beams, whose lemma says the rest. -/
theorem linesAndFrames : Obligations.LinesAndFrames := by
  intro s c sw h x b
  refine ⟨fun hb hs hn => ⟨_, execCellLineStart_next hb hs hn, State.cellLine_line (by simp), fun hv => ?_, fun hv hc => ?_⟩,
    fun hb hg ha hp => ⟨_, execGeomSwitch_next hb hg ha hp, ?_⟩, fun hb hn => ⟨_, execProgramLineStart_next hb hn, ?_⟩,
    fun hb hn => ⟨_, execProgramFrameStart_next hb hn, ?_⟩, fun hl ho hw => ⟨_, execProgramFrameStart_first hl ho hw, ?_⟩,
    fun hb hr hq ha => ⟨_, execPaceCredit_next hb hq, ?_⟩⟩
  · rw [State.cellLine_plain (by simp) hv]
    simp [State.onlyCell, Cell.atLine, x]
  · obtain ⟨_, h1, h2, h3⟩ := State.transfer_commit (s := s.setCell c (x.atLine (b.line + 1))) (c := c)
      (by simpa [Cell.atLine] using hc)
    rw [State.cellLine_vactive (by simp) hv]
    refine ⟨h1, h2, fun a e => ?_⟩
    rw [State.setCell_cell_self] at h3
    exact h3 a e
  · simp [State.onlyCell, CellBeam.switched, dOf]
  · have e := State.lineEvents_modCell (s := s.endLine c) (c := c) fun x =>
      x.nextLine (s.endLine c).house.frameClks ((s.endLine c).lineRate c) sw
    simp only [Cell.lineCounts, Prod.mk.injEq] at e
    obtain ⟨hb, ha, hk⟩ := e
    dsimp only
    rw [hb, ha, hk]
    simp [Cell.nextLine, Cell.startLine, State.endLine_beam, b, x]
  · dsimp only
    rw [State.atFrame_beam]
    simp [Cell.nextFrame, Cell.startLine, State.endLine_beam, b, x]
  · dsimp only
    rw [State.atFrame_beam]
    exact ⟨rfl, rfl, rfl⟩
  · rw [show (s.cell c).runnable = true from hr, Pace.accrue_below ha]

/-! ## Cell commands taken from their queue (R97) -/

section Commands

variable {s t : State} {c : CellNo} {k : CellCmd} {r : List CellCmd} {f : State → Option State}

/-- The state once the first accepted command of cell `c` has left its queue, which is `r` from then on. -/
def State.dequeued (s : State) (c : CellNo) (r : List CellCmd) : State := s.modCtl c fun m => { m with cmds := r }

@[simp] theorem State.dequeued_cell : (s.dequeued c r).cell c = { s.cell c with ctl := { (s.cell c).ctl with cmds := r } } := by
  simp [State.dequeued]

@[simp] theorem State.dequeued_setCell (x : Cell) : (s.dequeued c r).setCell c x = s.setCell c x := by
  simp [State.dequeued]

/-- The front command takes effect where its state allows it. -/
theorem State.takeCmd_takes (h : (s.cell c).ctl.cmds = k :: r) (hf : f (s.dequeued c r) = some t) :
    s.takeCmd c k f = .next t := by
  unfold State.dequeued at hf
  simp only [State.takeCmd, h, if_true, hf]

/-- Elsewhere it lapses. -/
theorem State.takeCmd_lapses (h : (s.cell c).ctl.cmds = k :: r) (hf : f (s.dequeued c r) = none) :
    s.takeCmd c k f = .next ((s.dequeued c r).lapse c k.code) := by
  unfold State.dequeued at hf
  simp only [State.takeCmd, h, if_true, hf]
  rfl

/-- A lapse changes the journal only. -/
theorem State.lapse_cell (code : Nat) (d : CellNo) : (s.lapse c code).cell d = s.cell d := rfl

end Commands

/-! ## What the commands' operations leave of a cell -/

section Operations

variable (s : State) (c d : CellNo)

@[simp] theorem State.fenceUnit_cell (q : Nat × Nat) : (s.fenceUnit q).cell d = s.cell d := by
  unfold State.fenceUnit
  extract_lets b was now t
  split
  · exact t.raiseEvent_cell ..
  · rfl

@[simp] theorem State.fenceCheck_cell : s.fenceCheck.cell d = s.cell d :=
  foldl_keeps (fun u : State => u.cell d) (fun u q => u.fenceUnit_cell d q) _ s

theorem State.dropSlots_cell : (s.dropSlots c).cell d = s.cell d := rfl

/-- A cell that is given a core changes in its placement only. -/
theorem State.giveCore_cell (k : Fin 128) :
    ∃ q : CellKp, q.core = some k ∧ (s.giveCore c k).cell c = { s.cell c with kp := q } := by
  have h : ∃ q, (((s.onCoreCells k).foldl (fun s d => s.modKp d fun q => { q with onCore := false }) s).cell c) =
      { s.cell c with kp := q } := by
    refine List.foldlRecOn (motive := fun u : State => ∃ q, u.cell c = { s.cell c with kp := q }) _ _ ⟨_, rfl⟩ fun u h d _ => ?_
    obtain ⟨q, e⟩ := h
    simp only [State.modKp_eq, State.setCell_cell]
    split
    · next hd => exact ⟨_, by rw [← hd, e]⟩
    · exact ⟨q, e⟩
  obtain ⟨q, e⟩ := h
  rw [State.giveCore, State.modKp_eq, State.setCell_cell_self, e]
  refine ⟨_, ?_, rfl⟩
  rfl

theorem State.migLost_mem : ((s.migLost c).cell c).mem = (s.cell c).mem := by
  unfold State.migLost
  extract_lets x t
  split
  · rfl
  · rw [State.raiseEvent_cell]
    show ((s.setCell c _).cell c).mem = _
    rw [State.setCell_cell_self]

theorem State.abandonMigration_mem : ((s.abandonMigration c).cell c).mem = (s.cell c).mem := by
  unfold State.abandonMigration
  split
  · rfl
  · rw [State.migLost_mem, State.modCtl_eq, State.setCell_cell_self]

theorem State.setPte_cell (i : Nat) (e : Long) : (s.setPte i e).cell d = s.cell d := rfl

/-- Pages are released in the placement table; of the cells only the page map of `c` changes (R174). -/
theorem State.releasePages_cell : (s.releasePages c).cell c = { s.cell c with kp := { (s.cell c).kp with pmap := [] } } := by
  unfold State.releasePages
  extract_lets l t
  have ht : t.cell c = { s.cell c with kp := { (s.cell c).kp with pmap := [] } } := s.setCell_cell_self c _
  refine (foldl_keeps (fun u : State => u.cell c) (fun u i => ?_) l t).trans ht
  split
  · exact u.setPte_cell c i 0
  · exact u.setPte_cell c i _

theorem State.dropLevels_kp : ((s.dropLevels c).cell c).kp = (s.cell c).kp := by
  simp [State.dropLevels]

end Operations

/-! ## Cell reset (R116, R117) -/

section Reset

/-- The core of a cell reset starts at the image's vector, read through the mapping that the reset establishes; the
commands that wait do not matter. -/
theorem Cell.reset_core (x : Cell) (k : CellCtl) (cause : BitVec 4) :
    (({ x with ctl := k } : Cell).reset cause).core = ({ x with map := x.map.reset } : Cell).resetCore := rfl

/-- The reset of START begins RESET_CAUSE anew (R116). -/
theorem Cell.reset_start_cause (x : Cell) : (x.reset 1).ctl.resetCause = 1 := by
  simp [Cell.reset]

theorem State.resetInPlace_eq (s : State) (c : CellNo) (cause : BitVec 4) :
    ∃ x : Cell, s.resetInPlace c cause = s.setCell c x ∧ x.core = ((s.cell c).reset cause).core ∧
      x.mem = (s.cell c).mem ∧ x.beam.pline = (s.cell c).beam.pline ∧ x.ctl.cellResets = satInc (s.cell c).ctl.cellResets ∧
      x.ctl.resetCause = ((s.cell c).reset cause).ctl.resetCause ∧
      ((s.cell c).ctl.st = .running → x.ctl.st = .running) :=
  ⟨_, rfl, rfl, rfl, rfl, rfl, rfl, fun h => by simp [h]⟩

/-- START resets the cell, starts its beam and gives it core `k` (R44, R97). -/
theorem State.startCell_cell (s : State) (c : CellNo) (k : Fin 128) (sg : Nat) :
    let t := (s.startCell c k sg).cell c
    t.ctl.st = .running ∧ t.ctl.cmds = (s.cell c).ctl.cmds ∧ t.ctl.resetCause = 1 ∧ t.kp.core = some k ∧ t.beam.on = true ∧
      t.beam.waiting = true ∧ t.beam.stagger = sg ∧ t.core = ((s.cell c).reset 1).core ∧ t.mem = (s.cell c).mem := by
  have h : ∃ y : Cell, s.startCell c k sg = (s.setCell c y).giveCore c k ∧ y.ctl.st = .running ∧
      y.ctl.cmds = (s.cell c).ctl.cmds ∧ y.ctl.resetCause = 1 ∧ y.beam.on = true ∧ y.beam.waiting = true ∧ y.beam.stagger = sg ∧
      y.core = ((s.cell c).reset 1).core ∧ y.mem = (s.cell c).mem :=
    ⟨_, rfl, rfl, rfl, (s.cell c).reset_start_cause, rfl, rfl, rfl, rfl, rfl⟩
  obtain ⟨y, e, hst, hq, hcs, hon, hw, hsg, hcore, hm⟩ := h
  obtain ⟨q, hk, e'⟩ := (s.setCell c y).giveCore_cell c k
  rw [State.setCell_cell_self] at e'
  rw [e, e']
  exact ⟨hst, hq, hcs, hk, hon, hw, hsg, hcore, hm⟩

end Reset

/-! ## The operations of STOP, UNLOAD, PAUSE and RESUME (R97 to R99) -/

section StopAndResume

variable (s : State) (c : CellNo)

theorem State.stopCell_cell :
    let t := (s.stopCell c).cell c
    t.ctl.st = .loaded ∧ t.beam.on = false ∧ t.kp.core = none ∧ t.mem = (s.cell c).mem := by
  have hm := s.abandonMigration_mem c
  simp only [State.stopCell, State.fenceCheck_cell, State.dropSlots_cell, State.modCell_eq, State.setCell_cell_self]
  exact ⟨trivial, rfl, rfl, hm⟩

theorem State.unloadCell_cell :
    let t := (s.unloadCell c).cell c
    t.ctl.st = .empty ∧ t.mem = [] ∧ t.map.pages = 0 ∧ t.kp.pmap = [] := by
  simp [State.unloadCell, State.dropLevels_kp, State.releasePages_cell]

/-- A resumed cell goes on in the state that it was paused in, with its core and its space. -/
theorem Cell.resume_keeps (x : Cell) (pix : Nat) :
    (x.resume pix).ctl = { x.ctl with st := x.ctl.prior } ∧ (x.resume pix).core = x.core ∧ (x.resume pix).mem = x.mem := by
  have hw (y : Cell) : y.wdTopUp.ctl = y.ctl ∧ y.wdTopUp.core = y.core := by
    unfold Cell.wdTopUp
    extract_lets least
    split <;> exact ⟨rfl, rfl⟩
  obtain ⟨h1, h2⟩ := hw { x with ctl := { x.ctl with st := x.ctl.prior } }
  refine ⟨?_, ?_, x.resume_mem pix⟩
  · unfold Cell.resume
    extract_lets y
    split <;> exact h1
  · unfold Cell.resume
    extract_lets y
    split <;> exact h2

end StopAndResume

/-! ## The commands of R97 -/

section CommandSteps

variable {s : State} {c : CellNo} {r : List CellCmd}

theorem execCellStart_takes {k : Fin 128} {sg : Nat} (hl : s.liveCell c = true) (hc : (s.cell c).ctl.cmds = .start :: r)
    (hs : (s.cell c).ctl.st = .loaded) (hk : s.coreOk c k = true) (hf : sg < s.house.frameClks)
    (hg : sg % max 1 (lineLen (resetGeom (s.cell c).prof) s.house.frameClks / 16777216) = 0) :
    execCellStart c k sg s = .next ((s.dequeued c r).startCell c k sg) := by
  rw [execCellStart, State.liveCell_runs hl]
  refine (if_pos ?_).trans (State.takeCmd_takes hc (if_pos ?_))
  · simp [hk, hf, hg]
  · simp [hs]

theorem execCellPause_takes (hl : s.liveCell c = true) (hc : (s.cell c).ctl.cmds = .pause :: r)
    (hs : (s.cell c).ctl.st = .running ∨ (s.cell c).ctl.st = .sleep) :
    execCellPause c s = .next ((s.dequeued c r).modCell c Cell.pause) := by
  rw [execCellPause, State.liveCell_runs hl]
  refine State.takeCmd_takes hc ?_
  rcases hs with h | h <;> simp [h]

theorem execCellPause_lapses (hl : s.liveCell c = true) (hc : (s.cell c).ctl.cmds = .pause :: r)
    (hr : (s.cell c).ctl.st ≠ .running) (hs : (s.cell c).ctl.st ≠ .sleep) :
    execCellPause c s = .next ((s.dequeued c r).lapse c 2) := by
  rw [execCellPause, State.liveCell_runs hl]
  refine State.takeCmd_lapses hc ?_
  rw [State.dequeued_cell]
  split <;> simp_all

theorem execCellResume_takes {pix : Nat} (hl : s.liveCell c = true) (hc : (s.cell c).ctl.cmds = .resume :: r)
    (hs : (s.cell c).ctl.st = .paused) :
    execCellResume c pix s = .next ((s.dequeued c r).modCell c fun x => x.resume pix) := by
  rw [execCellResume, State.liveCell_runs hl]
  exact State.takeCmd_takes hc (if_pos (by simp [hs]))

theorem execCellStop_takes (hp : s.present c = true) (hc : (s.cell c).ctl.cmds = .stop :: r)
    (hs : (s.cell c).ctl.st.started = true) : execCellStop c s = .next ((s.dequeued c r).stopCell c) := by
  rw [execCellStop, onCell_present hp]
  exact State.takeCmd_takes hc (if_pos (by simp [hs]))

theorem execCellResetCmd_takes (hl : s.liveCell c = true) (hc : (s.cell c).ctl.cmds = .reset :: r)
    (hs : (s.cell c).ctl.st = .running) : execCellResetCmd c s = .next ((s.dequeued c r).resetInPlace c 2) := by
  rw [execCellResetCmd, State.liveCell_runs hl]
  exact State.takeCmd_takes hc (by simp [hs])

theorem execCellUnload_takes (hp : s.present c = true) (hc : (s.cell c).ctl.cmds = .unload :: r)
    (hs : (s.cell c).ctl.st = .loaded) : execCellUnload c s = .next ((s.dequeued c r).unloadCell c) := by
  rw [execCellUnload, onCell_present hp]
  exact State.takeCmd_takes hc (if_pos (by simp [hs]))

end CommandSteps

/-- Settles O17: each command leaves its queue and acts by one operation on the cell, or lapses. -/
theorem cellCommands : Obligations.CellCommands := by
  refine ⟨?_, ?_⟩
  · intro s c k sg pix r x front y
    refine ⟨fun hl hc hs hk hf hg => ⟨_, execCellStart_takes hl hc hs hk hf hg, ?_⟩,
      fun hl hc hs => ⟨_, execCellPause_takes hl hc hs, ?_⟩, fun hl hc hs => ⟨_, execCellResume_takes hl hc hs, ?_⟩,
      fun hp hc hs => ⟨_, execCellStop_takes hp hc hs, ?_⟩, fun hl hc hs => ⟨_, execCellResetCmd_takes hl hc hs, ?_⟩,
      fun hp hc hs => ⟨_, execCellUnload_takes hp hc hs, State.unloadCell_cell ..⟩⟩
    · obtain ⟨hst, hq, hcs, hcore, hon, hw, hsg, hk, hm⟩ := (s.dequeued c r).startCell_cell c k sg
      simp only [State.dequeued_cell] at hq hk hm
      rw [Cell.reset_core] at hk
      simp only [State.core, hk]
      exact ⟨hst, hq, hcs, hcore, hon, hw, hsg, rfl, rfl, rfl, rfl, hm⟩
    · simp [State.onlyCell, State.core, Cell.pause, x]
    · obtain ⟨hk, hcore, hm⟩ := Cell.resume_keeps ((s.dequeued c r).cell c) pix
      simp only [State.onlyCell, State.core, State.modCell_eq, State.dequeued_setCell, State.setCell_cell_self, hk, hcore, hm]
      simp [x]
    · have h := (s.dequeued c r).stopCell_cell c
      simpa using h
    · obtain ⟨z, e, hcore, hm, hp, hn, hcs, hst⟩ := (s.dequeued c r).resetInPlace_eq c 2
      simp only [State.dequeued_cell] at hcore hm hp hn hcs hst
      rw [Cell.reset_core] at hcore
      simp only [e, State.onlyCell, State.core, State.dequeued_setCell, State.setCell_cell_self]
      exact ⟨trivial, hst hs, hn, hcs, congrArg Core.pc hcore, hm, hp⟩
  · intro s c r x hl hc hr hs
    refine ⟨_, execCellPause_lapses hl hc hr hs, ?_, rfl, _, _, rfl, rfl, rfl, ?_, rfl⟩
    · exact (State.lapse_cell ..).trans State.dequeued_cell
    · simp [State.dequeued, x]

end Sys2Proof.Machine
end

section
/-! PROOFS for spec/04_core_execution.md: the limit of ED (O48), the registers of the system block and the interrupt
controller (O18), and the state after power-on (O54). -/

namespace Sys2Proof.Machine

/-! ## Entries at the limit of ED (R112) -/

section EntryLimit

variable (s : State) (c : CellNo)

theorem State.migLost_core : ((s.migLost c).cell c).core = (s.cell c).core := by
  unfold State.migLost
  extract_lets x t
  split
  · rfl
  · rw [State.raiseEvent_cell]
    show ((s.setCell c _).cell c).core = _
    rw [State.setCell_cell_self]

/-- A fault leaves the registers and the memory of its cell as they are (R100). -/
@[simp] theorem State.cellFault_core (code : Byte) : ((s.cellFault c code).cell c).core = (s.cell c).core := by
  simp [State.cellFault, State.migLost_core]

@[simp] theorem State.cellFault_mem (code : Byte) : ((s.cellFault c code).cell c).mem = (s.cell c).mem := by
  simp [State.cellFault, State.migLost_mem]

/-- Cell `c` of `t` is FAULTED with the code of an entry that is not made; its registers and memory are those of `x`. -/
def Cell.NotEntered (x : Cell) (c : CellNo) (t : State) : Prop :=
  (t.cell c).ctl.st = .faulted ∧ (t.cell c).ctl.faultCause = 2 ∧ t.core c = x.core ∧ (t.cell c).mem = x.mem

variable {s c} {x : Cell}

/-- At ED 255 no entry is made, whatever its vector, return address and latch, and whatever else of the cell its command
has changed before. -/
theorem State.enterVector_limit (hed : x.core.ed = 255) (hk : (s.cell c).core = x.core) (hm : (s.cell c).mem = x.mem)
    (vector : Nat) (ret : Half) (latch : Option Abandon) : x.NotEntered c (s.enterVector c vector ret latch) := by
  have he : (s.cell c).core.ed = 255 := by rw [hk, hed]
  rcases s.enterVector_cases c vector ret latch with ⟨_, e⟩ | ⟨_, h, _⟩ | ⟨_, _, h, _⟩
  · obtain ⟨hst, hcause⟩ := (s.setCell c ((s.cell c).recordRefusal latch)).cellFault_faulted c 2
    rw [e]
    exact ⟨hst, hcause, by simp [State.core, hk], by simp [hm]⟩
  · exact absurd he h
  · exact absurd he h

theorem State.takeTrap_limit (hed : (s.cell c).core.ed = 255) (a : Abandon) : (s.cell c).NotEntered c (s.takeTrap c a) :=
  State.enterVector_limit hed rfl rfl ..

/-- The interrupt controller changes only with an entry that is made (R558), so an interrupt at ED 255 is the same fault. -/
theorem State.enterInterrupt_limit (hed : (s.cell c).core.ed = 255) {n : Nat} (h : (s.cell c).ic.candidate = some n) :
    (s.cell c).NotEntered c (s.enterInterrupt c) := by
  have ho (v : Nat) : (s.cell c).entryOk v = false := by simp [Cell.entryOk, hed]
  simp only [State.enterInterrupt, h, State.enterSource, ho]
  exact State.enterVector_limit hed rfl rfl ..

end EntryLimit

/-! ## The commands that make an entry (R91, R92, R95) -/

section EntryCommands

variable {s : State} {c : CellNo}

theorem execTrap_enters {n : Fin 4} (h : s.issues c [0x95, BitVec.ofNat 8 n.val] = true) :
    execTrap c n s = .next (s.enterVector c n.val ((s.cell c).core.pc + 2) none) :=
  runInstr_issues h 7 7 _

theorem execReservedOpcode_traps {a : Abandon} (h : s.atBoundary c = true) (hd : (s.cell c).decodePc = .trap a) :
    execReservedOpcode c s = .next (s.takeTrap c a) := by
  simp only [State.atBoundary, Bool.and_eq_true, Option.isNone_iff_eq_none] at h
  obtain ⟨⟨hp, hi⟩, hb⟩ := h
  simp [execReservedOpcode, onCell_present hp, hi, hb, hd]

theorem execLd_traps {r : Fin 16} {m : LdMode} {st : BitVec 6} (h : s.issues c (ldBytes r m) = true)
    (hx : (s.cell c).map.xlatD (m.addr (s.cell c).core) false = .refuse st) :
    execLd c r m .clean s = .next (s.takeTrap c (mapfD (m.addr (s.cell c).core) st)) := by
  have hb : bodyLd r m .clean c s = .trap (mapfD (m.addr (s.cell c).core) st) := by simp [bodyLd, Cell.dAddr, hx]
  simp [execLd, runInstr_issues h, State.runBody, hb]

theorem execWdwEntry_enters (hp : s.present c = true) (he : s.canEnter c = true) (hw : (s.cell c).wd.wdw = true) :
    execWdwEntry c s = .next ((s.modCell c fun x => { x with wd := { x.wd with wdw := !x.entryOk 29 } }).enterVector c 29
      (s.cell c).core.pc none) := by
  simp [execWdwEntry, onCell_present hp, he, hw]

theorem execPaceEntry_enters (hp : s.present c = true) (he : s.canEnter c = true) (hw : (s.cell c).wd.wdw = false)
    (hq : (s.cell c).pace.pend = true) :
    execPaceEntry c s =
      .next ((s.modPace c fun p => { p with pend := !(s.cell c).entryOk 26 }).enterVector c 26 (s.cell c).core.pc none) := by
  simp [execPaceEntry, onCell_present hp, he, hw, hq]

/-- The mask of flag I selects bit 5 of F (R60). -/
theorem hasFlag_fI (f : Byte) : hasFlag f fI = f.getLsbD 5 := by
  revert f; decide

theorem execInterruptEntry_enters (hp : s.present c = true) (he : s.canEnter c = true) (hw : (s.cell c).wd.wdw = false)
    (hq : (s.cell c).pace.pend = false) (hi : (s.cell c).core.flag 5 = true) :
    execInterruptEntry c s = .next (s.enterInterrupt c) := by
  have hf : hasFlag (s.cell c).core.f fI = true := (hasFlag_fI _).trans hi
  simp [execInterruptEntry, onCell_present hp, he, hw, hq, hf]

end EntryCommands

/-- Settles O48: each of the commands makes its entry by `State.enterVector`, and at ED 255 that is a fault. -/
theorem entryLimit : Obligations.EntryLimit := by
  intro s c n cause r m st v pc a i x faulted free hed
  refine ⟨State.enterVector_limit hed rfl rfl .., fun h => ⟨_, execTrap_enters h, ?_⟩,
    fun h hd => ⟨_, execReservedOpcode_traps h hd, ?_⟩, fun h hx => ⟨_, execLd_traps h hx, ?_⟩,
    fun ⟨hp, he⟩ hw => ⟨_, execWdwEntry_enters hp he hw, ?_⟩,
    fun ⟨hp, he⟩ hw hq => ⟨_, execPaceEntry_enters hp he hw hq, ?_⟩,
    fun ⟨hp, he⟩ hw hq hi hc => ⟨_, execInterruptEntry_enters hp he hw hq hi, ?_⟩⟩
  · exact State.enterVector_limit hed rfl rfl ..
  · exact State.takeTrap_limit hed _
  · exact State.takeTrap_limit hed _
  · exact State.enterVector_limit hed (by simp [x]) (by simp [x]) ..
  · exact State.enterVector_limit hed (by simp [x]) (by simp [x]) ..
  · exact State.enterInterrupt_limit hed hc

/-! ## The interrupt controller's operations (R147, R148, R151) -/

section InterruptController

/-- IC_PEND has no bits 7 and 23 (R147). -/
theorem icMask_getLsbD (n : Fin 32) : icMask.getLsbD n.val = (n.val != 7 && n.val != 23) := by
  revert n; decide

/-- A byte placed at byte `i` of a 32-bit field stands at bits `8 * i` to `8 * i + 7`. -/
theorem atByte_getLsbD (v : Byte) (i : Nat) (n : Fin 32) :
    (atByte v i).getLsbD n.val = (decide (n.val / 8 = i) && v.getLsbD (n.val % 8)) := by
  have hp : 256 ^ i = 2 ^ (8 * i) := by rw [Nat.pow_mul]
  have hn : n.val < 32 := n.isLt
  rw [atByte, BitVec.getLsbD_ofNat, hp, Nat.testBit_mul_two_pow, ← BitVec.getLsbD]
  by_cases hi : n.val / 8 = i
  · have hl : 8 * i ≤ n.val := by omega
    have hm : n.val - 8 * i = n.val % 8 := by omega
    simp [hn, hi, hl, hm]
  · by_cases hl : 8 * i ≤ n.val
    · have hv : v.getLsbD (n.val - 8 * i) = false := BitVec.getLsbD_of_ge _ _ (by omega)
      simp [hi, hv]
    · simp [hi, hl]

theorem sourceExists_of_ne {n : Fin 32} (h7 : n.val ≠ 7) (h23 : n.val ≠ 23) : sourceExists n.val = true := by
  simp [sourceExists, h7, h23]

/-- A second edge of a source that is still pending is a missed one, a first edge is not (R148). -/
theorem Ic.edge_miss (i : Ic) (n : Nat) (h : sourceExists n = true) :
    (i.pend.getLsbD n = false → (i.edge n).miss = i.miss) ∧ (i.pend.getLsbD n = true → (i.edge n).miss.getLsbD n = true) := by
  have hn : n < 32 := by simp only [sourceExists, Bool.and_eq_true, decide_eq_true_eq] at h; exact h.2
  exact ⟨fun hp => by simp [Ic.edge, h, hp], fun hp => by simp [Ic.edge, h, hp, putBit, hn]⟩

/-- While the cluster clocks run, an edge reaches the interrupt controller at once (R148, R149). -/
theorem State.edge_ic {s : State} {c : CellNo} (h : (s.cell c).clocksStopped = false) (n : Nat) :
    ((s.edge c n).cell c).ic = (s.cell c).ic.edge n := by
  simp [Cell.edge, h]

/-- A pop changes the stack and EOI_UNF only (R151). -/
theorem Ic.pop_keeps (i : Ic) : i.pop.stack = i.stack.tail ∧ i.pop.pend = i.pend ∧ (i.stack = [] → i.pop.eoiUnf = true) := by
  unfold Ic.pop
  split <;> simp_all

end InterruptController

/-! ## Locked sequences (R557) -/

section LockedSequences

variable (x : Cell)

theorem Cell.seqFailed_ctl (r : LockedReg) : (x.seqFailed r).ctl = x.ctl := by cases r <;> rfl
theorem Cell.seqFailed_ic (r : LockedReg) : (x.seqFailed r).ic = x.ic := by cases r <;> rfl
theorem Cell.seqFailed_prof (r : LockedReg) : (x.seqFailed r).prof = x.prof := by cases r <;> rfl

/-- A broken sequence leaves the profile and the interrupt controller of its cell. -/
theorem Cell.breakSeq_keeps : x.breakSeq.prof = x.prof ∧ x.breakSeq.ic = x.ic := by
  unfold Cell.breakSeq
  split
  · exact ⟨rfl, rfl⟩
  · exact ⟨Cell.seqFailed_prof .., Cell.seqFailed_ic ..⟩

/-- A sequence is abandoned after the 16 counted instructions that it may take, and not before. -/
theorem Cell.expireLocked_cases {x : Cell} {q : LockedSeq} (h : x.ctl.locked = some q) :
    (q.count ≤ 16 → x.expireLocked = x) ∧ (17 ≤ q.count → x.expireLocked.ctl.locked = none) := by
  refine ⟨fun hq => ?_, fun hq => ?_⟩
  · simp [Cell.expireLocked, h, LockedSeq.live, hq]
  · have hl : ¬ q.count ≤ 16 := by omega
    simp [Cell.expireLocked, h, LockedSeq.live, hl, Cell.seqFailed_ctl]

end LockedSequences

/-! ## I/O below 0180h: the mapper, the system block and the interrupt controller (R6, R119, R162) -/

section CoreRegisters

variable {s : State} {c : CellNo} {a : Nat} {v : Byte}

/-- Below 0180h the profiles have the same registers. -/
theorem ioMapped_low (prof : Byte) (ha : a < 0x0180) : ioMapped prof a = inRanges ioRanges a := by
  have hn : isAffine a = false := by
    simp only [isAffine, inRanges, List.any_cons, List.any_nil, Bool.or_false, Bool.or_eq_false_iff, Bool.and_eq_false_iff,
      decide_eq_false_iff_not]
    omega
  have h1 : ¬ 0x0180 ≤ a := by omega
  have h2 : ¬ 0x0200 ≤ a := by omega
  have h3 : ¬ 0x0440 ≤ a := by omega
  have h4 : ¬ 0x0C00 ≤ a := by omega
  simp [ioMapped, hn, h1, h2, h3, h4]

theorem ioDark_low (ha : a < 0x0180) : s.ioDark a = false := by
  have h : ¬ 0x0E80 ≤ a := by omega
  simp [State.ioDark, h]

/-- A read by the core of a register that captures nothing. -/
theorem coreRead_byte (ha : a < 0x0180) (hm : inRanges ioRanges a = true) (hg : captureGroup a = none) :
    s.coreRead c a = s.setCell c { (s.cell c).readEffect a with
      ctl := { ((s.cell c).readEffect a).ctl with rd := s.viewIo c a } } := by
  simp [State.coreRead, State.ioRead, Cell.ioUnmapped, ioMapped_low _ ha, hm, ioDark_low ha, hg]

/-- A read by the core of the lowest byte of an `n`-byte register captures them all. -/
theorem coreRead_lowest {n : Nat} (ha : a < 0x0180) (hm : inRanges ioRanges a = true) (hg : captureGroup a = some (a, n)) :
    let y : Cell := { s.cell c with
      capt := Table.writeList (resetByte (s.cell c).prof) (s.cell c).capt a ((List.range n).map fun i => s.viewIo c (a + i)) }
    s.coreRead c a = s.setCell c { y.readEffect a with ctl := { (y.readEffect a).ctl with rd := s.viewIo c a } } := by
  simp [State.coreRead, State.ioRead, Cell.ioUnmapped, ioMapped_low _ ha, hm, ioDark_low ha, hg, State.capture]

/-- A write by the core of a register with no key breaks the open sequence and reaches the register. -/
theorem ioWriteAs_core (out : Bool) (ha : a < 0x0180) (hm : inRanges ioRanges a = true) (hk : lockedAt a = none) :
    s.ioWriteAs c .core out a v = s.setCell c ((s.cell c).breakSeq.writeCore a v) := by
  obtain ⟨hp, _⟩ := (s.cell c).breakSeq_keeps
  have h1 : ¬ 0x03C0 ≤ a := by omega
  have h2 : ¬ 0x0E00 ≤ a := by omega
  have h3 : ¬ 0x0F00 ≤ a := by omega
  simp [State.ioWriteAs, Cell.lockedWrite, hk, Cell.ioUnmapped, ioMapped_low _ ha, hm, ioDark_low ha, State.regWrite, h1, h2, h3,
    Cell.writeReg, ha]

end CoreRegisters

/-! ## The registers of SYS_RESET, RESET_CAUSE and PACE_OVR_CNT (R104, R116, R118) -/

section SystemRegisters

variable {s : State} {c : CellNo}

/-- The first key of SYS_RESET opens its sequence where none is open. -/
theorem sysReset_opens (h : (s.cell c).ctl.locked = none) : s.ioWriteAs c .core false 0x0044 0xA5 =
    s.setCell c { s.cell c with ctl := { (s.cell c).ctl with locked := some { reg := .sysReset, count := 0 } } } := by
  simp [State.ioWriteAs, Cell.lockedWrite, lockedAt, h]

/-- The second key closes the open sequence and resets the cell. -/
theorem sysReset_resets {q : LockedSeq} (h : (s.cell c).ctl.locked = some q) (hq : q.reg = .sysReset) :
    s.ioWriteAs c .core false 0x0044 0x5A =
      (s.setCell c { s.cell c with ctl := { (s.cell c).ctl with locked := none } }).resetInPlace c 8 := by
  simp [State.ioWriteAs, Cell.lockedWrite, lockedAt, h, hq, State.unlocked]

/-- A reset in place of a running cell (R116, R117). -/
theorem State.resetInPlace_running {cause : BitVec 4} (hc : cause ≠ 1) (h : (s.cell c).ctl.st = .running) :
    let x := (s.resetInPlace c cause).cell c
    x.ctl.locked = none ∧ x.ctl.st = .running ∧ x.ctl.resetCause = (s.cell c).ctl.resetCause ||| cause ∧
      x.ctl.cellResets = satInc (s.cell c).ctl.cellResets ∧ x.core.sp = 0 ∧ x.ic = {} := by
  simp only [State.resetInPlace, State.modCell_eq, State.setCell_cell_self]
  exact ⟨rfl, by simp [h], congrArg (· ||| cause) (if_neg hc), rfl, rfl, rfl⟩

theorem coreRead_resetCause : s.coreRead c 0x0043 = s.setCell c { s.cell c with
    ctl := { (s.cell c).ctl with resetCause := 0, rd := (s.cell c).ctl.resetCause.zeroExtend 8 } } :=
  coreRead_byte (by decide) (by decide) (by decide)

/-- The read of PACE_OVR_CNT's low byte captures both bytes and clears the count. -/
theorem coreRead_paceOvrCnt : s.coreRead c 0x0058 = s.setCell c { s.cell c with
    pace := { (s.cell c).pace with ovrCnt := 0 }
    capt := Table.writeList (resetByte (s.cell c).prof) (s.cell c).capt 0x58
      [byteOf (s.cell c).pace.ovrCnt.toNat 0, byteOf (s.cell c).pace.ovrCnt.toNat 1]
    ctl := { (s.cell c).ctl with rd := byteOf (s.cell c).pace.ovrCnt.toNat 0 } } :=
  coreRead_lowest (a := 0x58) (n := 2) (by decide) (by decide) (by decide)

end SystemRegisters

/-! ## The registers IC_PENDSET and IC_EOI (R148, R151) -/

section InterruptRegisters

variable {s : State} {c : CellNo} {v : Byte}

/-- IC_PENDSET sets the bits of IC_PEND that exist. -/
theorem Cell.writeCore_pendset (x : Cell) (byte : Fin 4) : x.writeCore (0x0104 + byte.val) v =
    { x with ic := { x.ic with pend := x.ic.pend ||| (atByte v byte.val &&& icMask) } } :=
  match byte with
  | 0 => rfl
  | 1 => rfl
  | 2 => rfl
  | 3 => rfl

/-- A write of IC_PENDSET sets pending bits of its own byte. -/
theorem icPendset_write (byte : Fin 4) : s.ioWriteAs c .core false (0x0104 + byte.val) v =
    s.setCell c { (s.cell c).breakSeq with
      ic := { (s.cell c).ic with pend := (s.cell c).ic.pend ||| (atByte v byte.val &&& icMask) } } := by
  obtain ⟨_, hi⟩ := (s.cell c).breakSeq_keeps
  have hm : inRanges ioRanges (0x0104 + byte.val) = true := by revert byte; decide
  have hk : lockedAt (0x0104 + byte.val) = none := by revert byte; decide
  rw [ioWriteAs_core false (by omega) hm hk, Cell.writeCore_pendset, hi]

theorem icEoi_write : s.ioWriteAs c .core false 0x010E v =
    s.setCell c { (s.cell c).breakSeq with ic := (s.cell c).ic.pop } := by
  obtain ⟨_, hi⟩ := (s.cell c).breakSeq_keeps
  rw [ioWriteAs_core false (by decide) (by decide) (by decide)]
  simp [Cell.writeCore, hi]

end InterruptRegisters

/-! ## Shared sources (R157, R158) -/

section SharedSources

variable (s : State) (n : Fin 153)

theorem State.modSource_source (f : SharedSrc → SharedSrc) :
    (s.modSource n f).sources.get n = f (s.sources.get n) := by
  show (s.sources.set n.val (f (s.sources.get n)) n.isLt)[n.val] = _
  rw [Vector.getElem_set_self]

@[simp] theorem State.sendTo_sources (d : BitVec 3) (kind : Nat) (last : Bool) (tag : Word) (p : List Byte) :
    (s.sendTo d kind last tag p).sources = s.sources := by
  unfold State.sendTo
  split <;> rfl

/-- An event that goes to a cell is counted as lost at most. -/
theorem State.shToCell_events (d : BitVec 3) (c : CellNo) (input : Nat) :
    ((s.shToCell n d c input).sources.get n).events = (s.sources.get n).events := by
  have hin : (s.shInput c input).sources = s.sources := rfl
  unfold State.shToCell
  dsimp only
  split
  · split
    · rw [State.modSource_source]
    · split
      · rw [State.sendTo_sources]
      · rw [hin]
  · split
    · rw [hin]
    · rw [State.sendTo_sources]

/-- Every event of a shared source is counted, wherever its route leads. -/
theorem State.fireShared_events : ((s.fireShared n).sources.get n).events = satInc (s.sources.get n).events := by
  have hc : ((s.modSource n fun k => { k with events := satInc k.events }).sources.get n).events =
      satInc (s.sources.get n).events := by rw [State.modSource_source]
  unfold State.fireShared
  extract_lets r t
  split
  · exact hc
  · exact (t.shToCell_events ..).trans hc
  · split
    · exact hc
    · rw [State.raise_sources]
      exact hc
  · exact hc

end SharedSources

/-- Settles O18: each access to a register is one change of its own cell, whose fields the clauses name; an event of a shared
source is counted before it is routed. -/
theorem systemAndInterrupts : Obligations.SystemAndInterrupts := by
  refine ⟨?_, ?_⟩
  · intro s c q x hs
    refine ⟨fun h => ⟨_, onStarted_runs hs _, ?_⟩, fun h hq hr => ⟨_, onStarted_runs hs _, ?_⟩,
      fun h => ⟨_, onStarted_runs hs _, ?_⟩, ⟨_, onStarted_runs hs _, ?_⟩, ⟨_, onStarted_runs hs _, ?_⟩⟩
    · rw [sysReset_opens h]
      exact ⟨State.onlyCell_setCell .., by simp, by simp [State.core, x]⟩
    · rw [sysReset_resets h hq]
      have hx := State.resetInPlace_running (s := s.setCell c { x with ctl := { x.ctl with locked := none } }) (c := c)
        (cause := 8) (by decide) (by simp [hr])
      refine ⟨by simp [State.onlyCell, State.resetInPlace], ?_⟩
      simpa [State.core] using hx
    · obtain ⟨hkept, hgone⟩ := Cell.expireLocked_cases h
      exact ⟨State.onlyCell_setCell .., by simpa using hkept, by simpa using hgone⟩
    · rw [coreRead_resetCause]
      exact ⟨State.onlyCell_setCell .., by simp [x], by simp, by simp [State.core, x]⟩
    · rw [coreRead_paceOvrCnt]
      refine ⟨State.onlyCell_setCell .., by simp [byteOf, x], by simp, ?_, by simp [State.core, x]⟩
      simp [Cell.captured, Table.read_writeList, byteOf, Nat.shiftRight_eq_div_pow, x]
  · intro s c byte v n m x
    refine ⟨fun hs => ⟨_, onStarted_runs hs _, ?_⟩, fun hs => ⟨_, onStarted_runs hs _, ?_⟩,
      fun hs hk h7 h23 => ⟨_, onStarted_runs hs _, ?_⟩, fun hd => ⟨_, congrArg Host.Outcome.next (if_pos hd), ?_⟩⟩
    · rw [icPendset_write]
      refine ⟨State.onlyCell_setCell .., by simp [x], by simp [x], ?_⟩
      simp only [State.setCell_cell_self, BitVec.getLsbD_or, BitVec.getLsbD_and, atByte_getLsbD, icMask_getLsbD, Bool.and_assoc, x]
    · obtain ⟨hstack, hpend, hunf⟩ := x.ic.pop_keeps
      rw [icEoi_write]
      exact ⟨State.onlyCell_setCell .., by simpa using hstack, by simpa using hpend, by simpa using hunf⟩
    · have he := sourceExists_of_ne h7 h23
      have hi : ((s.edge c n.val).cell c).ic = x.ic.edge n.val := State.edge_ic hk n.val
      refine ⟨State.onlyCell_setCell .., ?_⟩
      rw [hi]
      exact ⟨x.ic.edge_pend n.val he, x.ic.edge_miss n.val he⟩
    · exact s.fireShared_events m

/-! ## Power-on (R96, R378, R484, R489, R496) -/

section PowerOn

variable (p : Part)

@[simp] theorem State.powerUp_cell (c : CellNo) : (State.powerUp p).cell c = {} := by
  simp [State.powerUp, State.cell, Vector.get]

/-- Of the power domains PD00 alone is on. -/
theorem State.powerUp_dom {d : Nat} (h : d < 63) : ((State.powerUp p).dom d).st = if d = 0 then 2 else 0 := by
  have hd : (State.powerUp p).pwr.doms = (Vector.replicate 63 ({} : Dom)).set 0 { st := 2 } := rfl
  rw [State.dom, hd, Vector.getElem?_set]
  rcases Nat.eq_zero_or_pos d with rfl | hpos
  · simp
  · have h0 : d ≠ 0 := by omega
    simp [h0, h0.symm, h]

theorem State.powerUp_swarmLink (l : Fin 7) : (State.powerUp p).swarmLink l = {} := by
  simp [State.powerUp, State.swarmLink, Vector.get]

theorem State.powerUp_head (h : Fin 4) : (State.powerUp p).heads.get h = {} := by
  simp [State.powerUp, Vector.get]

end PowerOn

/-- Settles O54: the fields of `State.powerUp`, whose units all stand at their reset values but for PD00. -/
theorem resetState : Obligations.ResetState := by
  refine ⟨rfl, rfl, rfl, rfl, rfl, rfl, rfl, fun c => ?_, fun d => State.powerUp_dom _, fun l => ?_, fun h => ?_⟩
  · simp [State.reset]
  · rw [State.reset, State.powerUp_swarmLink]
    rfl
  · rw [State.reset, State.powerUp_head]

end Sys2Proof.Machine
end

section
/-! PROOFS for spec/05_control_store.md: the micro-traps of a privileged sequencer and its microword errors (O24). -/

namespace Sys2Proof.Machine

/-! ## What a change of power domains leaves (R489 to R491) -/

/-- The power registers but for the domains' own states, and the control stores: what a domain that goes off, or one of PD00
and PD49 that comes on, leaves as it is. -/
def State.besidesDoms (s : State) : Pwr × Stores := ({ s.pwr with doms := Vector.replicate 63 {} }, s.stores)

section Domains

variable (s : State)

@[simp] theorem State.raise_besidesDoms (code unit : Nat) (b : Bool) (arg : Nat) (p : List Long) :
    (s.raise code unit b arg p).besidesDoms = s.besidesDoms := by
  simp [State.besidesDoms]

@[simp] theorem State.raiseEvent_besidesDoms (code unit : Nat) (b : Bool) (arg : Nat) :
    (s.raiseEvent code unit b arg).besidesDoms = s.besidesDoms := by
  simp [State.besidesDoms]

@[simp] theorem State.modDom_besidesDoms (d : Nat) (f : Dom → Dom) : (s.modDom d f).besidesDoms = s.besidesDoms := rfl

@[simp] theorem State.setDom_besidesDoms (d : Nat) (st : Byte) : (s.setDom d st).besidesDoms = s.besidesDoms := by
  unfold State.setDom
  split
  · rfl
  · rw [State.raise_besidesDoms, State.modDom_besidesDoms]

@[simp] theorem State.sendTo_besidesDoms (d : BitVec 3) (kind : Nat) (last : Bool) (tag : Word) (p : List Byte) :
    (s.sendTo d kind last tag p).besidesDoms = s.besidesDoms := by
  unfold State.sendTo
  split <;> rfl

@[simp] theorem State.shToCell_besidesDoms (n : Fin 153) (d : BitVec 3) (c : CellNo) (input : Nat) :
    (s.shToCell n d c input).besidesDoms = s.besidesDoms := by
  have hcell : (s.shInput c input).besidesDoms = s.besidesDoms := rfl
  have hlost : (s.modSource n fun r => { r with lost := satInc r.lost }).besidesDoms = s.besidesDoms := rfl
  unfold State.shToCell
  dsimp only
  repeat' split
  all_goals simp [hcell, hlost]

@[simp] theorem State.fireShared_besidesDoms (n : Fin 153) : (s.fireShared n).besidesDoms = s.besidesDoms := by
  unfold State.fireShared
  extract_lets r t
  have ht : t.besidesDoms = s.besidesDoms := rfl
  split
  · exact ht
  · rw [State.shToCell_besidesDoms, ht]
  · split
    · exact ht
    · rw [State.raise_besidesDoms, ht]
  · exact ht

@[simp] theorem State.setLock_besidesDoms (l : LockState) : (s.setLock l).besidesDoms = s.besidesDoms := by
  unfold State.setLock
  extract_lets t u
  have hu : u.besidesDoms = s.besidesDoms := t.fireShared_besidesDoms 0x98
  split
  · rfl
  · cases l <;> simp [hu]

@[simp] theorem State.migLost_besidesDoms (c : CellNo) : (s.migLost c).besidesDoms = s.besidesDoms := by
  unfold State.migLost
  extract_lets x t
  split
  · rfl
  · exact State.raiseEvent_besidesDoms ..

@[simp] theorem State.abandonMigration_besidesDoms (c : CellNo) : (s.abandonMigration c).besidesDoms = s.besidesDoms := by
  unfold State.abandonMigration
  split
  · rfl
  · exact State.migLost_besidesDoms ..

@[simp] theorem State.cutMigrations_besidesDoms : s.cutMigrations.besidesDoms = s.besidesDoms :=
  foldl_keeps State.besidesDoms (fun u c => by dsimp only; split <;> simp) _ s

@[simp] theorem State.linksChanged_besidesDoms : s.linksChanged.besidesDoms = s.besidesDoms := by
  unfold State.linksChanged
  extract_lets now lost t u v
  have hu : u.besidesDoms = s.besidesDoms := foldl_keeps State.besidesDoms (fun w d => by split <;> simp) _ t
  have hv : v.besidesDoms = s.besidesDoms := (State.cutMigrations_besidesDoms u).trans hu
  split
  · rw [State.setLock_besidesDoms, hv]
  · exact hv

@[simp] theorem State.setLink_besidesDoms (l : Fin 7) (st : Byte) (f : Link → Link) :
    (s.setLink l st f).besidesDoms = s.besidesDoms := by
  unfold State.setLink
  extract_lets old t
  split
  · rfl
  · exact State.raiseEvent_besidesDoms ..

/-- A domain loses what its own unit holds (R489). -/
@[simp] theorem State.domLost_besidesDoms (d : Nat) : (s.domLost d).besidesDoms = s.besidesDoms := by
  have hlink (l : Fin 7) : ((s.setLink l lkDown Link.fresh).linksChanged).besidesDoms = s.besidesDoms := by
    rw [State.linksChanged_besidesDoms, State.setLink_besidesDoms]
  unfold State.domLost
  repeat' split
  · rfl
  · rfl
  · rfl
  · rfl
  · exact hlink _
  · rfl
  · rfl

@[simp] theorem State.domOff_besidesDoms (d : Nat) : (s.domOff d).besidesDoms = s.besidesDoms := by
  unfold State.domOff
  split
  · rfl
  · rw [State.setDom_besidesDoms, State.modDom_besidesDoms, State.domLost_besidesDoms]

/-- Nothing follows the ramp of PD00 or PD49 (R493). -/
theorem State.domUp_management {d : Nat} (h : d = 0 ∨ d = 49) : s.domUp d = s := by
  rcases h with rfl | rfl <;> rfl

theorem State.powerDom_besidesDoms {d : Nat} (h : d = 0 ∨ d = 49) : (s.powerDom d).besidesDoms = s.besidesDoms := by
  unfold State.powerDom State.domOnNow
  split
  · rfl
  · rw [State.domUp_management _ h, State.setDom_besidesDoms, State.setDom_besidesDoms]

/-- Going down to the domains that stay powered in FAULT-HOLD (R504). -/
theorem State.setDoms_management_besidesDoms : (s.setDoms [0, 49]).besidesDoms = s.besidesDoms := by
  refine foldl_keeps State.besidesDoms (fun u d => ?_) _ s
  split
  next h => exact u.powerDom_besidesDoms (by simpa using h)
  next => exact u.domOff_besidesDoms d

end Domains

/-! ## FAULT-HOLD (R504) -/

/-- The power registers as FAULT-HOLD is entered with a cause. -/
def Pwr.heldFor (p : Pwr) (cause : Byte) : Pwr :=
  { p with mode := .faultHold, fhCause := cause, crystalOff := false, padHeld := true, doms := Vector.replicate 63 {} }

section FaultHold

variable {s : State}

/-- A change of mode changes the mode alone. -/
theorem State.setMode_besidesDoms (s : State) (m : Mode) :
    (s.setMode m).besidesDoms = (s.modPwr fun p => { p with mode := m }).besidesDoms := by
  unfold State.setMode
  extract_lets old t arg
  split
  next h => subst h; rfl
  next =>
    split
    · exact State.raiseEvent_besidesDoms ..
    · rfl

/-- From SENSE onward a device fault enters FAULT-HOLD with its cause; the control stores keep what they hold. -/
theorem State.faultHold_besidesDoms (hoff : s.pwr.mode ≠ .off) (hhold : s.pwr.mode ≠ .hold) (hf : s.pwr.mode ≠ .faultHold)
    (cause : Byte) : (s.faultHold cause).besidesDoms = (s.pwr.heldFor cause, s.stores) := by
  unfold State.faultHold
  extract_lets old t u chans v w
  have hv : v.besidesDoms = (s.pwr.heldFor cause, s.stores) :=
    calc v.besidesDoms
      _ = u.besidesDoms := u.setDoms_management_besidesDoms
      _ = (t.modPwr fun p => { p with mode := .faultHold }).besidesDoms := t.setMode_besidesDoms .faultHold
      _ = _ := rfl
  have hold : ¬ (decide (old = .off) || old == .hold || old == .faultHold) = true := by simp [old, hoff, hhold, hf]
  rw [if_neg hold]
  -- The journal entry and the channels' registers leave `v`, whose value need not be unfolded to see it.
  clear_value v
  exact hv

end FaultHold

/-! ## The save stack (R135) -/

section SaveStack

variable {q : Sequencer}

theorem Sequencer.request_of_room (h : q.saved.length < 4) (a : BitVec 13) : q.request a = q.enter a := if_pos h

theorem Sequencer.request_of_full (h : 4 ≤ q.saved.length) (a : BitVec 13) :
    q.request a = { q with waiting := q.waiting ++ [a] } := if_neg (Nat.not_lt.mpr h)

/-- With no request waiting, MRET takes the newest frame off the stack. -/
theorem Sequencer.mret_of_frame {k : MicroCtx} {l : List MicroCtx} (hs : q.saved = k :: l) (hw : q.waiting = []) :
    q.mret = { q with ctx := k, saved := l } := by
  simp only [Sequencer.mret, hs, hw]

end SaveStack

/-! ## MICRO_TRAP (R135, R137) -/

section MicroTrap

variable {s : State}

theorem State.modSeq_mc_stores (s : State) (f : Sequencer → Sequencer) :
    (s.modSeq .mc f).stores = { s.stores with mc := f s.stores.mc } := rfl

theorem execMicroTrap_request (h : s.seqRuns = true) (q : SeqUnit) (a : BitVec 13) :
    execMicroTrap q (.request a) s = .next (s.modSeq q fun k => k.request a) := by
  simp [execMicroTrap, h]

theorem execMicroTrap_mret (h : s.seqRuns = true) (q : SeqUnit) :
    execMicroTrap q .mret s = .next (s.modSeq q Sequencer.mret) := by
  simp [execMicroTrap, h]

theorem execMicroTrap_error (h : s.seqRuns = true) (q : SeqUnit) (e : MicroErr) :
    execMicroTrap q (.error e) s = .next (s.seqError q e) := by
  simp [execMicroTrap, h]

theorem State.mode_of_seqRuns (h : s.seqRuns = true) : s.pwr.mode ≠ .off ∧ s.pwr.mode ≠ .hold := by
  constructor <;> intro hm <;> simp [State.seqRuns, hm] at h

/-- CS_LAST_ERR of an error of the management controller's sequencer, unit 30h (R136). -/
def mcLastErr (e : MicroErr) : Long := BitVec.ofNat 64 (0x30 + e.addr.toNat * 256 + e.quarters.toNat * 16777216)

/-- A microword error holds the device with cause 3, and CS_LAST_ERR names it (R137). -/
theorem State.seqError_mc_besidesDoms (hr : s.seqRuns = true) (hf : s.pwr.mode ≠ .faultHold) (e : MicroErr) :
    (s.seqError .mc e).besidesDoms = (s.pwr.heldFor 3, { s.stores with lastErr := mcLastErr e }) := by
  obtain ⟨hoff, hhold⟩ := State.mode_of_seqRuns hr
  unfold State.seqError
  extract_lets code last stores t
  have hp : ((t.raise 6 0 false last.toNat).event 6 0 0 last).pwr = s.pwr := t.raise_pwr ..
  have hs : ((t.raise 6 0 false last.toNat).event 6 0 0 last).stores = t.stores := t.raise_stores ..
  rw [State.faultHold_besidesDoms (hp ▸ hoff) (hp ▸ hhold) (hp ▸ hf), hp, hs]
  rfl

end MicroTrap

/-- Settles O24: a request and MRET act on the sequencer's save stack alone; an error reduces to the fields that FAULT-HOLD
leaves beside the domains. -/
theorem microTraps : Obligations.MicroTraps := by
  intro s a e k l q hr
  refine ⟨fun hroom => ⟨_, execMicroTrap_request hr .mc a, ?_⟩, fun hfull => ⟨_, execMicroTrap_request hr .mc a, ?_⟩,
    fun hs hw => ⟨_, execMicroTrap_mret hr .mc, ?_⟩, fun hf => ⟨_, execMicroTrap_error hr .mc e, ?_⟩⟩
  · dsimp only
    rw [State.modSeq_mc_stores, Sequencer.request_of_room hroom]
    exact ⟨rfl, rfl, rfl, rfl, rfl⟩
  · exact Sequencer.request_of_full hfull a
  · dsimp only
    rw [State.modSeq_mc_stores, Sequencer.mret_of_frame hs hw]
    exact ⟨rfl, rfl, rfl, rfl⟩
  · have h := State.seqError_mc_besidesDoms hr hf e
    simp only [State.besidesDoms, Prod.mk.injEq] at h
    obtain ⟨hp, hs⟩ := h
    have hm := congrArg Pwr.mode hp
    have hc := congrArg Pwr.fhCause hp
    exact ⟨hm, hc, congrArg Stores.lastErr hs⟩

end Sys2Proof.Machine
end

section
/-! PROOFS for spec/06_cell_interrupts.md: the frames of a swarm link that act on this device, the EVENT frame of a shared
input among them, and a frame out of order (O35). -/

namespace Sys2Proof.Machine

/-! ## Reception of a frame (R376 to R380) -/

section Reception

/-- The link once it takes the frame `j`: what the ACK covers leaves the replay buffer, and a numbered frame is counted and
frees its units. -/
def Link.taken (k : Link) (j : JFrame) : Link :=
  let k := match j.ack with
    | some a => k.acked a
    | none => k
  let c := jclass j.kind
  if c = 0 then k else { k with rxSeq := k.rxSeq + 1, nakSent := none, freed := k.freed.set c (k.freed.get c + j.units) }

variable (k : Link) (j : JFrame)

/-- A frame of class 0 has no number of its own. -/
theorem Link.taken_rxSeq : (k.taken j).rxSeq = if jclass j.kind = 0 then k.rxSeq else k.rxSeq + 1 := by
  unfold Link.taken
  cases j.ack <;> dsimp only <;> split <;> rfl

@[simp] theorem Link.taken_keeps :
    (k.taken j).credit = k.credit ∧ (k.taken j).parts = k.parts ∧ (k.taken j).peer = k.peer := by
  unfold Link.taken
  cases j.ack <;> dsimp only <;> split <;> exact ⟨rfl, rfl, rfl⟩

variable {k j} in
/-- A frame of class 0 without an ACK leaves the link as it is. -/
theorem Link.taken_of_control (hc : jclass j.kind = 0) (ha : j.ack = none) : k.taken j = k := by
  simp [Link.taken, hc, ha]

@[simp] theorem State.modLinkL_swarmLink (s : State) (l m : Fin 7) (f : Link → Link) :
    (s.modLinkL l f).swarmLink m = if m = l then f (s.swarmLink l) else s.swarmLink m := by
  show (s.swarm.links.set l.val _ l.isLt)[m.val] = if m = l then _ else s.swarm.links[m.val]
  simp only [Vector.getElem_set, Fin.ext_iff, eq_comm]
  rfl

@[simp] theorem State.modLinkL_devId (s : State) (l : Fin 7) (f : Link → Link) : (s.modLinkL l f).devId = s.devId := rfl

@[simp] theorem State.modLinkL_objOr (s : State) (l : Fin 7) (f : Link → Link) (i j d : Nat) :
    (s.modLinkL l f).objOr i j d = s.objOr i j d := rfl

/-- Two changes of a link are one. -/
theorem State.modLinkL_modLinkL (s : State) (l : Fin 7) (f g : Link → Link) :
    (s.modLinkL l f).modLinkL l g = s.modLinkL l fun k => g (f k) := by
  have hg : (s.modLinkL l f).swarm.links.get l = f (s.swarm.links.get l) := by
    simpa [State.swarmLink] using s.modLinkL_swarmLink l l f
  rw [State.modLinkL, hg]
  simp [State.modLinkL]

variable {s : State} {l : Fin 7} {kind : Nat} {bytes : List Byte} {j : JFrame}

theorem State.receives.kind_eq (h : s.receives l kind bytes j) : j.kind = kind := by
  obtain ⟨_, _, _, hk, _⟩ := h
  exact hk

theorem State.receives.dictServed (h : s.receives l kind bytes j) : s.dictServed = true := by
  obtain ⟨hl, _⟩ := h
  simp only [State.linkOn, Bool.and_eq_true] at hl
  exact hl.1

/-- A frame for this device that is in order is taken by the link, and then acts. -/
theorem receive_takes (h : s.receives l kind bytes j) (f : JFrame → State → State) :
    receive l kind bytes f s = .next (f j (s.modLinkL l fun k => k.taken j)) := by
  obtain ⟨hl, hu, hp, rfl, hk, hq, hd⟩ := h
  have hk' : ¬ 12 ≤ j.kind := by omega
  simp only [receive, hl, hu, hp, hk', hq, hd, bne_self_eq_false, Bool.not_true, Bool.or_self, Bool.false_eq_true, if_false,
    ne_eq, not_true_eq_false, State.modLinkL_devId, if_true]
  rfl

/-- What a frame that is not taken leaves: all but link `l`, and the number that link expects. -/
def State.Untaken (s : State) (l : Fin 7) (t : State) : Prop :=
  t.cells = s.cells ∧ t.objs = s.objs ∧ t.mc = s.mc ∧ (t.swarmLink l).rxSeq = (s.swarmLink l).rxSeq ∧
    ∀ m, m ≠ l → t.swarmLink m = s.swarmLink m

theorem State.Untaken.refl (s : State) (l : Fin 7) : s.Untaken l s := ⟨rfl, rfl, rfl, rfl, fun _ _ => rfl⟩

theorem State.Untaken.modLinkL {f : Link → Link} (h : (f (s.swarmLink l)).rxSeq = (s.swarmLink l).rxSeq) :
    s.Untaken l (s.modLinkL l f) :=
  ⟨rfl, rfl, rfl, by simp [h], fun m hm => by simp [hm]⟩

/-- A NAK is a frame of class 0, which leaves the number that the link expects (R379). -/
theorem State.sendNak_untaken : s.Untaken l (s.sendNak l) := by
  unfold State.sendNak
  extract_lets k
  split
  · exact .refl s l
  · exact .modLinkL rfl

/-- The answer is a next state in which the frame is not taken. -/
def State.Discards (s : State) (l : Fin 7) (r : Res) : Prop := ∃ t, r = .next t ∧ s.Untaken l t

/-- A frame out of order is answered by a NAK at most, whichever command awaits it (R379). -/
theorem receive_outOfOrder (hl : s.linkOn l = true) (hu : (s.swarmLink l).state = lkUp) (hp : JFrame.parse bytes = some j)
    (hk : j.kind < 12) (hq : j.seq ≠ (s.swarmLink l).rxSeq) (kind : Nat) (f : JFrame → State → State) :
    s.Discards l (receive l kind bytes f s) := by
  have hk' : ¬ 12 ≤ j.kind := by omega
  simp only [receive, hl, hu, hp, hk', hq, bne_self_eq_false, Bool.not_true, Bool.or_self, Bool.false_eq_true, if_false, ne_eq,
    not_false_eq_true, if_true]
  split
  · exact ⟨s, rfl, .refl s l⟩
  · exact ⟨_, rfl, State.sendNak_untaken⟩

/-- A packet of one numbered frame is whole once the link takes that frame, and leaves no part behind (R376). -/
theorem State.gather_taken (hw : s.wholePacket l j) (hc : jclass j.kind ≠ 0) :
    ∃ f : Link → Link, (f (s.swarmLink l)).rxSeq = (s.swarmLink l).rxSeq + 1 ∧
      (s.modLinkL l fun k => k.taken j).gather l j = (s.modLinkL l f, some j.payload) := by
  obtain ⟨hl, hp⟩ := hw
  refine ⟨fun k => { k.taken j with
    parts := Table.write (fun _ => []) k.parts (j.kind * 2 ^ 32 + j.tag.toNat) [] }, by simp [Link.taken_rxSeq, hc], ?_⟩
  simp only [State.gather, hl, State.modLinkL_swarmLink, if_true, Link.taken_keeps, hp, List.nil_append, State.modLinkL_modLinkL]

end Reception

/-! ## NAK and BEAM (R379, R383, R384) -/

section Control

variable {s : State} {l : Fin 7} {bytes : List Byte} {j : JFrame}

/-- Something is left when some element stops `dropWhile`. -/
theorem dropWhile_length_ne_zero {α : Type} {p : α → Bool} {l : List α} (h : (l.any fun x => !p x) = true) :
    (l.dropWhile p).length ≠ 0 := by
  induction l with
  | nil => cases h
  | cons a r ih =>
    rw [List.dropWhile_cons]
    split
    · next hp =>
      rw [List.any_cons, hp] at h
      exact ih h
    · exact Nat.succ_ne_zero r.length

/-- Fewer than sixteen resends of a frame that the replay buffer holds leave the link up (R379). -/
theorem State.resend_counts {q : BitVec 12} (hr : (s.swarmLink l).resends < 15)
    (hq : ((s.swarmLink l).replay.any fun f => f.seq == q) = true) :
    ∃ n, s.resend l q = s.modLinkL l fun k => { k with retries := n, resends := k.resends + 1 } := by
  have hn : ((s.swarmLink l).replay.dropWhile fun f => f.seq != q).length ≠ 0 := by
    exact dropWhile_length_ne_zero (by simpa using hq)
  have hs : ¬ 16 ≤ (s.swarmLink l).resends + 1 := by omega
  simp only [State.resend, if_neg hn, State.modLinkL_swarmLink, if_true, if_neg hs]
  exact ⟨_, rfl⟩

/-- A NAK of a frame that the replay buffer holds counts one more resend, and the link stays up. -/
theorem execJajanNak_resends (hr : s.receives l 1 bytes j) (ha : j.ack = none) (hn : (s.swarmLink l).resends < 15)
    (hq : ((s.swarmLink l).replay.any fun f => f.seq == j.tag.setWidth 12) = true) :
    ∃ n, execJajanNak l bytes s = .next (s.modLinkL l fun k => { k with retries := n, resends := k.resends + 1 }) := by
  have hc : (fun k : Link => k.taken j) = id :=
    funext fun _ => Link.taken_of_control (by rw [hr.kind_eq]; rfl) ha
  obtain ⟨n, e⟩ := State.resend_counts (s := s.modLinkL l id) (l := l) (by simpa using hn) (by simpa using hq)
  refine ⟨n, (receive_takes hr _).trans ?_⟩
  rw [hc, e, State.modLinkL_modLinkL]
  rfl

/-- The beam master, and how long ago its last BEAM frame came. -/
def State.mastered (s : State) : Byte × Nat := (s.swarm.master, s.swarm.beamAge)

variable (s)

@[simp] theorem State.sendTo_mastered (d : BitVec 3) (kind : Nat) (last : Bool) (tag : Word) (p : List Byte) :
    (s.sendTo d kind last tag p).mastered = s.mastered := by
  unfold State.sendTo
  split <;> rfl

theorem State.shToCell_mastered (n : Fin 153) (d : BitVec 3) (c : CellNo) (input : Nat) :
    (s.shToCell n d c input).mastered = s.mastered := by
  have hcell : (s.shInput c input).mastered = s.mastered := rfl
  have hlost : (s.modSource n fun r => { r with lost := satInc r.lost }).mastered = s.mastered := rfl
  unfold State.shToCell
  dsimp only
  repeat' split
  all_goals simp [hcell, hlost]

theorem State.fireShared_mastered (n : Fin 153) : (s.fireShared n).mastered = s.mastered := by
  unfold State.fireShared
  extract_lets r t
  have ht : t.mastered = s.mastered := rfl
  split
  · exact ht
  · rw [State.shToCell_mastered, ht]
  · split
    · exact ht
    · rw [State.mastered, State.raise_swarm]
      exact ht
  · exact ht

@[simp] theorem State.setLock_mastered (l : LockState) : (s.setLock l).mastered = s.mastered := by
  unfold State.setLock
  extract_lets t u
  have hu : u.mastered = s.mastered := t.fireShared_mastered 0x98
  split
  · rfl
  · cases l <;> simpa [State.mastered] using hu

@[simp] theorem State.modHouse_mastered (f : HouseBeam → HouseBeam) : (s.modHouse f).mastered = s.mastered := rfl

theorem State.validPulse_mastered (m : PulseMeas) : (s.validPulse m).mastered = s.mastered := by
  unfold State.validPulse
  extract_lets ofs t good u v
  split
  · split <;> simp [t]
  · split <;> simp [t]
  · split <;> simp [u, t]
  · split <;> simp [v, t]

/-- A pulse moves the house beam, and not the choice of its master. -/
theorem State.beamPulse_mastered (m : PulseMeas) : (s.beamPulse m).mastered = s.mastered := by
  unfold State.beamPulse
  split
  · exact s.modHouse_mastered _
  · exact s.validPulse_mastered m

theorem State.takeTime_mastered (t : Long) : (s.takeTime t).mastered = s.mastered := by
  unfold State.takeTime
  extract_lets err u
  split <;> rfl

variable {s}

/-- A BEAM frame of the master on a direct link makes it young again. -/
theorem execJajanBeam_master (m : PulseMeas) (hr : s.receives l 3 bytes j) (hm : s.swarm.master = BitVec.ofNat 8 j.src.toNat)
    (hp : (s.swarmLink l).peer.toNat = j.src.toNat) :
    ∃ t, execJajanBeam l bytes m s = .next t ∧ t.mastered = (s.swarm.master, 0) := by
  have hsrc : s.swarm.master.toNat = j.src.toNat := by
    have := j.src.isLt
    rw [hm, BitVec.toNat_ofNat]
    omega
  refine ⟨_, receive_takes hr _, ?_⟩
  simp only [State.modLinkL_swarm, State.modLinkL_swarmLink, if_true, Link.taken_keeps, hsrc, hp, bne_self_eq_false, Bool.false_and,
    Bool.false_eq_true, if_false, beq_self_eq_true, Bool.and_self, decide_true]
  split
  · rw [State.beamPulse_mastered, State.takeTime_mastered]
    rfl
  · rw [State.takeTime_mastered]
    rfl

end Control

/-! ## EVENT (R160, R308) -/

section SharedInput

theorem Cell.OnlyTm.core {x y : Cell} (h : x.OnlyTm y) : y.core = x.core := by
  obtain ⟨_, _, rfl⟩ := h
  rfl

/-- A pending bit of `x` stands in `y`. -/
def Cell.PendStands (n : Nat) (x y : Cell) : Prop := x.ic.pend.getLsbD n = true → y.ic.pend.getLsbD n = true

variable (x : Cell) {n : Nat}

theorem Ic.edge_pend_stands (i : Ic) (m : Nat) (h : i.pend.getLsbD n = true) : (i.edge m).pend.getLsbD n = true := by
  unfold Ic.edge
  split
  · exact h
  · split
    · exact h
    · have hn : n < 32 := BitVec.lt_of_getLsbD h
      by_cases hm : n = m
      · simp [putBit, ← hm, hn]
      · simp [putBit, h, hn]

theorem Cell.edge_pendStands (m : Nat) : x.PendStands n (x.edge m) := by
  intro h
  unfold Cell.edge
  dsimp only
  split
  · unfold Ic.edgeAsleep
    split
    · exact h
    · split <;> exact h
  · exact x.ic.edge_pend_stands m h

theorem Cell.tmFlags_pendStands (t : Fin 4) (bits : Byte) (quiet : Bool) : x.PendStands n (x.tmFlags t bits quiet) := by
  intro h
  unfold Cell.tmFlags
  dsimp only
  split
  · exact Cell.edge_pendStands _ _ h
  · exact h

/-- A capture raises flags, whose edges clear no pending bit (R308). -/
theorem Cell.tmCapture_pendStands (t : Fin 4) : x.PendStands n (x.tmCapture t) := by
  intro h
  unfold Cell.tmCapture
  split
  · exact h
  · extract_lets f ovr y z
    have hy : y.ic = x.ic := by
      unfold y
      split <;> rfl
    have hz : z.ic = x.ic := by
      unfold z
      split <;> exact hy
    exact z.tmFlags_pendStands t 4 false (hz ▸ h)

theorem Cell.tmCaptureOn_pendStands (src sh : Nat) : x.PendStands n (x.tmCaptureOn src sh) := fun h =>
  List.foldlRecOn (motive := fun y : Cell => y.ic.pend.getLsbD n = true) tmAll _ h fun y hy t _ => by
    dsimp only
    split
    · exact y.tmCapture_pendStands t hy
    · exact hy

/-- The edge of a shared input stands as pending where the cluster clocks run, and the core goes on as it was. -/
theorem State.shInput_pends {s : State} {c : CellNo} (h : (s.cell c).clocksStopped = false) (input : Fin 4) :
    ((s.shInput c input.val).cell c).ic.pend.getLsbD (24 + input.val) = true ∧
    ((s.shInput c input.val).cell c).core = (s.cell c).core := by
  have he : sourceExists (24 + input.val) = true := by revert input; decide
  have hp : ((s.cell c).edge (24 + input.val)).ic.pend.getLsbD (24 + input.val) = true := by
    simpa [Cell.edge, h] using (s.cell c).ic.edge_pend _ he
  simp only [State.shInput, State.modCell_eq, State.setCell_cell_self]
  exact ⟨Cell.tmCaptureOn_pendStands _ _ _ hp, (((s.cell c).edge_onlyTm _).trans (Cell.tmCaptureOn_onlyTm ..)).core⟩

end SharedInput

/-! ## SLICE and DICT (R388, R412, R441, R448) -/

section Traffic

variable {s : State} {l : Fin 7} {bytes : List Byte} {j : JFrame}

/-- An enabled slice queue with room takes the slice at its end (R412). -/
theorem State.sliceEnqueue_room {c : CellNo} (hv : s.vfOn = true) (he : (s.cell c).host.slice.en = true)
    (hl : (s.cell c).host.slice.waiting.length < 8) (ws : List Long) :
    s.sliceEnqueue c ws = s.modHost c fun h => { h with slice := h.slice.enqueue ws } := by
  have hl' : ¬ 8 ≤ (s.cell c).host.slice.waiting.length := by omega
  simp [State.sliceEnqueue, hv, he, hl']

/-- A line of a cell that is away reaches its slice queue at home (R388). -/
theorem execJajanSlice_brings (hr : s.receives l 4 bytes j) (hw : s.wholePacket l j) (hh : j.home = s.devId)
    (ha : (s.cell j.cell).kp.away.isSome = true) (ho : s.objOr (0x4002 + 16 * j.cell.val) 1 1 ≠ 0) (hv : s.vfOn = true)
    (he : (s.cell j.cell).host.slice.en = true) (hl : (s.cell j.cell).host.slice.waiting.length < 8) :
    ∃ t, execJajanSlice l bytes s = .next t ∧ (t.swarmLink l).rxSeq = (s.swarmLink l).rxSeq + 1 ∧
      (t.cell j.cell).host.slice = (s.cell j.cell).host.slice.enqueue (packWords j.payload) := by
  obtain ⟨f, hf, e⟩ := State.gather_taken hw (by rw [hr.kind_eq]; decide)
  have hn : (s.cell j.cell).kp.away.isNone = false := by simpa using ha
  refine ⟨_, receive_takes hr _, ?_⟩
  simp only [e, State.modLinkL_devId, State.modLinkL_cell, hh, hn, State.modVid_eq, State.setCell_objOr, State.modLinkL_objOr, ho,
    ne_eq, not_true_eq_false, decide_false, Bool.or_false, Bool.false_eq_true, if_false]
  rw [State.sliceEnqueue_room]
  · simp [hf]
  · exact hv
  · simpa using he
  · simpa using hl

/-- The response to the request that the mailbox's session sent on ends that request (R441, R448). -/
theorem State.dictIn_mailbox {body : List Byte} {q : Session} (hd : s.dictServed = true) (hn : 12 ≤ body.length)
    (hv : body.getD 0 0 = 1) (hf : (msgHead body).flags.getLsbD 1 = true) (ht : q.transport = 1)
    (hq : (s.mc.sessions.find? fun z => z.num == (msgHead body).session && z.dev == s.devId && !z.fwd.isEmpty &&
      (msgHead z.fwd).tid == (msgHead body).tid) = some q) (src : BitVec 3) :
    s.dictIn src body = ((s.keep q q.fwd body).modSession q fun k => { k with fwd := [] }).mbxEnd body := by
  have hn' : ¬ body.length < 12 := by omega
  simp only [State.dictIn, hd, hn', hv, hf, hq, State.answer, ht, Bool.not_true, decide_false, bne_self_eq_false, Bool.or_self,
    Bool.false_eq_true, if_false, if_true]

/-- A DICT frame that holds the mailbox's response ends its request, once the link has taken the frame. -/
theorem execJajanDict_mailbox {q : Session} (hr : s.receives l 8 bytes j) (hw : s.wholePacket l j) (hn : 12 ≤ j.payload.length)
    (hv : j.payload.getD 0 0 = 1) (hf : (msgHead j.payload).flags.getLsbD 1 = true) (ht : q.transport = 1)
    (hq : (s.mc.sessions.find? fun z => z.num == (msgHead j.payload).session && z.dev == s.devId && !z.fwd.isEmpty &&
      (msgHead z.fwd).tid == (msgHead j.payload).tid) = some q) :
    ∃ f, execJajanDict l bytes s = .next
      ((((s.modLinkL l f).keep q q.fwd j.payload).modSession q fun k => { k with fwd := [] }).mbxEnd j.payload) := by
  obtain ⟨f, _, e⟩ := State.gather_taken hw (by rw [hr.kind_eq]; decide)
  refine ⟨f, (receive_takes hr _).trans ?_⟩
  simp only [e, State.dictIn_mailbox (s := s.modLinkL l f) hr.dictServed hn hv hf ht hq]

end Traffic

/-- Settles O35: each frame in order is taken by its link (`receive_takes`) and acts by one operation, whose lemma says the
rest; a frame out of order is discarded before what its type does (`receive_outOfOrder`). -/
theorem frameCommands : Obligations.FrameCommands := by
  refine ⟨fun s l bytes j m input q => ⟨fun hr => ?_, fun hr ha hn hq => ?_, fun hr hm hp => ?_,
    fun hr hw hh ha ho hv he hl => ?_, fun hr hh ha hl => ?_, fun hr hh ha hs hc => ?_, fun hr hw hg hh ht => ?_,
    fun hr hw hn hv hf ht hq => ?_⟩, fun s l bytes j hl hu hp hk hq => ?_⟩
  · refine ⟨_, (receive_takes hr _ : execJajanCtrl l bytes s = _), ?_, fun n => ?_⟩
    · simp [Link.taken_rxSeq, hr.kind_eq, jclass]
    · simp only [State.modLinkL_swarmLink, if_true, Link.taken_keeps]
      exact Vector.getElem_ofFn n.isLt
  · obtain ⟨n, e⟩ := execJajanNak_resends hr ha hn hq
    exact ⟨_, e, by simp, by simp⟩
  · obtain ⟨t, e, ht⟩ := execJajanBeam_master m hr hm hp
    exact ⟨t, e, congrArg Prod.snd ht, congrArg Prod.fst ht⟩
  · obtain ⟨t, e, hx, hs⟩ := execJajanSlice_brings hr hw hh ha ho hv he hl
    exact ⟨t, e, hx, _, congrArg Queue.waiting hs, rfl⟩
  · have hd : j.home = (s.modLinkL l fun k => k.taken j).devId := hh
    refine ⟨_, (receive_takes hr _ : execJajanAudio l bytes s = _), ?_⟩
    simp [hd, ha, hl]
  · have hd : (s.modLinkL l fun k => k.taken j).homeOf j.cell = j.home := hh
    refine ⟨_, (receive_takes hr _ : execJajanEvent l bytes input s = _), ?_⟩
    simp only [hd, State.modLinkL_cell, ha, hs, Option.isNone_none, decide_true, Bool.and_self, if_true]
    exact State.shInput_pends (s := s.modLinkL l _) hc input
  · obtain ⟨f, hf, e⟩ := State.gather_taken hw (by rw [hr.kind_eq]; decide)
    refine ⟨_, (receive_takes hr _ : execJajanCellio l bytes s = _), ?_⟩
    simp [e, hg, hh, ht]
  · obtain ⟨f, e⟩ := execJajanDict_mailbox hr hw hn hv hf ht hq
    exact ⟨_, e, rfl, rfl, rfl, by simp [State.mbxEnd, State.msi, State.keep, State.modSession]⟩
  · have h := receive_outOfOrder hl hu hp hk hq
    simp only [List.forall_mem_cons]
    exact ⟨(h 0 _ : s.Discards l (execJajanCtrl l bytes s)), (h 1 _ : s.Discards l (execJajanNak l bytes s)),
      (h 4 _ : s.Discards l (execJajanSlice l bytes s)), (h 5 _ : s.Discards l (execJajanAudio l bytes s)),
      (h 7 _ : s.Discards l (execJajanCellio l bytes s)), (h 8 _ : s.Discards l (execJajanDict l bytes s)),
      (h 10 _ : s.Discards l (execJajanPage l bytes s)), (h 11 _ : s.Discards l (execJajanState l bytes s)),
      (h 9 _ : s.Discards l (execMigcReady l bytes s)), (h 9 _ : s.Discards l (execMigcAck l bytes s)),
      fun _ hi => nomatch hi⟩

end Sys2Proof.Machine
end

section
/-! PROOFS for spec/07_cell_memory.md: the invariant at reset and over a step (O55, O56), cell space (O59), the mapper (O19),
the end of an image transfer and of a control-store repair (O20), page moves and sharing (O25). -/

namespace Sys2Proof.Machine

/-! ## The invariant (R163, R452) -/

/-- Settles O56: every command keeps the invariant of the state that it finds, and so does an idle step (`step_of_kept`). -/
theorem stepKeepsInvariant : Obligations.StepKeepsInvariant := by
  intro s t hi e
  obtain ⟨_, _, keeps⟩ := step_of_kept (fun i u _ h => (h ▸ exec_lawful u i).kept) e
  exact keeps hi

/-- Settles O55: the device powers up with every cell space empty and the two entries of the boot journal. -/
theorem resetInvariant : Obligations.ResetInvariant := State.powerUp_inv .ak6440fc

/-! ## Cell space (R163) -/

/-- Cell spaces in canonical form that read the same are the same data. -/
theorem Cell.mem_eq_of_readMem {x y : Cell} (hx : Memory.wf x.mem = true) (hy : Memory.wf y.mem = true)
    (h : ∀ a, x.readMem a = y.readMem a) : x.mem = y.mem := Table.ext_of_wf memDefault hx hy h

/-- Settles O59: the last two clauses compare tables in canonical form byte by byte. -/
theorem memoryReadsBack : Obligations.MemoryReadsBack := by
  intro x a b v w
  refine ⟨x.writeMem_readMem a b v, x.writeMem_wf a v, fun h e => ?_, fun h => ?_⟩
  · refine Cell.mem_eq_of_readMem (x.writeMem_wf a v h) h fun i => ?_
    by_cases hi : i = a
    · rw [hi, e]
    · rw [Cell.writeMem_readMem, if_neg hi]
  · refine Cell.mem_eq_of_readMem ((x.writeMem a w).writeMem_wf a v (x.writeMem_wf a w h)) (x.writeMem_wf a v h) fun i => ?_
    simp only [Cell.writeMem_readMem]
    split <;> rfl

/-! ## The mapper (R168, R169, R180) -/

section MapperWrites

variable {s : State} {c : CellNo} {v : Byte} (m : Mapper) (n : Fin 16)

/-- The lock bit of the space of window `n`. -/
def Mapper.locks : Bool := if n.val < 8 then m.lockI else m.lockD

theorem Mapper.locks_eq : ((n.val < 8 && m.lockI) || (8 ≤ n.val && m.lockD)) = m.locks n := by
  unfold Mapper.locks
  split
  · simp [Nat.not_le_of_lt ‹_›, ‹n.val < 8›]
  · simp [Nat.le_of_not_lt ‹_›, ‹¬ n.val < 8›]

theorem Mapper.writeWindow_of_locks {m : Mapper} {n : Fin 16} (h : m.locks n = true) (high : Bool) :
    m.writeWindow n.val high v = { m with stat := m.stat ||| 0x10 } :=
  if_pos ((m.locks_eq n).trans h)

theorem Mapper.writeWindow_of_not_locks {m : Mapper} {n : Fin 16} (h : m.locks n = false) (high : Bool) :
    m.writeWindow n.val high v =
      if high then { m with win := m.win.set n ((v ++ m.stage.get n) &&& (if n.val < 8 then 0x1FFF else 0x3FFF)) }
      else { m with stage := m.stage.set n v } := by
  have hset {β : Type} (t : Vector β 16) (w : β) : t.setIfInBounds n w = t.set n w := by
    ext i
    simp [Vector.getElem_set, Vector.getElem_setIfInBounds]
  have hget : m.stage.getD n 0 = m.stage.get n := by simp [Vector.getD, Vector.get]
  simp only [Mapper.writeWindow, m.locks_eq, h, hset, hget, Bool.false_eq_true, if_false]

/-- The bytes of the window registers stand at 0000h to 001Fh, low byte first, and hold no key (R180). -/
theorem windowAddr (high : Bool) :
    let a := 2 * n.val + b2n high
    a < 0x20 ∧ a / 2 = n.val ∧ (a % 2 == 1) = high ∧ inRanges ioRanges a = true ∧ lockedAt a = none := by
  revert n high
  decide

theorem Cell.writeCore_window (x : Cell) (high : Bool) :
    x.writeCore (2 * n.val + b2n high) v = { x with map := x.map.writeWindow n.val high v } := by
  obtain ⟨ha, hn, hb, _⟩ := windowAddr n high
  rw [Cell.writeCore, if_pos ha, hn, hb]

theorem Cell.breakSeq_map (x : Cell) : x.breakSeq.map = x.map := by
  unfold Cell.breakSeq
  split
  · rfl
  · next q _ => cases q.reg <;> rfl

/-- A window write breaks an open locked sequence and reaches the mapper. -/
theorem execMapWindowWrite_next (h : s.startedCell c = true) (high : Bool) :
    execMapWindowWrite c n high v s =
      .next (s.setCell c { (s.cell c).breakSeq with map := (s.cell c).map.writeWindow n.val high v }) := by
  obtain ⟨ha, _, _, hm, hk⟩ := windowAddr n high
  rw [execMapWindowWrite, coreWrite, onStarted_runs h, ioWriteAs_core false (by omega) hm hk, Cell.writeCore_window,
    Cell.breakSeq_map]

/-- The second key completes the open sequence of MAP_KEY. -/
theorem execMapKeyWrite_completes (h : s.startedCell c = true) {q : LockedSeq} (hl : (s.cell c).ctl.locked = some q)
    (hq : q.reg = .mapKey) :
    execMapKeyWrite c 0xC3 s =
      .next (s.setCell c { s.cell c with
        ctl := { (s.cell c).ctl with locked := none }, map := (s.cell c).map.unlock }) := by
  rw [execMapKeyWrite, coreWrite, onStarted_runs h]
  simp [State.ioWriteAs, Cell.lockedWrite, lockedAt, hl, hq, State.unlocked]

theorem Mapper.unlock_of_hard {m : Mapper} (h : m.hard = true) : m.unlock = m := if_pos h

theorem Mapper.unlock_of_soft {m : Mapper} (h : m.hard = false) : m.unlock = { m with lockI := false, lockD := false } := by
  simp [Mapper.unlock, h]

theorem Mapper.unlock_win : m.unlock.win = m.win := by
  unfold Mapper.unlock
  split <;> rfl

end MapperWrites

/-- Settles O19: each write is one change of the cell, to its mapper and its locked sequence. -/
theorem mapperRegisters : Obligations.MapperRegisters := by
  intro s c n v q x lockd hs
  refine ⟨fun hl => ?_, fun hl => ?_, fun hl high => ?_, fun hq hk => ?_⟩
  · refine ⟨_, execMapWindowWrite_next n hs false, s.onlyCell_setCell _, ?_⟩
    rw [Mapper.writeWindow_of_not_locks hl, State.setCell_cell_self]
    rfl
  · refine ⟨_, execMapWindowWrite_next n hs true, s.onlyCell_setCell _, ?_⟩
    rw [Mapper.writeWindow_of_not_locks hl, State.setCell_cell_self, if_pos rfl]
    refine ⟨?_, fun j hj => ?_, rfl⟩
    · exact Vector.getElem_set_self ..
    · exact Vector.getElem_set_ne n.isLt j.isLt fun h => hj (Fin.ext h.symm)
  · refine ⟨_, execMapWindowWrite_next n hs high, s.onlyCell_setCell _, ?_⟩
    rw [Mapper.writeWindow_of_locks hl, State.setCell_cell_self]
  · refine ⟨_, execMapKeyWrite_completes hs hq hk, s.onlyCell_setCell _, ?_⟩
    rw [State.setCell_cell_self]
    refine ⟨rfl, Mapper.unlock_win _, fun hh => ?_, Mapper.unlock_of_hard⟩
    rw [Mapper.unlock_of_soft hh]
    exact ⟨rfl, rfl⟩

/-! ## The end of an image transfer and of a repair (R138, R178) -/

section ImageEnd

variable {s : State} {c : CellNo} {pages : List PageAlloc}

/-- The entries of the bytes `l` from key `n` on; zeros are not listed. -/
def imgMemFrom (n : Nat) (l : List Byte) : List Host.Cell :=
  (l.zipIdx n).filterMap fun p => if p.1 = 0 then none else some (p.2, p.1)

theorem imgMemFrom_cons (n : Nat) (w : Byte) (r : List Byte) :
    imgMemFrom n (w :: r) = if w = 0 then imgMemFrom (n + 1) r else (n, w) :: imgMemFrom (n + 1) r := by
  rw [imgMemFrom, List.zipIdx_cons, List.filterMap_cons]
  by_cases hw : w = 0
  · simp only [hw, if_true, imgMemFrom]
  · simp only [hw, if_false, imgMemFrom]

theorem imgMemFrom_read (n : Nat) (l : List Byte) (a : Nat) :
    Table.read memDefault (imgMemFrom n l) a = if n ≤ a then l.getD (a - n) 0 else 0 := by
  induction l generalizing n with
  | nil => simp [imgMemFrom, memDefault]
  | cons w r ih =>
    rw [imgMemFrom_cons, apply_ite (Table.read memDefault · a), Table.read_cons, ih]
    rcases Nat.lt_trichotomy a n with h | rfl | h
    · have h' : ¬ n + 1 ≤ a := by omega
      rw [if_neg h', if_neg (Nat.ne_of_gt h), if_neg (Nat.not_le_of_lt h), ite_self]
    · rw [if_neg (Nat.not_succ_le_self a), if_pos rfl, if_pos (Nat.le_refl a), Nat.sub_self, List.getD_cons_zero]
      split
      · exact Eq.symm ‹_›
      · rfl
    · obtain ⟨k, rfl⟩ := Nat.exists_eq_add_of_lt h
      have hk : n + k + 1 - n = k + 1 := by omega
      have hk' : n + k + 1 - (n + 1) = k := by omega
      have hle : n + 1 ≤ n + k + 1 := by omega
      rw [if_pos hle, if_neg (Nat.ne_of_lt h), if_pos (Nat.le_of_lt h), ite_self, hk, hk', List.getD_cons_succ]

/-- A loaded image reads back (R178). -/
theorem imgMem_read (l : List Byte) (a : Nat) : Table.read memDefault (imgMem l) a = l.getD a 0 := by
  have h : imgMem l = imgMemFrom 0 l := rfl
  rw [h, imgMemFrom_read, if_pos (Nat.zero_le a), Nat.sub_zero]

/-- Of the cells, only the page map of the loaded one takes in the pages. -/
theorem State.allocPages_cell (ro : Nat) :
    (s.allocPages c ro pages).cell c =
      { s.cell c with kp := { (s.cell c).kp with pmap := pages.map fun a => a.page.val } } := by
  unfold State.allocPages
  extract_lets t
  have ht : t.cell c = s.cell c := by
    refine foldl_keeps (fun u : State => u.cell c) (fun u i => ?_) _ s
    split
    · exact u.setPte_cell c _ _
    · rfl
  rw [State.modKp_eq, State.setCell_cell_self, ht]

theorem State.loadCell_cell (g : ImgHead) (body : List Byte) :
    let x := (s.loadCell c g body pages).cell c
    x.ctl.st = .loaded ∧ x.img.stat = 2 ∧ x.map.pages = g.pages ∧ x.map.ropages = g.roPages ∧ x.mem = imgMem body ∧
      x.kp.pmap = pages.map fun p => p.page.val := by
  simp only [State.loadCell, State.modCell_eq, State.setCell_cell_self, State.allocPages_cell]
  exact ⟨trivial, trivial, rfl, rfl, trivial, trivial⟩

section Due

variable (hp : s.present c = true) (hs : (s.cell c).img.stat = 1) (hg : (s.cell c).kp.guest = none)
include hp hs hg

theorem execImgLoadDone_failed : execImgLoadDone c none pages s =
    .next (s.setCell c { s.cell c with img := { (s.cell c).img with stat := 6 } }) := by
  simp [execImgLoadDone, onCell_present hp, hs, hg]

theorem execImgLoadDone_refused {l : List Byte} {code : Byte} (h : s.imgCheck c l = .inl code) :
    execImgLoadDone c (some l) pages s =
      .next (s.setCell c { s.cell c with img := { (s.cell c).img with stat := code } }) := by
  simp [execImgLoadDone, onCell_present hp, hs, hg, h]

theorem execImgLoadDone_loads {l : List Byte} {g : ImgHead} (h : s.imgCheck c l = .inr g)
    (ha : s.allocOk (s.tenantOf c) g.pages pages = true) :
    execImgLoadDone c (some l) pages s = .next (s.loadCell c g (l.drop 64) pages) := by
  simp [execImgLoadDone, onCell_present hp, hs, hg, h, ha]

end Due

/-- A repair that succeeds is counted (R138). -/
theorem execCsRepairDone_ok {u : StoreUnit} {a : BitVec 13} {l : List (StoreUnit × BitVec 13)}
    (h : s.stores.repairs = (u, a) :: l) :
    execCsRepairDone true s =
      .next { s with stores := { s.stores with repairs := l, softErr := s.stores.softErr + 1 } } := by
  rw [execCsRepairDone, h]
  rfl

/-- A repair that fails closes its store, with a notice (R138). -/
theorem execCsRepairDone_failed {u : StoreUnit} {a : BitVec 13} {l : List (StoreUnit × BitVec 13)}
    (h : s.stores.repairs = (u, a) :: l) :
    execCsRepairDone false s =
      .next (({ s with stores := { s.stores with
        repairs := l, hardErr := s.stores.hardErr + 1, closed := s.stores.closed ++ [u] } }).raise 7 0 false
          s.stores.lastErr.toNat) := by
  rw [execCsRepairDone, h]
  rfl

end ImageEnd

/-- Settles O20: the image's check decides how the transfer ends; a repair ends with its count, and a failed one with its
store closed. -/
theorem imageLoads : Obligations.ImageLoads := by
  intro s c img pages code g x
  refine ⟨fun hp hs hg => ?_, fun u a l hr => ?_⟩
  · refine ⟨⟨_, execImgLoadDone_failed (pages := pages) hp hs hg, rfl⟩,
      fun hc => ⟨_, execImgLoadDone_refused hp hs hg hc, rfl⟩, fun hc ha => ?_⟩
    obtain ⟨hst, hstat, hpg, hro, hmem, hmap⟩ := State.loadCell_cell (s := s) (c := c) (pages := pages) g (img.drop 64)
    refine ⟨_, execImgLoadDone_loads hp hs hg hc ha, hst, hstat, hpg, hro, fun b => ?_, hmap⟩
    rw [Cell.readMem, hmem, imgMem_read]
  · exact ⟨⟨_, execCsRepairDone_ok hr, rfl⟩, _, execCsRepairDone_failed hr, State.raise_stores ..⟩

/-! ## Page moves and sharing (R173 to R175, R354, R359) -/

section Entries

variable {s : State} {i j : Nat} {e : Long}

/-- An entry that describes no memory reads as absent (R30, R514). -/
theorem State.pte_absent (h : s.memu.frames ≤ i) : s.pte i = 3 := if_pos h

/-- An entry in state 1 is not absent (R354). -/
theorem State.lt_frames_of_pteState (h : pteState (s.pte i) = 1) : i < s.memu.frames := by
  refine Nat.lt_of_not_le fun hn => ?_
  rw [State.pte_absent hn] at h
  exact absurd h (by decide)

theorem State.setPte_memu : (s.setPte i e).memu = s.memu := rfl

theorem State.setPte_pte (h : i < s.memu.frames) : (s.setPte i e).pte j = if j = i then e else s.pte j := by
  simp only [State.pte, State.setPte_eq, State.modKeeper_memu, State.modKeeper_keeper, Table.read_write]
  by_cases hj : j = i
  · subst hj
    rw [if_neg (Nat.not_le_of_lt h), if_pos rfl, if_pos rfl]
  · rw [if_neg hj, if_neg hj]

theorem placeLoc_fst_lt (p : Place) : (placeLoc p).1 < 4 := by cases p <;> simp [placeLoc]

variable (p : Place) (f : BitVec 17) (heat share cell : Nat) (cat : Bool)

theorem pteState_mkPte : pteState (mkPte 1 p f heat share cell cat) = 1 := by
  simp only [pteState, mkPte, BitVec.toNat_ofNat]
  omega

theorem pteLoc_mkPte : pteLoc (mkPte 1 p f heat share cell cat) = (placeLoc p).1 := by
  have := placeLoc_fst_lt p
  simp only [pteLoc, mkPte, BitVec.toNat_ofNat]
  omega

end Entries

/-! ## The keeper's records of several cells -/

section Cells

variable {s : State} (f : CellKp → CellKp) (l : List CellNo)

theorem State.modKp_keeper (c : CellNo) : (s.modKp c f).keeper = s.keeper := rfl

theorem State.modKp_memu (c : CellNo) : (s.modKp c f).memu = s.memu := rfl

theorem State.nodup_sharers (i : Nat) : (s.sharers i).Nodup := (List.nodup_finRange 128).filter _

/-- A change of the records of some cells changes nothing else of them. -/
theorem State.foldl_modKp_cell (hl : l.Nodup) (c : CellNo) :
    (l.foldl (fun u d => u.modKp d f) s).cell c =
      if c ∈ l then { s.cell c with kp := f (s.cell c).kp } else s.cell c := by
  induction l generalizing s with
  | nil => rfl
  | cons d r ih =>
    rw [List.nodup_cons] at hl
    obtain ⟨hd, hr⟩ := hl
    rw [List.foldl_cons, ih hr, State.modKp_eq, State.setCell_cell]
    by_cases hc : c = d
    · subst hc; simp [hd]
    · simp [hc]

theorem State.foldl_modKp_mem (hl : l.Nodup) (c : CellNo) :
    ((l.foldl (fun u d => u.modKp d f) s).cell c).mem = (s.cell c).mem := by
  rw [State.foldl_modKp_cell f l hl]
  split <;> rfl

theorem State.foldl_modKp_keeper : (l.foldl (fun u d => u.modKp d f) s).keeper = s.keeper :=
  foldl_keeps State.keeper (fun u d => u.modKp_keeper f d) l s

theorem State.foldl_modKp_memu : (l.foldl (fun u d => u.modKp d f) s).memu = s.memu :=
  foldl_keeps State.memu (fun u d => u.modKp_memu f d) l s

theorem State.foldl_modKp_pte (i : Nat) : (l.foldl (fun u d => u.modKp d f) s).pte i = s.pte i := by
  rw [State.pte, State.foldl_modKp_keeper, State.foldl_modKp_memu, State.pte]

end Cells

section Moves

variable {s : State} {page : Nat} {dest : Place} {forced : Bool} {m : PageMove}

theorem State.lt_frames_of_moveOk (h : s.moveOk page dest forced = true) : page < s.memu.frames := by
  refine Nat.lt_of_not_le fun hn => ?_
  have hst : pteState (s.pte page) = 3 := by rw [State.pte_absent hn]; rfl
  simp [State.moveOk, hst] at h

theorem State.startMove_pte (h : page < s.memu.frames) (j : Nat) :
    (s.startMove page dest forced).pte j = if j = page then s.pte page + 1 else s.pte j :=
  State.setPte_pte h

/-- The redirect writes one entry: the page is at its new place, and no longer moving (R173). -/
theorem State.endMove_pte (h : m.page < s.memu.frames) :
    ∃ frame, ∀ j, (s.endMove m).pte j =
      if j = m.page then
        mkPte 1 m.place frame (pteHeat (s.pte m.page)) (pteShare (s.pte m.page)) (pteCell (s.pte m.page))
          (pteCat (s.pte m.page))
      else s.pte j := by
  unfold State.endMove
  extract_lets e frame t
  refine ⟨frame, fun j => ?_⟩
  have ht : m.page < t.memu.frames := by rw [State.foldl_modKp_memu]; exact h
  refine (State.setPte_pte ht).trans ?_
  rw [State.foldl_modKp_pte]

/-- The redirect ends every move of the page and counts one. -/
theorem State.endMove_keeper :
    (s.endMove m).keeper.moves = s.keeper.moves.filter (fun n => n.page != m.page) ∧
      (s.endMove m).keeper.pageMoves = s.keeper.pageMoves + 1 := by
  unfold State.endMove
  extract_lets e frame t
  have ht : t.keeper = s.keeper := State.foldl_modKp_keeper ..
  simp only [State.setPte_eq, State.modKeeper_keeper, ht, and_self]

theorem State.endMove_mem (c : CellNo) : ((s.endMove m).cell c).mem = (s.cell c).mem :=
  State.foldl_modKp_mem _ _ (s.nodup_sharers m.page) c

theorem execPageMoveStart_starts {page : PageNo} (hk : s.keeperOn = true) (hm : s.moveOk page.val dest forced = true) :
    execPageMoveStart page dest forced s = .next (s.startMove page.val dest forced) := by
  simp [execPageMoveStart, hk, hm]

theorem execPageRedirect_ends {page : PageNo} (hm : (s.keeper.moves.find? fun m => m.page == page.val) = some m) :
    execPageRedirect page s = .next (s.endMove m) := by
  simp [execPageRedirect, hm]

end Moves

section Sharing

variable {s : State} {a b : Nat}

theorem State.sharePages_pte_free (h : b < s.memu.frames) : (s.sharePages a b).pte b = 0 := by
  unfold State.sharePages
  extract_lets cells ea heat low t place
  have ht (x : Long) : b < (t.setPte a x).memu.frames := by rw [State.setPte_memu, State.foldl_modKp_memu]; exact h
  rw [State.setPte_pte (ht _), if_pos rfl]

/-- Every cell that named `b` names `a`, and no cell space changes (R174). -/
theorem State.sharePages_cell (c : CellNo) :
    (s.sharePages a b).cell c = if c ∈ s.sharers b then
        { s.cell c with kp := { (s.cell c).kp with pmap := (s.cell c).kp.pmap.map fun i => if i = b then a else i } }
      else s.cell c := by
  unfold State.sharePages
  extract_lets cells ea heat low t place
  rw [State.setPte_cell, State.setPte_cell]
  exact State.foldl_modKp_cell _ _ (s.nodup_sharers b) c

theorem execPageShareCompare_shares {a b : PageNo} (hk : s.keeperOn = true) (ho : s.objOr 0x3000 5 1 ≠ 0) (hne : a ≠ b)
    (ha : pteState (s.pte a.val) = 1) (hb : pteState (s.pte b.val) = 1) (hca : pteCat (s.pte a.val) = true)
    (hcb : pteCat (s.pte b.val) = true) (hsc : ∀ c ∈ s.sharers a.val, ∀ d ∈ s.sharers b.val, s.mayShare c d = true)
    (hsome : (s.pageBytes a.val).isSome = true) (heq : s.pageBytes a.val = s.pageBytes b.val) :
    execPageShareCompare a b s = .next (s.sharePages a.val b.val) := by
  have hall : ((s.sharers a.val).all fun c => (s.sharers b.val).all fun d => s.mayShare c d) = true := by
    simpa only [List.all_eq_true] using hsc
  simp [execPageShareCompare, hk, ho, hne, ha, hb, hca, hcb, hall, hsome, ← heq]

end Sharing

/-- Settles O25: a move marks its entry and its redirect writes it once more; sharing frees one entry and renames it in the
page maps of its cells, whose spaces stand. -/
theorem pageMoves : Obligations.PageMoves := by
  intro s page b dest forced m e
  refine ⟨fun hk hm => ?_, fun hm hf => ?_, fun hk ho hne hst hstb hcat hcatb hsc hsome heq => ?_⟩
  · have pte := State.startMove_pte (dest := dest) (forced := forced) (State.lt_frames_of_moveOk hm)
    refine ⟨_, execPageMoveStart_starts hk hm, ?_, fun i hi => ?_, rfl, rfl, rfl⟩
    · rw [pte, if_pos rfl]
    · rw [pte, if_neg hi]
  · have hp : m.page = page.val := by simpa using List.find?_some hm
    obtain ⟨frame, pte⟩ := State.endMove_pte (s := s) (m := m) (hp ▸ hf)
    obtain ⟨hmoves, hcount⟩ := State.endMove_keeper (s := s) (m := m)
    rw [hp] at pte hmoves
    refine ⟨_, execPageRedirect_ends hm, ?_, ?_, fun i hi => ?_, hcount, ?_, State.endMove_mem⟩
    · rw [pte, if_pos rfl, pteState_mkPte]
    · rw [pte, if_pos rfl, pteLoc_mkPte]
    · rw [pte, if_neg hi]
    · simp [hmoves]
  · refine ⟨_, execPageShareCompare_shares hk ho hne hst hstb hcat hcatb hsc hsome heq, ?_, fun c => ?_, fun c hc => ?_⟩
    · rw [State.sharePages_pte_free (State.lt_frames_of_pteState hstb)]
      rfl
    · rw [State.sharePages_cell]
      split <;> rfl
    · rw [State.sharePages_cell, if_pos hc]

end Sys2Proof.Machine
end

section
/-! PROOFS for spec/09_sprites.md: the sprite snapshot, line slots and prefills through their life, and the video registers
(O26). -/

namespace Sys2Proof.Machine

/-! ## The sprite snapshot (R199, R200) -/

section Snapshot

/-- A table written at the first `n` keys reads what was written there and the old values elsewhere. -/
theorem Table.read_foldl_write {β : Type} [DecidableEq β] (d f : Nat → β) (t : Table β) (n i : Nat) :
    Table.read d ((List.range n).foldl (fun u j => u.write d j (f j)) t) i = if i < n then f i else Table.read d t i := by
  induction n with
  | zero => rfl
  | succ n ih =>
    rw [List.range_succ, List.foldl_append, List.foldl_cons, List.foldl_nil, Table.read_write, ih]
    rcases Nat.lt_trichotomy i n with h | rfl | h
    · rw [if_neg (Nat.ne_of_lt h), if_pos h, if_pos (Nat.lt_succ_of_lt h)]
    · rw [if_pos rfl, if_pos (Nat.lt_succ_self i)]
    · rw [if_neg (Nat.ne_of_gt h), if_neg (Nat.lt_asymm h), if_neg (Nat.not_lt_of_le h)]

theorem Cell.snapshot_sprites (x : Cell) (b n i : Nat) :
    Table.read (fun _ => 0) (x.snapshot b n).vid.sprites i = if i < n then (x.snapEntry b i).1 else 0 := by
  simp only [Cell.snapshot, List.foldl_map]
  exact Table.read_foldl_write (fun _ => 0) (fun j => (x.snapEntry b j).1) [] n i

theorem execSpriteSnapshotDone_ends {s : State} {c : CellNo} {b n : Nat} (hl : s.liveCell c = true)
    (hs : (s.cell c).vid.snap = some (b, n)) :
    execSpriteSnapshotDone c s = .next (s.setCell c ((s.cell c).snapshot b n)) := by
  rw [execSpriteSnapshotDone, State.liveCell_runs hl, hs]
  rfl

end Snapshot

/-! ## The waggle engine keeps its slot's line (R228) -/

section Engine

/-- Whether a slot has started, and its line. -/
def Slot.begun (sl : Slot) : Bool × Nat := (sl.started, sl.line)

theorem Slot.openLine_begun (sl : Slot) (x : Cell) (m : Nat) : (sl.openLine x m).begun = sl.begun := rfl

theorem Slot.closeLine_begun (sl : Slot) : sl.closeLine.begun = sl.begun := rfl

theorem Slot.settleOn_begun (x : Cell) (l : List Nat) (sl : Slot) : (Slot.settleOn x l sl).begun = sl.begun := by
  induction l generalizing sl with
  | nil => rfl
  | cons m r ih =>
    unfold Slot.settleOn
    split
    · rw [ih, Slot.openLine_begun, Slot.closeLine_begun]
    · rfl

/-- The work of a slot on its lines begins without a change of its own line. -/
theorem Slot.begin_begun (sl : Slot) (x : Cell) (l : List Nat) : (sl.begin x l).begun = sl.begun := by
  cases l with
  | nil => rfl
  | cons m r => exact Slot.settleOn_begun ..

end Engine

/-! ## What a line leaves alone (R240, R259) -/

section Lines

/-- The slot of a cell, and what its registers report of misses (R261). -/
def CellVid.slotRecord (v : CellVid) : Option Slot × Byte × Half × Nat := (v.slot, v.lsStat, v.missCnt, v.missLine)

/-- Of a cell, what the work on a line leaves alone: its space, its slot and its record of misses. -/
def Cell.slotRecord (x : Cell) : List Host.Cell × Option Slot × Byte × Half × Nat := (x.mem, x.vid.slotRecord)

variable (x : Cell)

@[simp] theorem Cell.edge_slotRecord (n : Nat) : (x.edge n).slotRecord = x.slotRecord := rfl

@[simp] theorem Cell.putLive_slotRecord (a : Nat) (v : Byte) : (x.putLive a v).slotRecord = x.slotRecord := rfl

@[simp] theorem Cell.loadRx_slotRecord : x.loadRx.slotRecord = x.slotRecord := rfl

@[simp] theorem Cell.loadRy_slotRecord : x.loadRy.slotRecord = x.slotRecord := rfl

@[simp] theorem Cell.affineNext_slotRecord : x.affineNext.slotRecord = x.slotRecord := rfl

@[simp] theorem Cell.applyLl_slotRecord (w : LlWrite) : (x.applyLl w).slotRecord = x.slotRecord := by
  cases w with
  | reg a v => simp [Cell.applyLl, apply_ite Cell.slotRecord]
  | pal i rgb => rfl

@[simp] theorem applyAll_slotRecord (l : List (Nat × LlWrite)) : (applyAll l x).slotRecord = x.slotRecord :=
  foldl_keeps (f := fun y (w : Nat × LlWrite) => y.applyLl w.2) Cell.slotRecord (fun y w => y.applyLl_slotRecord w.2) l x

theorem applyUpTo_slotRecord (px : Nat) (l : List (Nat × LlWrite)) : (applyUpTo px l x).1.slotRecord = x.slotRecord := by
  induction l generalizing x with
  | nil => rfl
  | cons a r ih =>
    unfold applyUpTo
    split
    · rw [ih, Cell.applyLl_slotRecord]
    · rfl

@[simp] theorem Cell.drawLine_slotRecord (py : Nat) (w : List (Nat × LlWrite)) (sl : SpriteLine) :
    (x.drawLine py w sl).x.slotRecord = x.slotRecord :=
  foldl_keeps (fun d : Draw => d.x.slotRecord) (fun d _ => applyUpTo_slotRecord d.x _ d.writes) _ _

@[simp] theorem Cell.catchUp_slotRecord (log : List LogEnt) (l : Nat × List (Nat × LlWrite)) :
    (Cell.catchUp log x l).slotRecord = x.slotRecord := by
  simp [Cell.catchUp, apply_ite Cell.slotRecord]

@[simp] theorem Cell.compFlags_slotRecord (d : Draw) : (x.compFlags d).slotRecord = x.slotRecord := by
  unfold Cell.compFlags
  extract_lets v short st y
  split <;> rfl

@[simp] theorem Cell.wgFlags_slotRecord (sl : Slot) : (x.wgFlags sl).slotRecord = x.slotRecord := by
  unfold Cell.wgFlags
  extract_lets v r y
  split <;> rfl

@[simp] theorem Cell.spriteFlags_slotRecord (line : Nat) (dropped : Option Nat) (coll : Option (Nat × Nat)) (range : Bool) :
    (x.spriteFlags line dropped coll range).slotRecord = x.slotRecord := by
  unfold Cell.spriteFlags
  extract_lets v newOvf newCol ovf col st y
  split <;> rfl

@[simp] theorem Cell.wbFinish_slotRecord : x.wbFinish.slotRecord = x.slotRecord := by
  unfold Cell.wbFinish
  extract_lets mode y
  have hy : y.slotRecord = x.slotRecord := by
    unfold y
    split <;> rfl
  exact hy

/-- The writeback of a line changes what the writeback unit holds (R241). -/
@[simp] theorem Cell.writeback_slotRecord (line : Nat) (p : Pixels) : (x.writeback line p).slotRecord = x.slotRecord := by
  unfold Cell.writeback
  extract_lets mode fmt pitch len on bad v₀ y a final v lost full v₁ z
  have hy : y.slotRecord = x.slotRecord := by
    unfold y
    split <;> rfl
  have hv : v₁.slotRecord = v.slotRecord := by
    simp [v₁, lost, full, CellVid.slotRecord, CellVid.wbDone, apply_ite CellVid.slot, apply_ite CellVid.lsStat,
      apply_ite CellVid.missCnt, apply_ite CellVid.missLine]
  have hz : z.slotRecord = x.slotRecord := (congrArg (Prod.mk y.mem) hv).trans hy
  split
  · exact hy
  · split
    · exact (Cell.wbFinish_slotRecord z).trans hz
    · exact hz

end Lines

section Delivery

variable {s : State} (c : CellNo)

theorem State.sendTo_units (d : BitVec 3) (kind : Nat) (last : Bool) (tag : Word) (l : List Byte) :
    (s.sendTo d kind last tag l).cells = s.cells ∧ (s.sendTo d kind last tag l).combs = s.combs := by
  unfold State.sendTo
  split <;> exact ⟨rfl, rfl⟩

theorem State.sendChunks_units (d : BitVec 3) (kind : Nat) (tag : Word) (l : List (List Byte)) :
    (s.sendChunks d kind tag l).cells = s.cells ∧ (s.sendChunks d kind tag l).combs = s.combs := by
  induction l generalizing s with
  | nil => exact ⟨rfl, rfl⟩
  | cons p r ih =>
    cases r with
    | nil => exact State.sendTo_units ..
    | cons q r =>
      obtain ⟨hc, hk⟩ := ih (s := s.sendTo d kind false tag p)
      obtain ⟨hc', hk'⟩ := s.sendTo_units d kind false tag p
      exact ⟨hc.trans hc', hk.trans hk'⟩

theorem State.sliceEnqueue_slotRecord (ws : List Long) :
    ((s.sliceEnqueue c ws).cell c).slotRecord = (s.cell c).slotRecord ∧ (s.sliceEnqueue c ws).combs = s.combs := by
  unfold State.sliceEnqueue
  extract_lets h full
  split
  · exact ⟨rfl, rfl⟩
  · rw [State.modHost_eq, State.setCell_cell_self]
    exact ⟨rfl, rfl⟩

/-- A delivered line changes no slot, no record of misses and no comb. -/
theorem State.deliver_slotRecord (line : Nat) (p : Pixels) (rep black : Bool) :
    ((s.deliver c line p rep black).cell c).slotRecord = (s.cell c).slotRecord ∧
      (s.deliver c line p rep black).combs = s.combs := by
  unfold State.deliver
  extract_lets x out y v₀ v frame t
  have ht : (t.cell c).slotRecord = (s.cell c).slotRecord := by
    rw [State.setCell_cell_self]
    exact x.writeback_slotRecord line p
  split
  · obtain ⟨hc, hk⟩ := t.sendChunks_units ..
    exact ⟨(congrArg (fun l : Vector Cell 128 => (l.get c).slotRecord) hc).trans ht, hk⟩
  · split
    · obtain ⟨hc, hk⟩ := t.sliceEnqueue_slotRecord c _
      exact ⟨hc.trans ht, hk⟩
    · exact ⟨ht, rfl⟩

theorem State.modComb_get (k : Fin 24) (f : Comb → Comb) : (s.modComb k f).combs.get k = f (s.combs.get k) :=
  Vector.getElem_set_self ..

/-- The record of a cell once its slot is gone. -/
def Cell.goneRecord (x : Cell) : List Host.Cell × Option Slot × Byte × Half × Nat :=
  (x.mem, none, x.vid.lsStat, x.vid.missCnt, x.vid.missLine)

theorem Cell.goneRecord_congr {x y : Cell} (h : y.slotRecord = x.slotRecord) : y.goneRecord = x.goneRecord := by
  simp only [Cell.slotRecord, CellVid.slotRecord, Prod.mk.injEq] at h
  obtain ⟨hm, _, hst, hcnt, hline⟩ := h
  rw [Cell.goneRecord, hm, hst, hcnt, hline, Cell.goneRecord]

/-- A completed slot is gone from its cell, and its comb is free and counts it (R259). -/
theorem State.completeSlot_slotRecord (k : Fin 24) (sl : Slot) :
    ((s.completeSlot k c sl).cell c).slotRecord = (s.cell c).goneRecord ∧
      ((s.completeSlot k c sl).combs.get k).work = none ∧
      ((s.completeSlot k c sl).combs.get k).slots = (s.combs.get k).slots + 1 := by
  unfold State.completeSlot
  extract_lets x sl log now stale b x₁ x₂ x₃ x₄ writes spr d y₁ y₂ y₃ cost co v y₄ y₅ short notice v₅ t₁ t₂ t₃
  have hx : x₄.slotRecord = x.slotRecord := by
    have h₁ : x₂.slotRecord = x.slotRecord := applyAll_slotRecord ..
    have h₃ : x₃.slotRecord = x₂.slotRecord := foldl_keeps Cell.slotRecord (Cell.catchUp_slotRecord · now) _ _
    simp only [x₄, apply_ite Cell.slotRecord, Cell.loadRx_slotRecord, Cell.loadRy_slotRecord, ite_self, h₃, h₁]
  have hy : y₃.slotRecord = x.slotRecord := by simp [y₃, y₂, y₁, d, hx]
  have hg : y₃.goneRecord = x.goneRecord := Cell.goneRecord_congr hy
  clear_value y₃
  have h₁ : (t₁.cell c).slotRecord = x.goneRecord := by
    rw [State.setCell_cell_self]
    exact hg
  have h₂ : t₂.cell c = t₁.cell c ∧ t₂.combs = s.combs := by
    unfold t₂
    split
    · exact ⟨State.raise_cell .., State.raise_combs ..⟩
    · exact ⟨rfl, rfl⟩
  obtain ⟨hcell, hcombs⟩ := h₂
  obtain ⟨hrec, hc⟩ := t₃.deliver_slotRecord c sl.line d.out.reverse false false
  refine ⟨hrec.trans ?_, ?_⟩
  · rw [← h₁, ← hcell]
    rfl
  · rw [hc, State.modComb_get, hcombs]
    exact ⟨rfl, rfl⟩

/-- A missed slot is gone from its cell, which records it; its comb counts the miss (R260, R261). -/
theorem State.missSlot_slotRecord (sl : Slot) :
    (∃ black, ((s.missSlot c sl).cell c).slotRecord =
        ((s.cell c).mem, none, (s.cell c).vid.lsStat ||| 1 ||| flagIf black 2, satInc16 (s.cell c).vid.missCnt, sl.line)) ∧
      ((s.missSlot c sl).combs.get sl.comb).misses = satInc (s.combs.get sl.comb).misses := by
  unfold State.missSlot
  extract_lets x v ha rep black first notice y t₁ t₂ t₃
  have h₁ : (t₁.cell c).slotRecord = y.slotRecord := by
    rw [State.setCell_cell_self]
    split <;> rfl
  have h₃ : t₃.cell c = t₁.cell c ∧ t₃.combs = t₂.combs := by
    unfold t₃
    split
    · exact ⟨State.raise_cell .., State.raise_combs ..⟩
    · exact ⟨rfl, rfl⟩
  obtain ⟨hcell, hcombs⟩ := h₃
  obtain ⟨hrec, hc⟩ := t₃.deliver_slotRecord c sl.line (rep.getD (List.replicate ha 0)) true black
  refine ⟨⟨black, hrec.trans ?_⟩, ?_⟩
  · rw [hcell, h₁]
    rfl
  · rw [hc, hcombs, State.modComb_get]
    rfl

end Delivery

/-! ## Line slots and prefills through their life (R253 to R261) -/

section SlotLife

variable {s : State} {c : CellNo} {k : Fin 24} {sl : Slot}

theorem onComb_runs (h : k.val < Config.combCount s.part) (r : Res) : onComb k s r = r := if_pos h

theorem State.combUp_present (h : s.combUp k = true) : k.val < Config.combCount s.part := by
  simp only [State.combUp, Bool.and_eq_true, decide_eq_true_eq] at h
  obtain ⟨⟨⟨hp, _⟩, _⟩, _⟩ := h
  exact hp

/-- The video state of a cell whose slot for line `n` is released; line 0 opens the frame's collection (R256, R560). -/
def CellVid.release (v : CellVid) (k : Fin 24) (n deadline : Nat) : CellVid :=
  { (if n = 0 then { v.openColl with prefill := none } else v) with
    slot := some { comb := k, line := n, deadline := deadline } }

theorem execSlotRelease_releases (hl : s.liveCell c = true) (hk : entryComb (s.slotEntry c) = some k)
    (ho : (s.cell c).beam.on = true) (hw : (s.cell c).beam.waiting = false) (hs : (s.cell c).ctl.st.started = true)
    (hn : (s.cell c).vid.slot = none) (hv : (s.cell c).dueLine < (s.cell c).beam.geom.vactive)
    (hb : (s.cell c).beam.started = true ∨ 1 ≤ (s.cell c).beam.pline) (deadline : Nat) :
    execSlotRelease c deadline s = .next (s.modVid c (·.release k (s.cell c).dueLine deadline)) := by
  have hfirst : (s.cell c).beam.started = false → (s.cell c).beam.pline ≠ 0 := by
    intro h
    rcases hb with h' | h'
    · simp [h] at h'
    · omega
  rw [execSlotRelease, State.liveCell_runs hl, State.releaseSlot]
  simp only [hk]
  rw [if_neg]
  · rfl
  · simpa [ho, hw, hs, hn, hv] using hfirst

theorem execSlotStart_starts (hu : s.combUp k = true) (hw : (s.combs.get k).work = none) (hn : s.nextSlot k = some (c, sl))
    (hp : (s.cell c).slotPast sl = false) : execSlotStart k none s = .next (s.startSlot k c sl none) := by
  rw [execSlotStart, onComb_runs (State.combUp_present hu)]
  simp [hu, hw, hn, hp]

/-- A started slot stands in its cell as started, for its line, and its comb works for the cell (R257). -/
theorem State.startSlot_starts :
    ((s.startSlot k c sl none).combs.get k).work = some c ∧
      (∃ z, ((s.startSlot k c sl none).cell c).vid.slot = some z ∧ z.begun = (true, sl.line)) ∧
      ((s.startSlot k c sl none).cell c).mem = (s.cell c).mem := by
  unfold State.startSlot
  dsimp only
  rw [State.modComb_get, State.modComb_cell, State.modVid_eq, State.setCell_cell_self]
  exact ⟨rfl, ⟨_, rfl, Slot.begin_begun ..⟩, rfl⟩

theorem execSlotFetchArrive_waits (hk : k.val < Config.combCount s.part) (hs : s.combSlot k = some (c, sl)) (waits : Nat) :
    execSlotFetchArrive k waits s =
      .next (s.modVid c fun v => { v with slot := some { sl with waits := sl.waits + waits } }) := by
  rw [execSlotFetchArrive, onComb_runs hk, hs]

theorem execSlotComplete_completes (hk : k.val < Config.combCount s.part) (hs : s.combSlot k = some (c, sl))
    (hp : (s.cell c).slotPast sl = false) : execSlotComplete k s = .next (s.completeSlot k c sl) := by
  simp [execSlotComplete, onComb_runs hk, hs, hp]

theorem execSlotMiss_misses (hl : s.liveCell c = true) (hs : (s.cell c).vid.slot = some sl)
    (hp : (s.cell c).slotPast sl = true) : execSlotMiss c s = .next (s.missSlot c sl) := by
  simp [execSlotMiss, State.liveCell_runs hl, hs, hp]

/-- The prefill slot of the next frame takes the comb of the cell's entry (R258). -/
theorem execPrefillRelease_releases (hl : s.liveCell c = true) (hk : entryComb (s.slotEntry c) = some k)
    (ho : (s.cell c).beam.on = true) (hw : (s.cell c).beam.waiting = false) (hs : (s.cell c).beam.started = true)
    (hn : (s.cell c).beam.line = (s.cell c).beam.geom.vactive + 1) (hf : (s.cell c).vid.prefill = none)
    (hv : (s.cell c).vid.prev = none) :
    execPrefillRelease c s = .next ((s.modVid c fun v => { v.openColl with prefill := some k }).modComb k fun b =>
      { b with prefill := if b.prefill.isNone then some c else b.prefill }) := by
  rw [execPrefillRelease, State.liveCell_runs hl]
  simp [hk, ho, hw, hs, hn, hf, hv]

/-- With no other collection open, the frame's collection is set aside and a new one begins (R560). -/
theorem CellVid.openColl_of_none {v : CellVid} (h : v.prev = none) : v.openColl = { v with prev := some v.coll, coll := {} } := by
  simp [CellVid.openColl, h]

theorem execPrefillEnd_ends (hl : s.liveCell c = true) (hf : (s.cell c).vid.prefill = some k) :
    execPrefillEnd c s = .next ((s.modVid c fun v => { v with prefill := none }).modComb k fun b =>
      { b with prefill := if b.prefill = some c then none else b.prefill }) := by
  rw [execPrefillEnd, State.liveCell_runs hl, hf]

end SlotLife

/-! ## Reads of the video registers (R11, R211, R226, R234, R241, R261) -/

section VideoReads

variable {s : State} {c : CellNo} {a : Nat}

theorem coreReadAt_next {t : State} (hs : s.startedCell c = true) (h : s.coreRead c a = t) :
    coreReadAt c a s = .next t := by rw [coreReadAt, onStarted_runs hs, h]

/-- Between 0500h and 0BFFh the profiles have the same registers but for the affine ones (R21). -/
theorem ioMapped_video (prof : Byte) (hl : 0x0500 ≤ a) (hh : a < 0x0C00) (ha : isAffine a = false) :
    ioMapped prof a = inRanges ioRanges a := by
  have h₁ : ¬ a < 0x01C0 := by omega
  have h₂ : ¬ a < 0x0300 := by omega
  have h₃ : ¬ a < 0x0500 := by omega
  have h₄ : ¬ 0x0C00 ≤ a := by omega
  simp [ioMapped, h₁, h₂, h₃, h₄, ha]

/-- A register of the video blocks that no part and no profile lacks. -/
def videoReg (a : Nat) : Bool := decide (0x0500 ≤ a) && decide (a < 0x0C00) && !isAffine a && inRanges ioRanges a

theorem videoReg_iff : videoReg a = true ↔
    (0x0500 ≤ a ∧ a < 0x0C00) ∧ isAffine a = false ∧ inRanges ioRanges a = true := by
  simp [videoReg, and_assoc]

theorem videoReg_reached (h : videoReg a = true) : (s.cell c).ioUnmapped a = false ∧ s.ioDark a = false := by
  obtain ⟨⟨hl, hh⟩, ha, hr⟩ := videoReg_iff.mp h
  have hd : ¬ 0x0E80 ≤ a := by omega
  exact ⟨by simp [Cell.ioUnmapped, ioMapped_video _ hl hh ha, hr], by simp [State.ioDark, hd]⟩

/-- A read by the core of a video register that captures nothing. -/
theorem coreRead_videoByte (h : videoReg a = true) (hg : captureGroup a = none) :
    s.coreRead c a = s.setCell c { (s.cell c).readEffect a with
      ctl := { ((s.cell c).readEffect a).ctl with rd := s.viewIo c a } } := by
  obtain ⟨hu, hd⟩ := videoReg_reached (s := s) (c := c) h
  simp [State.coreRead, State.ioRead, hu, hd, hg]

/-- A read by the core of the lowest byte of an `n`-byte video register captures them all. -/
theorem coreRead_videoLowest {n : Nat} (h : videoReg a = true) (hg : captureGroup a = some (a, n)) :
    let y : Cell := { s.cell c with
      capt := Table.writeList (resetByte (s.cell c).prof) (s.cell c).capt a ((List.range n).map fun i => s.viewIo c (a + i)) }
    s.coreRead c a = s.setCell c { y.readEffect a with ctl := { (y.readEffect a).ctl with rd := s.viewIo c a } } := by
  obtain ⟨hu, hd⟩ := videoReg_reached (s := s) (c := c) h
  simp [State.coreRead, State.ioRead, hu, hd, hg, State.capture]

theorem coreRead_sprStat : s.coreRead c 0x0510 = s.setCell c { s.cell c with
    vid := { (s.cell c).vid with sprStat := 0 }, ctl := { (s.cell c).ctl with rd := (s.cell c).vid.sprStat } } :=
  coreRead_videoByte (by decide) (by decide)

theorem coreRead_wgStat : s.coreRead c 0x0588 = s.setCell c { s.cell c with
    vid := { (s.cell c).vid with wgStat := 0 }, ctl := { (s.cell c).ctl with rd := (s.cell c).vid.wgStat } } :=
  coreRead_videoByte (by decide) (by decide)

theorem coreRead_wbStat : s.coreRead c 0x0641 = s.setCell c { s.cell c with
    vid := { (s.cell c).vid with wbStat := 0 }
    ctl := { (s.cell c).ctl with
      rd := ((s.cell c).vid.wbStat &&& 0x0F) ||| BitVec.ofNat 8 (16 * b2n (s.cell c).vid.wbOn) } } :=
  coreRead_videoByte (by decide) (by decide)

/-- The read of LS_MISSCNT's low byte captures both bytes and clears the count. -/
theorem coreRead_missCnt : s.coreRead c 0x0682 = s.setCell c { s.cell c with
    vid := { (s.cell c).vid with missCnt := 0 }
    capt := Table.writeList (resetByte (s.cell c).prof) (s.cell c).capt 0x0682
      [byteOf (s.cell c).vid.missCnt.toNat 0, byteOf (s.cell c).vid.missCnt.toNat 1]
    ctl := { (s.cell c).ctl with rd := byteOf (s.cell c).vid.missCnt.toNat 0 } } :=
  coreRead_videoLowest (a := 0x0682) (n := 2) (by decide) (by decide)

/-- The palette entry that PAL_IDX names (R234). -/
def Cell.palIndex (x : Cell) : Nat := x.reg16 0x0800 % palSize x.prof

/-- That entry as the core reads it. -/
def Cell.palNamed (x : Cell) : BitVec 24 := Table.read (fun _ => 0) x.vid.palCore x.palIndex

/-- The read of PAL_DATA's blue byte captures the entry. -/
theorem coreRead_palData : s.coreRead c 0x0804 = s.setCell c { s.cell c with
    capt := Table.writeList (resetByte (s.cell c).prof) (s.cell c).capt 0x0804
      [byteOf (s.cell c).palNamed.toNat 0, byteOf (s.cell c).palNamed.toNat 1, byteOf (s.cell c).palNamed.toNat 2]
    ctl := { (s.cell c).ctl with rd := byteOf (s.cell c).palNamed.toNat 0 } } :=
  coreRead_videoLowest (a := 0x0804) (n := 3) (by decide) (by decide)

end VideoReads

/-! ## A write of PAL_DATA's third byte (R234) -/

section PaletteWrite

variable (x : Cell) (a b : Nat) (v : Byte)

theorem Cell.putReg_reg8 : (x.putReg a v).reg8 b = if b = a then v else x.reg8 b :=
  Table.read_write (resetByte x.prof) x.regs a b v

/-- A logged write changes the log and may raise an edge (R49). -/
theorem Cell.logWrite_keeps (pix : Nat) (w : LlWrite) :
    (x.logWrite pix w).regs = x.regs ∧ (x.logWrite pix w).prof = x.prof ∧ (x.logWrite pix w).vid = x.vid := by
  unfold Cell.logWrite
  extract_lets b ex here e y
  split
  · exact ⟨rfl, rfl, rfl⟩
  · split <;> exact ⟨rfl, rfl, rfl⟩

/-- PAL_IDX moves on, from 0FFFh back to 0. -/
def Cell.palNext (x : Cell) (i : Nat) : Cell :=
  (x.putReg 0x0800 (byteOf ((i + 1) % 4096) 0)).putReg 0x0801 (byteOf ((i + 1) % 4096) 1)

theorem Cell.palNext_reg16 (i : Nat) : (x.palNext i).reg16 0x0800 = (i + 1) % 4096 := by
  have hlow : (x.palNext i).reg8 0x0800 = byteOf ((i + 1) % 4096) 0 := by simp [Cell.palNext, Cell.putReg_reg8]
  have hhigh : (x.palNext i).reg8 0x0801 = byteOf ((i + 1) % 4096) 1 := by simp [Cell.palNext, Cell.putReg_reg8]
  rw [Cell.reg16, hlow, hhigh]
  simp only [byteOf, BitVec.toNat_ofNat, Nat.shiftRight_eq_div_pow]
  omega

/-- The colour that a third byte completes: red, green and blue. -/
def Cell.palRgb (x : Cell) (v : Byte) : BitVec 24 := v ++ x.reg8 0x0805 ++ x.reg8 0x0804

/-- The cell with the third byte in its register and in the entry. -/
def Cell.palStored (x : Cell) (v : Byte) : Cell :=
  { x.putReg 0x0806 v with
    vid := { x.vid with palCore := Table.write (fun _ => 0) x.vid.palCore x.palIndex (x.palRgb v) } }

/-- The write is logged (R49); PAL_IDX has not moved yet. -/
def Cell.palEntered (x : Cell) (pix : Nat) (v : Byte) : Cell :=
  (x.palStored v).logWrite pix (.pal x.palIndex (x.palRgb v))

variable {pix : Nat}

theorem Cell.palEntered_reg8 (h : b ≠ 0x0806) : (x.palEntered pix v).reg8 b = x.reg8 b := by
  obtain ⟨hr, hp, _⟩ := (x.palStored v).logWrite_keeps pix (.pal x.palIndex (x.palRgb v))
  have hs : (x.palStored v).reg8 b = x.reg8 b := (x.putReg_reg8 0x0806 b v).trans (if_neg h)
  rw [← hs, Cell.reg8, Cell.palEntered, hr, hp, Cell.reg8]

theorem Cell.palEntered_vid : (x.palEntered pix v).vid = (x.palStored v).vid := by
  obtain ⟨_, _, hv⟩ := (x.palStored v).logWrite_keeps pix (.pal x.palIndex (x.palRgb v))
  exact hv

/-- The third byte writes the entry that PAL_IDX names, and with PAL_CTL.INC 1 moves PAL_IDX on. -/
theorem Cell.writePal_third : x.writePal pix 0x0806 v =
    if x.regBit 0x0802 0 then (x.palEntered pix v).palNext (x.reg16 0x0800) else x.palEntered pix v := by
  have hreg (b : Nat) (h : b ≠ 0x0806) : (x.putReg 0x0806 v).reg8 b = x.reg8 b := by rw [Cell.putReg_reg8, if_neg h]
  have hidx : (x.putReg 0x0806 v).reg16 0x0800 = x.reg16 0x0800 := by
    rw [Cell.reg16, hreg _ (by decide), hreg _ (by decide), Cell.reg16]
  have hinc : (x.palEntered pix v).regBit 0x0802 0 = x.regBit 0x0802 0 := by
    rw [Cell.regBit, Cell.palEntered_reg8 _ _ _ (by decide), Cell.regBit]
  rw [Cell.writePal, if_neg (by decide), if_pos rfl]
  simp only [hidx, hreg 0x0805 (by decide), hreg 0x0804 (by decide)]
  rw [← hinc]
  rfl

theorem Cell.writePal_third_vid : (x.writePal pix 0x0806 v).vid = (x.palStored v).vid := by
  rw [Cell.writePal_third]
  split <;> exact x.palEntered_vid v

theorem Cell.writePal_third_index : (x.writePal pix 0x0806 v).reg16 0x0800 =
    if x.regBit 0x0802 0 then (x.reg16 0x0800 + 1) % 4096 else x.reg16 0x0800 := by
  rw [Cell.writePal_third]
  split
  · exact Cell.palNext_reg16 ..
  · rw [Cell.reg16, Cell.palEntered_reg8 _ _ _ (by decide), Cell.palEntered_reg8 _ _ _ (by decide), Cell.reg16]

/-- A forager's write of a video register with no key reaches the register. -/
theorem ioWriteAs_foragerVideo {s : State} {c : CellNo} (out : Bool) (h : videoReg a = true) (hk : lockedAt a = none) :
    s.ioWriteAs c .forager out a v = s.setCell c ((s.cell c).writeReg ((s.cell c).writePixel .forager) a v) := by
  obtain ⟨hu, hd⟩ := videoReg_reached (s := s) (c := c) h
  obtain ⟨⟨hl, hh⟩, _⟩ := videoReg_iff.mp h
  have h₁ : ¬ a < 0x0400 := by omega
  have h₂ : ¬ 0x0E00 ≤ a := by omega
  have h₃ : ¬ 0x0F00 ≤ a := by omega
  simp [State.ioWriteAs, hk, hu, hd, State.regWrite, h₁, h₂, h₃]

/-- The cell with its beam at pixel clock `pix`. -/
def Cell.beamAt (x : Cell) (pix : Nat) : Cell :=
  { x with beam := { x.beam with hpix := min pix (x.beam.pgeom.htotal - 1) } }

theorem State.atPixel_eq (s : State) (c : CellNo) (pix : Nat) : s.atPixel c pix = s.setCell c ((s.cell c).beamAt pix) := rfl

theorem execPalDataWrite_writes {s : State} {c : CellNo} (h : s.startedCell c = true) (pix : Nat) :
    let y := (s.cell c).beamAt pix
    execPalDataWrite c .forager v pix s = .next (s.setCell c (y.writePal y.beam.hpix 0x0806 v)) := by
  rw [execPalDataWrite, onStarted_runs h, ioWriteAs_foragerVideo _ _ _ (by decide) (by decide), State.atPixel_eq,
    State.setCell_setCell, State.setCell_cell_self]
  rfl

end PaletteWrite

/-! ## Writeback (R241) -/

section Writeback

variable {s : State} {c : CellNo} {w : WbLine} {r : List WbLine}

/-- The cell once its oldest waiting line has been written. -/
def Cell.wbWritten (x : Cell) (w : WbLine) (r : List WbLine) : Cell :=
  let y := x.writeMemList w.addr w.bytes
  { y with vid := if w.last then { y.vid with wbQueue := r }.wbDone else { y.vid with wbQueue := r } }

theorem execWritebackWriteDone_writes (hl : s.liveCell c = true) (hq : (s.cell c).vid.wbQueue = w :: r) :
    execWritebackWriteDone c s = .next (s.setCell c ((s.cell c).wbWritten w r)) := by
  rw [execWritebackWriteDone, State.liveCell_runs hl, hq]
  rfl

/-- A store in cell space writes no frame of the writeback unit. -/
theorem Cell.writeMemList_wbFrames (x : Cell) (a : Nat) (l : List Byte) :
    (x.writeMemList a l).vid.wbFrames = x.vid.wbFrames := by
  refine x.writeMemList_keeps a (fun y => y.vid.wbFrames) (fun y a v => ?_) l
  simp only [Cell.writeMem, Cell.satLate]
  split
  · split <;> rfl
  · rfl

theorem Cell.wbWritten_vid (x : Cell) : (x.wbWritten w r).vid.wbQueue = r ∧
    (x.wbWritten w r).vid.wbFrames = if w.last then satInc x.vid.wbFrames else x.vid.wbFrames := by
  rw [← x.writeMemList_wbFrames w.addr w.bytes]
  unfold Cell.wbWritten
  dsimp only
  split <;> exact ⟨rfl, rfl⟩

theorem Cell.wbWritten_readMem (x : Cell) (a : Nat) :
    (x.wbWritten w r).readMem a = (x.writeMemList w.addr w.bytes).readMem a := rfl

end Writeback

/-- Settles O26: each command is one change of its cell, its comb or both; a completed or missed line reaches its destinations
with the slot's record kept. -/
theorem linesOfVideo : Obligations.LinesOfVideo := by
  unfold Obligations.LinesOfVideo
  refine ⟨?snapshot, ?slots, ?registers⟩
  case snapshot =>
    intro s c b n x hl hs
    refine ⟨_, execSpriteSnapshotDone_ends hl hs, s.onlyCell_setCell _, ?_⟩
    rw [State.setCell_cell_self]
    exact ⟨rfl, Cell.snapshot_mem .., Cell.snapshot_sprites _ b n⟩
  case slots =>
    intro s c k deadline waits sl x b
    refine ⟨fun hl hk ho hw hs hn hv hb => ?release, fun hu hw hn hp => ?start, fun hk hs => ?wait,
      fun hk hs hp => ?complete, fun hl hs hp => ?miss, fun hl hk ho hw hs hn hf hv => ?prefill, fun hl hf => ?prefillEnd⟩
    case release =>
      refine ⟨_, execSlotRelease_releases hl hk ho hw hs hn hv hb deadline, s.onlyCell_setCell _, ?_⟩
      rw [State.modVid_eq, State.setCell_cell_self]
      rfl
    case start =>
      obtain ⟨hwork, ⟨z, hz, hbegun⟩, hmem⟩ := State.startSlot_starts (s := s) (c := c) (k := k) (sl := sl)
      obtain ⟨hstarted, hline⟩ := Prod.mk.inj hbegun
      exact ⟨_, execSlotStart_starts hu hw hn hp, hwork, ⟨z, hz, hstarted, hline⟩, hmem⟩
    case wait => exact ⟨_, execSlotFetchArrive_waits hk hs waits, rfl⟩
    case complete =>
      obtain ⟨hrec, hwork, hslots⟩ := s.completeSlot_slotRecord c k sl
      simp only [Cell.slotRecord, CellVid.slotRecord, Cell.goneRecord, Prod.mk.injEq] at hrec
      obtain ⟨hmem, hslot, _, hcnt, _⟩ := hrec
      exact ⟨_, execSlotComplete_completes hk hs hp, hslot, hwork, hslots, hcnt, hmem⟩
    case miss =>
      obtain ⟨⟨black, hrec⟩, hmisses⟩ := s.missSlot_slotRecord c sl
      simp only [Cell.slotRecord, CellVid.slotRecord, Prod.mk.injEq] at hrec
      obtain ⟨_, hslot, hst, hcnt, hline⟩ := hrec
      refine ⟨_, execSlotMiss_misses hl hs hp, hslot, ?_, hcnt, hline, hmisses⟩
      rw [hst]
      simp
    case prefill =>
      refine ⟨_, execPrefillRelease_releases hl hk ho hw hs hn hf hv, ?_⟩
      dsimp only
      rw [State.modComb_cell, State.modVid_eq, State.setCell_cell_self, CellVid.openColl_of_none hv]
      exact ⟨rfl, rfl, rfl⟩
    case prefillEnd =>
      refine ⟨_, execPrefillEnd_ends hl hf, ?_⟩
      dsimp only
      rw [State.modComb_cell, State.modVid_eq, State.setCell_cell_self]
      exact ⟨rfl, rfl⟩
  case registers =>
    intro s c v pix w r x e clears
    refine ⟨fun hs => ?_, fun hs => ?_, fun hs => ?_, fun hs => ?_, fun hs => ?_, fun hs => ?_, fun hl hq => ?_⟩
    · exact ⟨_, coreReadAt_next hs coreRead_sprStat, s.onlyCell_setCell _, by simp [x]⟩
    · exact ⟨_, coreReadAt_next hs coreRead_wgStat, s.onlyCell_setCell _, by simp [x]⟩
    · exact ⟨_, coreReadAt_next hs coreRead_wbStat, s.onlyCell_setCell _, by simp [x]⟩
    · refine ⟨_, coreReadAt_next hs coreRead_missCnt, s.onlyCell_setCell _, ?_⟩
      simp [x, Cell.captured, Table.read_writeList]
    · exact ⟨_, coreReadAt_next hs coreRead_palData, s.onlyCell_setCell _, by simp [x, e, Cell.palNamed, Cell.palIndex]⟩
    · refine ⟨_, execPalDataWrite_writes v hs pix, ?_⟩
      dsimp only
      rw [State.setCell_cell_self, Cell.writePal_third_vid]
      refine ⟨(Table.read_write ..).trans (if_pos rfl), fun i hi => (Table.read_write ..).trans (if_neg hi), rfl, ?_⟩
      exact Cell.writePal_third_index ..
    · obtain ⟨hqueue, hframes⟩ := x.wbWritten_vid (w := w) (r := r)
      refine ⟨_, execWritebackWriteDone_writes hl hq, s.onlyCell_setCell _, ?_⟩
      rw [State.setCell_cell_self]
      refine ⟨hqueue, hframes, fun i hi => ?_, fun a ha => ?_⟩
      · rw [Cell.wbWritten_readMem, Cell.writeMemList_readMem, dif_pos ⟨Nat.le_add_right .., Nat.add_lt_add_left hi _⟩]
        simp [hi]
      · rw [Cell.wbWritten_readMem, Cell.writeMemList_readMem, dif_neg (by omega)]

end Sys2Proof.Machine
end

section
/-! PROOFS for spec/10_waggle_lists.md: what each waggle instruction does to the slot that executes it, and the command by
which the engine of a cell takes one (O27). -/

namespace Sys2Proof.Machine

/-! ## The state operations of the engine (R217, R220, R222) -/

section SlotOperations

variable (sl : Slot) {ha a v line pixel count start : Nat}

/-- A write stamped left of VB_HACTIVE joins the writes of the present line. -/
theorem Slot.wgWrite_onLine (h : sl.run.pos < ha) (w : LlWrite) :
    sl.wgWrite ha w = { sl with run := { sl.run with writes := sl.run.writes ++ [(sl.run.pos, w)] } } := if_pos h

/-- A 16-bit write is two writes of one stamp, the low byte first. -/
theorem Slot.wgWrite16_onLine (h : sl.run.pos < ha) :
    sl.wgWrite16 ha a v = { sl with run := { sl.run with
      writes := sl.run.writes ++ [(sl.run.pos, .reg a (byteOf v 0)), (sl.run.pos, .reg (a + 1) (byteOf v 1))] } } := by
  rw [Slot.wgWrite16, sl.wgWrite_onLine h, Slot.wgWrite_onLine _ (by exact h)]
  simp

theorem Slot.wgWaitAt_later (h : sl.run.line < line) :
    sl.wgWaitAt line pixel =
      { sl with eng := { sl.eng with wait := some (line, pixel) }, run := { sl.run with held := true } } := by
  rw [Slot.wgWaitAt, if_neg (Nat.ne_of_gt h), if_neg (Nat.lt_asymm h)]

theorem Slot.wgCloseLoop_again (h : 2 ≤ count) :
    sl.wgCloseLoop count start = { sl with
      eng := { sl.eng with loop := some (count - 1, start), ptr := start }, run := { sl.run with held := true } } := if_pos h

end SlotOperations

/-! ## What each opcode does (R219 to R224) -/

section Opcodes

variable (sl : Slot) (x : Cell) (w0 w1 : Nat)

theorem Slot.wgExec_end : sl.wgExec x 0 w0 w1 =
    { sl.wgCount 1 with eng := { (sl.wgCount 1).eng with off := true }, run := { (sl.wgCount 1).run with held := true } } := rfl

theorem Slot.wgExec_wait : sl.wgExec x 1 w0 w1 = (sl.wgCount 1).wgWaitAt
    (if w0 / 2 ^ 27 % 2 = 1 then sl.run.line + w0 / 65536 % 2048 else w0 / 65536 % 2048) (w0 % 2048) := rfl

theorem Slot.wgExec_wr8 : sl.wgExec x 2 w0 w1 =
    if lineLive8 x.prof (0x0400 + w0 / 65536 % 1024) then
      (sl.wgCount 1).wgWrite x.beam.geom.hactive (.reg (0x0400 + w0 / 65536 % 1024) (BitVec.ofNat 8 w0))
    else sl.wgFault 2 1 true := rfl

theorem Slot.wgExec_wr16 : sl.wgExec x 3 w0 w1 =
    if (0x0400 + w0 / 65536 % 1024) % 2 = 0 && lineLive16 x.prof (0x0400 + w0 / 65536 % 1024) then
      (sl.wgCount 1).wgWrite16 x.beam.geom.hactive (0x0400 + w0 / 65536 % 1024) (w0 % 65536)
    else sl.wgFault 2 1 true := rfl

theorem Slot.wgExec_pal : sl.wgExec x 4 w0 w1 =
    if w0 / 65536 % 4096 < palSize x.prof then
      (sl.wgCount 2).wgWrite x.beam.geom.hactive (.pal (w0 / 65536 % 4096) (BitVec.ofNat 24 w1))
    else sl.wgFault 2 2 true := rfl

/-- TBL of a whole table entry; one whose read is refused is a range fault. -/
theorem Slot.wgExec_tbl {bs : List Byte}
    (hb : x.span (w1 + 2 * ((sl.run.line + w0 % 4096) % 2 ^ (w0 / 4096 % 16))) 2 = some bs) :
    sl.wgExec x 5 w0 w1 =
      if (0x0400 + w0 / 65536 % 1024) % 2 = 0 && lineLive16 x.prof (0x0400 + w0 / 65536 % 1024) then
        (sl.wgCount 2).wgWrite16 x.beam.geom.hactive (0x0400 + w0 / 65536 % 1024) (ofBytes bs)
      else sl.wgFault 2 2 true := by
  simp [Slot.wgExec, wgWords, hb]

theorem Slot.wgExec_repl : sl.wgExec x 6 w0 w1 =
    if sl.eng.loop.isSome then sl.wgFault 3 1 true else (sl.wgCount 1).wgOpenLoop (w0 % 2048) := rfl

theorem Slot.wgExec_endr {count start : Nat} (h : sl.eng.loop = some (count, start)) :
    sl.wgExec x 7 w0 w1 = (sl.wgCount 1).wgCloseLoop count start := by
  simp [Slot.wgExec, wgWords, h]

theorem Slot.wgExec_irq : sl.wgExec x 8 w0 w1 = { sl.wgCount 1 with irq := some sl.run.line } := rfl

theorem Slot.wgExec_nop : sl.wgExec x 9 w0 w1 = sl.wgCount 1 := rfl

theorem Slot.wgExec_jmp : sl.wgExec x 10 w0 w1 = { sl.wgCount 2 with eng := { (sl.wgCount 2).eng with ptr := w1 } } := rfl

end Opcodes

/-! ## An instruction that is taken (R217, R219, R225) -/

section Taken

variable {op : Nat}

/-- The opcodes of two words are PAL, TBL and JMP. -/
theorem wgWords_eq_two_iff : wgWords op = 2 ↔ op = 4 ∨ op = 5 ∨ op = 10 := by
  have guard_iff : (op = 4 || op = 5 || op = 10) = true ↔ op = 4 ∨ op = 5 ∨ op = 10 := by
    simp only [Bool.or_eq_true, decide_eq_true_eq, or_assoc]
  unfold wgWords
  split
  case isTrue h => exact iff_of_true rfl (guard_iff.mp h)
  case isFalse h => exact iff_of_false (by decide) (mt guard_iff.mpr h)

/-- The form of an instruction of one word is a matter of that word alone. -/
theorem wgFormOk_oneWord (h : wgWords op ≠ 2) (w0 w1 w : Nat) : wgFormOk op w0 w1 = wgFormOk op w0 w := by
  obtain ⟨hpal, htbl, hjmp⟩ : op ≠ 4 ∧ op ≠ 5 ∧ op ≠ 10 := by simpa [wgWords_eq_two_iff] using h
  simp [wgFormOk, hpal, htbl, hjmp]

/-- What an instruction of one word does is a matter of that word alone. -/
theorem Slot.wgExec_oneWord (h : wgWords op ≠ 2) (sl : Slot) (x : Cell) (w0 w1 w : Nat) :
    sl.wgExec x op w0 w1 = sl.wgExec x op w0 w := by
  obtain ⟨hpal, htbl, hjmp⟩ : op ≠ 4 ∧ op ≠ 5 ∧ op ≠ 10 := by simpa [wgWords_eq_two_iff] using h
  simp [Slot.wgExec, hpal, htbl, hjmp]

/-- The engine of cell `c` is at work in its started slot `sl` below the line limit, and `w0` stands at its pointer. -/
structure State.WgReady (s : State) (c : CellNo) (sl : Slot) (w0 : Nat) : Prop where
  present : s.present c = true
  slot : (s.cell c).vid.slot = some sl
  started : sl.started = true
  free : sl.run.held = false
  below : sl.run.count < wgLmax (s.cell c).prof
  word : (s.cell c).wgWord sl.eng.ptr = some w0

variable {s : State} {c : CellNo} {sl : Slot} {w0 w1 : Nat}

/-- The engine executes an instruction whose form is kept; only one of two words reads the second. -/
theorem Slot.wgStep_executes (h : s.WgReady c sl w0) (hop : w0 / 2 ^ 28 ≤ 10)
    (hw : wgWords (w0 / 2 ^ 28) = 2 → (s.cell c).wgWord (sl.eng.ptr + 4) = some w1)
    (hf : wgFormOk (w0 / 2 ^ 28) w0 w1 = true) :
    sl.wgStep (s.cell c) = sl.wgExec (s.cell c) (w0 / 2 ^ 28) w0 w1 := by
  unfold Slot.wgStep
  rw [if_neg (by simp [h.free]), if_neg (Nat.not_le_of_lt h.below), h.word]
  dsimp only
  rw [if_neg (Nat.not_lt_of_le hop)]
  by_cases htwo : wgWords (w0 / 2 ^ 28) = 2
  · rw [if_pos htwo, hw htwo]
    exact if_pos hf
  · rw [if_neg htwo, Slot.wgExec_oneWord htwo sl _ w0 w1 0]
    exact if_pos ((wgFormOk_oneWord htwo w0 w1 0).symm.trans hf)

theorem wgInstr_steps (h : s.WgReady c sl w0) (hop : w0 / 2 ^ 28 = op) :
    wgInstr op c s = .next (s.modVid c fun v => { v with slot := some ((sl.wgStep (s.cell c)).settle (s.cell c)) }) := by
  rw [wgInstr, onCell_present h.present]
  dsimp only
  rw [h.slot]
  dsimp only
  rw [if_neg (by simp [h.started, h.free]), h.word]
  exact if_pos hop

/-- The command of opcode `op` leaves in the slot what that opcode makes of it, and changes nothing else. -/
theorem wgInstr_completes (h : s.WgReady c sl w0) (hf : wgFormOk (w0 / 2 ^ 28) w0 w1 = true) {i : Instr} {y : Slot}
    (hi : exec i s = wgInstr op c s) (hle : op ≤ 10)
    (hw : wgWords op = 2 → (s.cell c).wgWord (sl.eng.ptr + 4) = some w1)
    (hy : sl.wgExec (s.cell c) op w0 w1 = y) (hop : w0 / 2 ^ 28 = op) :
    Completes i s fun t => t = s.modVid c fun v => { v with slot := some (y.settle (s.cell c)) } := by
  refine ⟨_, hi.trans (wgInstr_steps h hop), ?_⟩
  subst hop
  rw [Slot.wgStep_executes h hle hw hf, hy]

end Taken

/-- Settles O27: the engine executes the word at its pointer, and each opcode has its own equation. -/
theorem waggleInstructions : Obligations.WaggleInstructions := by
  unfold Obligations.WaggleInstructions
  intro s c sl w0 w1 bs count start x ha a p takes next hp hs hst hh hc hw hf
  have ready : s.WgReady c sl w0 := ⟨hp, hs, hst, hh, hc, hw⟩
  have one {i : Instr} {op : Nat} {y : Slot} (hi : exec i s = wgInstr op c s) (hle : op ≤ 10) (hn : wgWords op ≠ 2)
      (hy : sl.wgExec x op w0 w1 = y) : takes i op y :=
    wgInstr_completes ready hf hi hle (fun h => absurd h hn) hy
  have two {i : Instr} {op : Nat} {y : Slot} (h₁ : x.wgWord (p + 4) = some w1) (hi : exec i s = wgInstr op c s)
      (hle : op ≤ 10) (hy : sl.wgExec x op w0 w1 = y) : takes i op y :=
    wgInstr_completes ready hf hi hle (fun _ => h₁) hy
  refine ⟨?stop, ?wait, ?wr8, ?wr16, ?pal, ?tbl, ?repl, ?endr, ?irq, ?nop, ?jmp⟩
  case stop => exact one rfl (by decide) (by decide) (sl.wgExec_end x w0 w1)
  case wait =>
    intro hrel hline
    refine one rfl (by decide) (by decide) ?_
    rw [Slot.wgExec_wait, if_neg (by omega)]
    exact (sl.wgCount 1).wgWaitAt_later hline
  case wr8 =>
    intro hlive hpos
    refine one rfl (by decide) (by decide) ?_
    rw [Slot.wgExec_wr8, if_pos hlive]
    exact (sl.wgCount 1).wgWrite_onLine hpos _
  case wr16 =>
    intro hlive heven hpos
    refine one rfl (by decide) (by decide) ?_
    rw [Slot.wgExec_wr16, if_pos (Bool.and_eq_true_iff.mpr ⟨decide_eq_true heven, hlive⟩)]
    exact (sl.wgCount 1).wgWrite16_onLine hpos
  case pal =>
    intro h₁ hindex hpos
    refine two h₁ rfl (by decide) ?_
    rw [Slot.wgExec_pal, if_pos hindex]
    exact (sl.wgCount 2).wgWrite_onLine hpos _
  case tbl =>
    intro h₁ hlive heven hpos hentry
    refine two h₁ rfl (by decide) ?_
    rw [Slot.wgExec_tbl sl x w0 w1 hentry, if_pos (Bool.and_eq_true_iff.mpr ⟨decide_eq_true heven, hlive⟩)]
    exact (sl.wgCount 2).wgWrite16_onLine hpos
  case repl =>
    intro hloop
    refine one rfl (by decide) (by decide) ?_
    rw [Slot.wgExec_repl, if_neg (by simp [hloop])]
    rfl
  case endr =>
    intro hloop hcount
    refine one rfl (by decide) (by decide) ?_
    rw [Slot.wgExec_endr sl x w0 w1 hloop]
    exact (sl.wgCount 1).wgCloseLoop_again hcount
  case irq => exact one rfl (by decide) (by decide) (sl.wgExec_irq x w0 w1)
  case nop => exact one rfl (by decide) (by decide) (sl.wgExec_nop x w0 w1)
  case jmp => exact fun h₁ => two h₁ rfl (by decide) (sl.wgExec_jmp x w0 w1)

end Sys2Proof.Machine
end

section
/-! PROOFS for spec/11_composition.md: the raster and the link of a head, its overlay rows and its flip block (O40). -/

namespace Sys2Proof.Machine

/-! ## Reading what was changed -/

theorem Vector.get_set_self {α : Type} {n : Nat} (v : Vector α n) (i : Fin n) (x : α) : (v.set i x).get i = x :=
  Vector.getElem_set_self ..

theorem State.modHead_get (s : State) (h : Fin 4) (f : Head → Head) : (s.modHead h f).heads.get h = f (s.heads.get h) :=
  Vector.get_set_self ..

/-! ## Shared sources leave the heads alone (R157) -/

section Sources

variable (s : State)

@[simp] theorem State.sendTo_heads (d : BitVec 3) (kind : Nat) (last : Bool) (tag : Word) (p : List Byte) :
    (s.sendTo d kind last tag p).heads = s.heads := by
  unfold State.sendTo
  split <;> rfl

@[simp] theorem State.shToCell_heads (n : Fin 153) (d : BitVec 3) (c : CellNo) (input : Nat) :
    (s.shToCell n d c input).heads = s.heads := by
  have hcell : (s.shInput c input).heads = s.heads := rfl
  unfold State.shToCell
  dsimp only
  repeat' split
  all_goals simp [hcell]

@[simp] theorem State.fireShared_heads (n : Fin 153) : (s.fireShared n).heads = s.heads := by
  unfold State.fireShared
  extract_lets r t
  have ht : t.heads = s.heads := rfl
  split
  · exact ht
  · rw [State.shToCell_heads, ht]
  · split
    · exact ht
    · rw [State.raise_heads, ht]
  · exact ht

end Sources

/-! ## The raster (R425, R427 to R429) -/

/-- Where the raster of a head stands, and the state of its link: what the composition of a line leaves as it is. -/
def Head.raster (k : Head) : Bool × Nat × Long × Byte := (k.on, k.line, k.frame, k.link)

/-- The raster moves on by one line in frames of `vtotal` lines. -/
def Head.advance (vtotal : Nat) (k : Head) : Head :=
  if k.waiting || decide (vtotal ≤ k.line + 1) then k.frameStart else { k with line := k.line + 1 }

theorem Head.advance_on (vtotal : Nat) (k : Head) : (k.advance vtotal).on = k.on := by
  unfold Head.advance
  split <;> rfl

theorem Head.advance_within {vtotal : Nat} {k : Head} (hw : k.waiting = false) (hl : k.line + 1 < vtotal) :
    k.advance vtotal = { k with line := k.line + 1 } :=
  if_neg (by simp [hw, hl])

theorem Head.advance_wraps {vtotal : Nat} {k : Head} (hl : vtotal ≤ k.line + 1) : k.advance vtotal = k.frameStart :=
  if_pos (by simp [hl])

section Raster

variable (s : State) (h : Fin 4)

theorem State.modHead_raster {f : Head → Head} (hf : ∀ k, (f k).raster = k.raster) :
    ((s.modHead h f).heads.get h).raster = (s.heads.get h).raster := by
  rw [State.modHead_get, hf]

theorem State.headUnderrun_raster (l : Fin 2) (py : Nat) :
    ((s.headUnderrun h l py).heads.get h).raster = (s.heads.get h).raster := by
  unfold State.headUnderrun
  extract_lets k t
  have ht : (t.heads.get h).raster = (s.heads.get h).raster := s.modHead_raster h fun _ => rfl
  split
  · rfl
  · split
    · exact ht
    · rw [State.raise_heads, State.fireShared_heads, ht]

theorem State.headLate_raster (py : Nat) : ((s.headLate h py).heads.get h).raster = (s.heads.get h).raster :=
  s.modHead_raster h fun _ => rfl

theorem State.headCompose_raster (py : Nat) : ((s.headCompose h py).heads.get h).raster = (s.heads.get h).raster := by
  unfold State.headCompose
  extract_lets t o
  have ht : (t.heads.get h).raster = (s.heads.get h).raster := by
    rw [State.headLate_raster, State.headUnderrun_raster, State.headUnderrun_raster]
  exact Eq.trans (t.modHead_raster h fun _ => rfl) ht

theorem State.headLineStart_off {s : State} {h : Fin 4} (hoff : (s.heads.get h).on = false) : s.headLineStart h = s :=
  if_pos (by simp [hoff])

/-- On a line that is not the first of vertical blanking, a head line start moves the raster on and does nothing else
to it. -/
theorem State.headLineStart_raster {s : State} {h : Fin 4} (hon : (s.heads.get h).on = true)
    (hb : ((s.heads.get h).advance (s.headGeom h.val).vtotal).line ≠ (s.headGeom h.val).vactive) :
    ((s.headLineStart h).heads.get h).raster = ((s.heads.get h).advance (s.headGeom h.val).vtotal).raster := by
  unfold State.headLineStart
  extract_lets k g t n u
  have ht : t = s.modHead h (Head.advance g.vtotal) := by
    unfold t State.modHead Head.advance
    split <;> rfl
  have hget : t.heads.get h = k.advance g.vtotal := by rw [ht, State.modHead_get]
  have hu : u = t := if_neg (by rwa [← hget] at hb)
  rw [if_neg (by simp [k, hon]), hu, if_neg (by simp [hget, Head.advance_on, k, hon])]
  split
  · rw [State.headCompose_raster, hget]
  · split
    · rw [State.headCompose_raster, hget]
    · rw [hget]

end Raster

/-! ## The link (R424) -/

section HeadLink

variable {s : State} {h : Fin 4}

/-- A change of the link names its lanes and its rate, and counts a retraining. -/
theorem State.setHeadLink_get (st : Byte) (lanes rate : Nat) :
    (s.setHeadLink h st lanes rate).heads.get h =
      { s.heads.get h with
        link := st, lanes := BitVec.ofNat 8 lanes, rate := BitVec.ofNat 8 rate
        sending := (s.heads.get h).sending && st == 3
        retrains := if st = 2 ∧ (s.heads.get h).link = 3 then satInc (s.heads.get h).retrains
          else (s.heads.get h).retrains } := by
  unfold State.setHeadLink
  extract_lets k n t
  have ht : t.heads.get h = n := s.modHead_get h fun _ => n
  split
  · exact ht
  · rw [State.raise_heads, ht]

theorem State.trainHead_noSink (hs : (s.heads.get h).sink = none) : s.trainHead h = s.setHeadLink h 1 0 0 := by
  rw [State.trainHead, hs]

theorem State.trainHead_combo {caps : SinkCaps} {n r : Nat} {rest : List (Nat × Nat)}
    (hs : (s.heads.get h).sink = some caps) (hc : s.combos h.val caps = (n, r) :: rest) :
    s.trainHead h = s.setHeadLink h 2 n r := by
  rw [State.trainHead, hs]
  dsimp only
  rw [hc]

end HeadLink

/-! ## Overlay rows (R246, R428) and the flip block (R248, R421) -/

/-- Layer `l` of head `h` changes. -/
def State.modLayer (s : State) (h : Fin 4) (l : Fin 2) (f : Layer → Layer) : State :=
  s.modHead h fun k => { k with layers := k.layers.set l (f (k.layers.get l)) }

theorem State.modLayer_get (s : State) (h : Fin 4) (l : Fin 2) (f : Layer → Layer) :
    ((s.modLayer h l f).heads.get h).layers.get l = f ((s.heads.get h).layers.get l) := by
  rw [State.modLayer, State.modHead_get, Vector.get_set_self]

theorem State.modLayer_raster (s : State) (h : Fin 4) (l : Fin 2) (f : Layer → Layer) :
    ((s.modLayer h l f).heads.get h).raster = (s.heads.get h).raster :=
  s.modHead_raster h fun _ => rfl

/-- A row that is due and not packed is kept as its words, cut to the width of the overlay. -/
theorem State.rowArrive_plain {s : State} {h : Fin 4} {l : Fin 2} {py j : Nat} (dir : Word) (bytes : List Byte)
    (hrow : s.layerRow h l py = some j) (hopen : s.rowOpen h py = true) (hplain : s.ov h l 1 0 / 2 % 2 = 0) :
    s.rowArrive h l py dir bytes =
      s.modLayer h l fun y => { y with rows := (py, (words32 bytes).take (s.ov h l 3 0 % 65536)) :: y.rows } := by
  simp [State.rowArrive, State.modLayer, State.modHead, hrow, hopen, hplain]

/-- A wide write at 10h is one of FLIP_SEAL. -/
theorem Layer.write_flipSeal (y : Layer) (v : Long) : y.write 0x10 true v = y.arm v := rfl

theorem Layer.writeSeal_wide (y : Layer) (high : Bool) (v : Long) : y.writeSeal high true v = { y with sealNow := v } := rfl

/-! ## The commands of a head whose domain is on -/

section HeadCommands

variable {s : State} {h : Fin 4}

theorem exec_headLineStart (up : s.headUp h = true) : exec (.headLineStart h) s = .next (s.headLineStart h) :=
  congrArg Host.Outcome.next (if_pos up)

theorem exec_hotplug_on (sink : Option SinkCaps) (up : s.headUp h = true) (hon : (s.heads.get h).on = true) :
    exec (.hotplug h sink) s = .next ((s.modHead h fun k => { k with sink := sink }).trainHead h) := by
  refine congrArg Host.Outcome.next (if_pos ?_)
  rw [State.modHead_get]
  exact Bool.and_eq_true_iff.mpr ⟨up, hon⟩

theorem exec_hotplug_off (sink : Option SinkCaps) (hoff : (s.heads.get h).on = false) :
    exec (.hotplug h sink) s = .next (s.modHead h fun k => { k with sink := sink }) := by
  refine congrArg Host.Outcome.next (if_neg ?_)
  rw [State.modHead_get]
  simp [hoff]

theorem exec_headTrainDone (ok : Bool) (up : s.headUp h = true) (hl : (s.heads.get h).link = 2) :
    exec (.headTrainDone h ok) s = .next (s.headTrained h ok) :=
  congrArg Host.Outcome.next (if_pos (by simp [up, hl]))

theorem exec_headTrainRetry (up : s.headUp h = true) (hl : (s.heads.get h).link = 4) :
    exec (.headTrainRetry h) s = .next (s.trainHead h) :=
  congrArg Host.Outcome.next (if_pos (by simp [up, hl]))

theorem exec_overlayRowArrive (l : Fin 2) (py : Nat) (dir : Word) (bytes : List Byte) (up : s.headUp h = true) :
    exec (.overlayRowArrive h l py dir bytes) s = .next (s.rowArrive h l py dir bytes) :=
  congrArg Host.Outcome.next (if_pos up)

theorem exec_flipSealWrite (l : Fin 2) (off : Nat) (wide : Bool) (v : Long) (up : s.headUp h = true) :
    exec (.flipSealWrite h l off wide v) s = .next (s.modLayer h l fun y => y.write off wide v) :=
  congrArg Host.Outcome.next (if_pos up)

theorem exec_sealWrite (l : Fin 2) (high wide : Bool) (v : Long) (up : s.headUp h = true) :
    exec (.sealWrite h l high wide v) s = .next (s.modLayer h l fun y => y.writeSeal high wide v) :=
  congrArg Host.Outcome.next (if_pos up)

end HeadCommands

/-- Settles O40: the raster moves on before a line is composed, the sink decides how the link trains, and a row or a write of
the flip block changes its layer alone. -/
theorem headCommands : Obligations.HeadCommands := by
  unfold Obligations.HeadCommands
  intro s h l v caps py j n r dir bytes rest k y g up
  refine ⟨?within, ?wraps, ?off, ?unplugged, ?plugged, ?trained, ?retried, ?row, ?flip, ?stored⟩
  case within =>
    intro hon hw hl hb
    have hmove := Head.advance_within hw hl
    have hr := State.headLineStart_raster hon (by rwa [hmove])
    rw [hmove] at hr
    simp only [Head.raster, Prod.mk.injEq] at hr
    obtain ⟨_, hline, hframe, hlink⟩ := hr
    exact ⟨_, exec_headLineStart up, hline, hframe, hlink⟩
  case wraps =>
    intro hon hw hl ha
    have hmove := Head.advance_wraps hl
    have hr := State.headLineStart_raster hon (by rw [hmove]; exact Nat.ne_of_lt (Nat.zero_lt_of_lt ha))
    rw [hmove] at hr
    simp only [Head.raster, Head.frameStart, Prod.mk.injEq] at hr
    obtain ⟨_, hline, hframe, _⟩ := hr
    exact ⟨_, exec_headLineStart up, hline, hframe.trans (if_neg (by simp [k, hw]))⟩
  case off => exact fun hoff => ⟨_, exec_headLineStart up, State.headLineStart_off hoff⟩
  case unplugged =>
    intro hon
    refine ⟨_, exec_hotplug_on none up hon, ?_⟩
    dsimp only
    rw [State.trainHead_noSink (by rw [State.modHead_get]), State.setHeadLink_get, State.modHead_get]
    exact ⟨rfl, rfl, hon⟩
  case plugged =>
    intro hoff
    refine ⟨_, exec_hotplug_off _ hoff, ?_⟩
    dsimp only
    rw [State.modHead_get]
    exact ⟨rfl, rfl⟩
  case trained =>
    intro hl
    refine ⟨_, exec_headTrainDone true up hl, ?_⟩
    dsimp only
    rw [State.headTrained, if_pos rfl, State.setHeadLink_get]
    exact ⟨rfl, BitVec.ofNat_toNat .., BitVec.ofNat_toNat ..⟩
  case retried =>
    intro hl hs hc
    refine ⟨_, exec_headTrainRetry up hl, ?_⟩
    dsimp only
    rw [State.trainHead_combo hs hc, State.setHeadLink_get]
    exact ⟨rfl, rfl, rfl⟩
  case row =>
    intro hrow hopen hplain
    refine ⟨_, exec_overlayRowArrive l py dir bytes up, ?_⟩
    dsimp only
    rw [State.rowArrive_plain dir bytes hrow hopen hplain, State.modLayer_get]
    exact ⟨rfl, rfl, congrArg (·.2.1) (s.modLayer_raster h l _)⟩
  case flip =>
    refine ⟨_, exec_flipSealWrite l 0x10 true v up, ?_⟩
    dsimp only
    rw [State.modLayer_get, Layer.write_flipSeal]
    exact ⟨rfl, rfl, rfl, rfl, rfl⟩
  case stored =>
    refine ⟨_, exec_sealWrite l false true v up, ?_⟩
    dsimp only
    rw [State.modLayer_get, Layer.writeSeal_wide]
    exact ⟨rfl, rfl, rfl⟩

end Sys2Proof.Machine
end

section
/-! PROOFS for spec/13_blitter.md: what a write of an I/O register changes before it reaches its block, and CANCEL of the
blitter (O50). -/

namespace Sys2Proof.Machine

/-! ## A write that reaches a register with no key (R57, R119, R557) -/

section RegisterWrites

variable {s : State} {c : CellNo} {a : Nat}

/-- The cell with its open locked sequence set aside, as a write finds it that reaches a register: the core's write breaks the
sequence, that of a forager or a debugger leaves it. -/
def Cell.Unlocking (x y : Cell) : Prop := ∃ q w, y = { x with ctl := { x.ctl with locked := q }, wd := w }

theorem Cell.breakSeq_unlocking (x : Cell) : x.Unlocking x.breakSeq := by
  unfold Cell.breakSeq
  split
  · exact ⟨_, _, rfl⟩
  · next q _ => cases q.reg <;> exact ⟨_, _, rfl⟩

theorem Cell.lockedWrite_unlocking (x : Cell) (hk : lockedAt a = none) (v : Byte) (out : Bool) :
    x.Unlocking (x.lockedWrite a v out).1 ∧ (x.lockedWrite a v out).2 = none := by
  simp only [Cell.lockedWrite, hk]
  exact ⟨x.breakSeq_unlocking, trivial⟩

/-- Such a write is the register's own write, made in the cell with its open sequence set aside. -/
theorem ioWriteAs_reaches (hk : lockedAt a = none) (hm : ioMapped (s.cell c).prof a = true) (hd : s.ioDark a = false) (ag : Agent)
    (out : Bool) (v : Byte) :
    ∃ y, (s.cell c).Unlocking y ∧ s.ioWriteAs c ag out a v = (s.setCell c y).regWrite c (y.writePixel ag) a v := by
  have hp : ∃ y, (s.cell c).Unlocking y ∧
      (if ag = .core then (s.cell c).lockedWrite a v out else (s.cell c, none)) = (y, (none : Option LockedReg)) := by
    obtain ⟨hu, hn⟩ := (s.cell c).lockedWrite_unlocking hk v out
    split
    · exact ⟨_, hu, Prod.ext rfl hn⟩
    · exact ⟨_, ⟨_, _, rfl⟩, rfl⟩
  obtain ⟨y, hu, e⟩ := hp
  refine ⟨y, hu, ?_⟩
  have hy : y.ioUnmapped a = false := by
    obtain ⟨q, w, rfl⟩ := hu
    simp [Cell.ioUnmapped, hm]
  have hd' : (s.setCell c y).ioDark a = false := hd
  simp only [State.ioWriteAs, e, hk, State.setCell_cell_self, hy, hd', Option.isSome_none, Bool.or_self, Bool.false_eq_true, if_false]

/-- The registers with locked sequences lie below 01D4h (R557). -/
theorem lockedAt_above (h : 0x01D4 ≤ a) : lockedAt a = none := by
  have h₁ : a ≠ 0x0044 ∧ a ≠ 0x0021 ∧ a ≠ 0x01D3 ∧ a ≠ 0x01D2 := by omega
  simp [lockedAt, h₁]

theorem isAffine_outside (h : a < 0x0604 ∨ 0x0630 ≤ a) : isAffine a = false := by
  simp only [isAffine, inRanges, List.any_cons, List.any_nil, Bool.or_false, Bool.or_eq_false_iff, Bool.and_eq_false_iff,
    decide_eq_false_iff_not]
  omega

/-- From 0E00h on every profile has the same registers. -/
theorem ioMapped_above (prof : Byte) (h : 0x0E00 ≤ a) : ioMapped prof a = inRanges ioRanges a := by
  have ha : isAffine a = false := isAffine_outside (.inr (by omega))
  have h₁ : ¬ a < 0x01C0 ∧ ¬ a < 0x0300 ∧ ¬ a < 0x0500 ∧ ¬ a < 0x0E00 := by omega
  simp [ioMapped, h₁, ha]

/-- A register of the foragers, the blitter or the check unit (R282, R293, R297). -/
def engineReg (a : Nat) : Bool :=
  decide (0x0200 ≤ a) && decide (a < 0x03C0) && (if a < 0x0300 then decide (a % 64 ≤ 0x15) else inRanges ioRanges a)

/-- A write of a register of an engine acts on its cell alone. -/
theorem ioWriteAs_engine (h : engineReg a = true) (ag : Agent) (v : Byte) :
    ∃ y, (s.cell c).Unlocking y ∧ s.ioWriteAs c ag false a v = s.setCell c (y.writeReg (y.writePixel ag) a v) := by
  simp only [engineReg, Bool.and_eq_true, decide_eq_true_eq] at h
  obtain ⟨⟨hl, hh⟩, hr⟩ := h
  have hk : lockedAt a = none := lockedAt_above (by omega)
  have hm : ioMapped (s.cell c).prof a = true := by
    have ha : isAffine a = false := isAffine_outside (.inl (by omega))
    have h₁ : ¬ a < 0x01C0 := by omega
    have h₃ : ¬ 0x0440 ≤ a := by omega
    have h₄ : ¬ 0x0C00 ≤ a := by omega
    by_cases h₂ : a < 0x0300
    · simpa [ioMapped, h₁, hl, h₂] using hr
    · simpa [ioMapped, h₁, h₂, h₃, h₄, ha] using hr
  have hd : s.ioDark a = false := by
    have h₁ : ¬ 0x0E80 ≤ a := by omega
    simp [State.ioDark, h₁]
  obtain ⟨y, hu, e⟩ := ioWriteAs_reaches hk hm hd ag false v
  refine ⟨y, hu, e.trans ?_⟩
  have h₁ : ¬ 0x03C0 ≤ a := by omega
  have h₂ : ¬ 0x0E00 ≤ a := by omega
  have h₃ : ¬ 0x0F00 ≤ a := by omega
  simp [State.regWrite, h₁, h₂, h₃]

/-- The same as a command of the core. -/
theorem coreWrite_engine (hs : s.startedCell c = true) (h : engineReg a = true) (v : Byte) :
    ∃ y, (s.cell c).Unlocking y ∧ coreWrite c a v s = .next (s.setCell c (y.writeReg (y.writePixel .core) a v)) := by
  obtain ⟨y, hu, e⟩ := ioWriteAs_engine (s := s) (c := c) h .core v
  exact ⟨y, hu, by rw [coreWrite, onStarted_runs hs, e]⟩

end RegisterWrites

/-! ## CANCEL (R277) -/

/-- Flags that are set together change the status, and the interrupt controller at most beside it. -/
theorem Cell.blitFlags_eq (x : Cell) (bits : Byte) :
    ∃ i, x.blitFlags bits = { x with blit := { x.blit with stat := x.blit.stat ||| bits }, ic := i } := by
  unfold Cell.blitFlags
  extract_lets y
  split <;> exact ⟨_, rfl⟩

/-- CANCEL of a running operation leaves the context idle with ERR and code 3, and changes no memory. -/
theorem Cell.blitCancel_running {x : Cell} {o : BlitOp} (h : x.blit.run = some o) :
    x.blitCancel.blit.run = none ∧ x.blitCancel.blit.queue = none ∧ x.blitCancel.blit.err = 3 ∧
      x.blitCancel.blit.stat = x.blit.stat ||| 4 ∧ x.blitCancel.mem = x.mem := by
  have e : x.blitCancel = ({ x with blit := { x.blit with
      run := none, queue := none, begun := false, selfOver := false, next := 0, err := 3 } } : Cell).blitFlags 4 := by
    simp [Cell.blitCancel, Cell.blitEnd, h]
  obtain ⟨i, e'⟩ := Cell.blitFlags_eq ({ x with blit := { x.blit with
      run := none, queue := none, begun := false, selfOver := false, next := 0, err := 3 } }) 4
  rw [e, e']
  exact ⟨rfl, rfl, rfl, rfl, rfl⟩

/-- Settles O50: the write of BL_GO reaches the blitter, whose CANCEL ends the running operation. -/
theorem blitterCancel : Obligations.BlitterCancel := by
  intro s c o hs ho
  obtain ⟨y, ⟨q, w, rfl⟩, e⟩ := coreWrite_engine (a := 0x0326) hs (by decide) 2
  have hc := Cell.blitCancel_running (x := { s.cell c with ctl := { (s.cell c).ctl with locked := q }, wd := w }) ho
  refine ⟨_, e, State.onlyCell_setCell .., ?_⟩
  rw [State.setCell_cell_self]
  exact hc

end Sys2Proof.Machine
end

section
/-! PROOFS for spec/14_foragers_checks.md: the foragers (O29) and the check unit (O30). -/

namespace Sys2Proof.Machine

theorem Vector.get_set {α : Type} {n : Nat} (v : Vector α n) (i j : Fin n) (x : α) :
    (v.set i x).get j = if j = i then x else v.get j := by
  show (v.set i.val x i.isLt)[j.val] = if j = i then x else v[j.val]
  simp only [Vector.getElem_set, Fin.ext_iff, eq_comm]

/-! ## Forager channels (R283 to R288) -/

section Channels

variable (x : Cell) (k : Fin 4)

@[simp] theorem Cell.modFg_get (f : Fg → Fg) (j : Fin 4) :
    (x.modFg k f).fg.get j = if j = k then f (x.fg.get k) else x.fg.get j :=
  Vector.get_set ..

@[simp] theorem Cell.modFg_readMem (f : Fg → Fg) (a : Nat) : (x.modFg k f).readMem a = x.readMem a := rfl

/-- Flags set together change the channel's status, and the interrupt controller at most beside it. -/
theorem Cell.fgFlags_eq (bits edges : Byte) :
    ∃ i, x.fgFlags k bits edges = { x.modFg k fun f => { f with
      stat := f.stat ||| bits ||| flagIf (bits &&& (x.fg.get k).stat &&& 3 != 0) 0x40 } with ic := i } := by
  unfold Cell.fgFlags
  extract_lets st lap y
  split <;> exact ⟨_, rfl⟩

theorem Cell.fgFlags_get (bits edges : Byte) :
    (x.fgFlags k bits edges).fg.get k = { x.fg.get k with
      stat := (x.fg.get k).stat ||| bits ||| flagIf (bits &&& (x.fg.get k).stat &&& 3 != 0) 0x40 } := by
  obtain ⟨i, e⟩ := x.fgFlags_eq k bits edges
  rw [e]
  exact Vector.get_set_self ..

@[simp] theorem Cell.fgFlags_readMem (bits edges : Byte) (a : Nat) : (x.fgFlags k bits edges).readMem a = x.readMem a := by
  rw [Cell.readMem, Cell.fgFlags_mem, Cell.readMem]

/-- END alone is no second HALF or FULL (R288). -/
theorem end_laps_nothing (st : Byte) : 4#8 &&& st &&& 3#8 = 0#8 := by
  rw [BitVec.and_comm 4#8 st, BitVec.and_assoc]
  exact BitVec.and_zero

/-- A channel that ends is idle, names why, and has END set (R288). -/
theorem Cell.fgEnd_get (code : Byte) :
    (x.fgEnd k code).fg.get k = { x.fg.get k with
      busy := false, code := code, desc := none, hold := [], out := [], stat := (x.fg.get k).stat ||| 4 } := by
  rw [Cell.fgEnd, Cell.fgFlags_get, Cell.modFg_get, if_pos rfl]
  simp [end_laps_nothing, flagIf]

theorem Cell.fgFail_get (code : Byte) (a : Nat) (io : Bool) :
    ((x.fgFail k code a io).fg.get k).busy = false ∧ ((x.fgFail k code a io).fg.get k).code = code := by
  simp [Cell.fgFail, Cell.fgEnd_get]

end Channels

/-! ## START and CANCEL (R283, R290) -/

section ForagerGo

variable {s : State} {c : CellNo} {k : Fin 4}

theorem engineReg_fgBase (k : Fin 4) : engineReg (fgBase k) = true := by revert k; decide

/-- FGk_GO is the first register of its channel (R293). -/
theorem Cell.writeReg_fgGo (x : Cell) (pix : Nat) (v : Byte) : x.writeReg pix (fgBase k) v = x.fgGo k v :=
  match k with
  | 0 => rfl
  | 1 => rfl
  | 2 => rfl
  | 3 => rfl

/-- A write of FGk_GO is the channel's own command, in the cell with its open sequence set aside. -/
theorem coreWrite_fgGo (hs : s.startedCell c = true) (v : Byte) :
    ∃ y, (s.cell c).Unlocking y ∧ coreWrite c (fgBase k) v s = .next (s.setCell c (y.fgGo k v)) := by
  obtain ⟨y, hu, e⟩ := coreWrite_engine hs (engineReg_fgBase k) v
  exact ⟨y, hu, by rw [e, Cell.writeReg_fgGo]⟩

end ForagerGo

/-! ## A copy of one byte within cell space (R284 to R287) -/

section OneByte

/-- Word 0 or 1 of such a copy names a fixed byte of cell space. -/
theorem fgSide_byte {w : Nat} (h : w < 2 ^ 25) : fgSide w = { addr := w, io := false, width := 1, step := 0, span := 1 } := by
  have hz : w / 2 ^ 25 % 2 = 0 ∧ w / 2 ^ 26 % 4 = 0 ∧ w / 2 ^ 28 % 4 = 0 ∧ w / 2 ^ 30 = 0 := by omega
  obtain ⟨hio, hwidth, hstep, hspan⟩ := hz
  simp only [fgSide, Nat.mod_eq_of_lt h, hio, hwidth, hstep, hspan]
  rfl

variable {s : State} {c : CellNo} {k : Fin 4} {src dst : Nat} {v : Byte}

/-- The source beat moves the byte through the holding register. -/
theorem State.fgSource_byte (hs : src < 2 ^ 25) (hd : dst < 2 ^ 25) (hh : ((s.cell c).fg.get k).hold = [])
    (hv : (s.cell c).span src 1 = some [v]) :
    s.fgSource c k src dst 1 = s.setCell c ((s.cell c).modFg k fun f => { f with srcBeats := f.srcBeats + 1, hold := [], out := [v] }) := by
  simp [State.fgSource, fgUnit, fgSide_byte hs, fgSide_byte hd, FgSide.beat, hv, Cell.modFg, hh, fgSwap]

/-- The channel once the only byte of a descriptor without a successor has left it (R287, R288). -/
theorem Cell.fgDelivered_last (x : Cell) (h : (x.fg.get k).done = 0) :
    x.fgDelivered k 1 1 0 =
      ((x.modFg k fun f => { f with done := 1, dcount := f.dcount + 1 }).modFg k fun f => { f with
        busy := false, code := 1, desc := none, hold := [], out := [] }).fgFlags k 7 (x.fgEndIe k) := by
  have hie (f : Fg → Fg) : (x.modFg k f).fgEndIe k = x.fgEndIe k := rfl
  simp [Cell.fgDelivered, h, flagIf, hie]

/-- The destination beat writes the byte and ends the channel. -/
theorem State.fgDest_byte (hd : dst < 2 ^ 25) (ho : ((s.cell c).fg.get k).out = [v]) (hn : ((s.cell c).fg.get k).done = 0)
    (hw : (s.cell c).writable dst = true) :
    ∃ y, s.fgDest c k dst 1 0 = s.setCell c y ∧ (∀ a, y.readMem a = ((s.cell c).writeMem dst v).readMem a) ∧
      (y.fg.get k).busy = false ∧ (y.fg.get k).code = 1 ∧
      ∃ st, (y.fg.get k).stat = ((s.cell c).fg.get k).stat ||| 7 ||| st := by
  let x : Cell := ((s.cell c).writeMem dst v).modFg k fun f => { f with dstBeats := f.dstBeats + 1, out := f.out.tail }
  have hx : (x.fg.get k).done = 0 := by simp [x, hn]
  refine ⟨x.fgDelivered k 1 1 0, ?_, fun a => ?_, ?_⟩
  · simp [State.fgDest, fgSide_byte hd, FgSide.beat, ho, hw, Cell.writeMemList, x]
  · rw [Cell.fgDelivered_last x hx, Cell.fgFlags_readMem]
    rfl
  · rw [Cell.fgDelivered_last x hx, Cell.fgFlags_get]
    simp [x]

end OneByte

/-! ## The commands of a channel -/

section ForagerSteps

variable {x : Cell} {k : Fin 4} {bs : List Byte}

theorem Cell.fgGo_start (x : Cell) (k : Fin 4) : x.fgGo k 1 = x.fgStart k := rfl

theorem Cell.fgGo_cancel (x : Cell) (k : Fin 4) : x.fgGo k 2 = x.fgCancel k := rfl

theorem Cell.fgStart_idle (h : (x.fg.get k).busy = false) : x.fgStart k = x.modFg k fun f => { f with
    busy := true, desc := none, cur := x.reg32 (fgBase k + 4) % 2 ^ 25, srcBeats := 0, dstBeats := 0, hold := [], out := []
    done := 0, dcount := 0 } := if_neg (by simp [h])

theorem Cell.fgStart_busy (h : (x.fg.get k).busy = true) :
    x.fgStart k = x.modFg k fun f => { f with stat := f.stat ||| 0x10 } := if_pos h

theorem Cell.fgCancel_busy (h : (x.fg.get k).busy = true) : x.fgCancel k = x.fgEnd k 5 := if_pos h

/-- A descriptor beyond the cell's space ends the channel with RANGE (R286, R288). -/
theorem Cell.fgFetch_beyond (hb : (x.fg.get k).busy = true) (hd : (x.fg.get k).desc = none) (hh : x.fgHeld k = false)
    (h : x.span (x.fg.get k).cur 16 = none) : x.fgFetch k = x.fgFail k 3 (x.fg.get k).cur false := by
  simp [Cell.fgFetch, hb, hd, hh, h]

/-- Word `i` of a descriptor's bytes (R284). -/
def fgWord (bs : List Byte) (i : Nat) : Nat := ofBytes ((bs.drop (4 * i)).take 4)

/-- A descriptor that breaks no rule is taken (R284 to R286). -/
theorem Cell.fgFetch_takes (hb : (x.fg.get k).busy = true) (hd : (x.fg.get k).desc = none) (hh : x.fgHeld k = false)
    (h : x.span (x.fg.get k).cur 16 = some bs) (hok : fgDescBad (fgWord bs 0) (fgWord bs 1) (fgWord bs 2) (fgWord bs 3) = false)
    (hs : (fgSide (fgWord bs 0)).misaligned = false) (ht : (fgSide (fgWord bs 1)).misaligned = false) :
    x.fgFetch k = x.modFg k fun f => { f with
      desc := some (fgWord bs 0, fgWord bs 1, fgWord bs 2, fgWord bs 3), srcBeats := 0, dstBeats := 0, done := 0 } := by
  unfold fgWord at hok hs ht
  simp only [Cell.fgFetch, hb, hd, hh, h, hok, hs, ht, Bool.not_true, Option.isSome_none, Bool.or_self, Bool.false_eq_true, if_false]
  rfl

variable {s : State} {c : CellNo} {w0 w1 w2 w3 : Nat}

theorem execFgDescFetch_next (h : s.startedCell c = true) :
    execFgDescFetch c k s = .next (s.setCell c ((s.cell c).fgFetch k)) := onStarted_runs h _

/-- A beat of a busy channel under its descriptor: the end when a power domain drains, else the side whose turn it is. -/
theorem execFgBeat_next (h : s.startedCell c = true) (hb : ((s.cell c).fg.get k).busy = true) (hh : (s.cell c).fgHeld k = false)
    (hd : ((s.cell c).fg.get k).desc = some (w0, w1, w2, w3)) (draining : Bool) :
    execFgBeat c k draining s = .next (if draining then s.setCell c ((s.cell c).fgEnd k 7)
      else if ((s.cell c).fg.get k).out.isEmpty then s.fgSource c k w0 w1 w2 else s.fgDest c k w1 w2 w3) := by
  rw [execFgBeat, onStarted_runs h]
  simp [hb, hh, hd]

end ForagerSteps

/-- Settles O29: START and CANCEL are writes of the channel's GO register, a fetch takes or refuses one descriptor, and a beat
of a one-byte copy is one of its source or one of its destination. -/
theorem foragerCommands : Obligations.ForagerCommands := by
  unfold Obligations.ForagerCommands
  intro s c k bs v src dst d x f w
  refine ⟨?start, ?reject, ?cancel, ?fetch, ?beat⟩
  case start =>
    intro hs hb
    obtain ⟨y, ⟨q, wd, rfl⟩, e⟩ := coreWrite_fgGo hs 1
    refine ⟨_, e, State.onlyCell_setCell .., ?_⟩
    rw [State.setCell_cell_self, Cell.fgGo_start, Cell.fgStart_idle (by exact hb)]
    simp only [Cell.modFg_get, if_true]
    exact ⟨trivial, trivial, rfl, trivial, fun j hj => if_neg hj, rfl⟩
  case reject =>
    intro hs hb
    obtain ⟨y, ⟨q, wd, rfl⟩, e⟩ := coreWrite_fgGo hs 1
    refine ⟨_, e, State.onlyCell_setCell .., ?_⟩
    rw [State.setCell_cell_self, Cell.fgGo_start, Cell.fgStart_busy (by exact hb), Cell.modFg_get, if_pos rfl]
  case cancel =>
    intro hs hb
    obtain ⟨y, ⟨q, wd, rfl⟩, e⟩ := coreWrite_fgGo hs 2
    refine ⟨_, e, State.onlyCell_setCell .., ?_⟩
    rw [State.setCell_cell_self, Cell.fgGo_cancel, Cell.fgCancel_busy (by exact hb), Cell.fgEnd_get, Cell.fgEnd_mem]
    exact ⟨rfl, rfl, rfl, rfl⟩
  case fetch =>
    intro hs hb hd hh
    refine ⟨fun hn => ⟨_, execFgDescFetch_next hs, State.onlyCell_setCell .., ?_⟩,
      fun hsp hok hsrc hdst => ⟨_, execFgDescFetch_next hs, State.onlyCell_setCell .., ?_⟩⟩
    · rw [State.setCell_cell_self, Cell.fgFetch_beyond hb hd hh hn]
      exact x.fgFail_get ..
    · rw [State.setCell_cell_self, Cell.fgFetch_takes hb hd hh hsp hok hsrc hdst, Cell.modFg_get, if_pos rfl]
      rfl
  case beat =>
    intro hs hb hh hd
    refine ⟨⟨_, execFgBeat_next hs hb hh hd true, State.onlyCell_setCell .., ?_⟩, ?_⟩
    · rw [if_pos rfl, State.setCell_cell_self, Cell.fgEnd_get, Cell.fgEnd_mem]
      exact ⟨rfl, rfl, rfl⟩
    · rintro rfl hsrc hdst
      refine ⟨fun ho hhold hn hv => ⟨_, execFgBeat_next hs hb hh hd false, ?_⟩,
        fun ho hn hdone hw => ⟨_, execFgBeat_next hs hb hh hd false, ?_⟩⟩
      · rw [ho]
        simp only [Bool.false_eq_true, if_false, List.isEmpty_nil, if_true]
        rw [State.fgSource_byte hsrc hdst hhold hv]
        refine ⟨State.onlyCell_setCell .., ?_⟩
        rw [State.setCell_cell_self, Cell.modFg_get, if_pos rfl]
        exact ⟨rfl, hb, rfl⟩
      · obtain ⟨y, e, hmem, hbusy, hcode, st, hstat⟩ := State.fgDest_byte (k := k) hdst ho hdone hw
        rw [ho]
        simp only [Bool.false_eq_true, if_false, List.isEmpty_cons]
        rw [e]
        refine ⟨State.onlyCell_setCell .., ⟨?_, fun a ha => ?_⟩, ?_⟩
        · rw [State.setCell_cell_self]
          simp [hmem]
        · rw [State.setCell_cell_self, hmem, Cell.writeMem_readMem, if_neg (by simpa using ha)]
        · rw [State.setCell_cell_self, hstat]
          exact ⟨hbusy, hcode, by simp, by simp⟩

/-! ## The check unit (R294 to R297) -/

section CheckUnit

variable {x : Cell}

/-- With no result under way a command or a byte finds the unit as it is. -/
theorem Cell.ckReady_idle (h : x.ck.finishing = false) : x.ckReady = x := if_pos (by simp [h])

/-- A result that comes out changes the session, and of the rest at most CK_FOLD and an interrupt (R295). -/
theorem Cell.ckReady_ck (h : x.ck.finishing = true) (hf : x.ckFold ≠ 2) :
    ∃ mis, x.ckReady.ck = { x.ck with
      finishing := false, active := false, result := ckFinal x.ckPoly x.ck.crc, stat := x.ck.stat ||| 1 ||| flagIf mis 2 } := by
  have hput (n : Nat) (y : Cell) (b : Nat → Byte) :
      ((List.range n).foldl (fun z i => z.putReg (0x0388 + i) (b i)) y).ck = y.ck :=
    foldl_keeps Cell.ck (f := fun z i => z.putReg (0x0388 + i) (b i)) (fun _ _ => rfl) _ y
  unfold Cell.ckReady
  extract_lets poly crc res mis st edge fold k y z
  have hc : crc = x.ck.crc := if_neg hf
  have hy : y.ck = { x.ck with finishing := false, active := false, result := ckFinal poly x.ck.crc,
                               stat := st ||| 1 ||| flagIf mis 2 } := by
    show Ck.mk false false crc x.ck.count (ckFinal poly crc) _ = _
    rw [hc]
  have hz : z.ck = y.ck := by
    unfold z
    split
    · exact hput 4 y fun i => fold.getD i 0
    · rfl
  refine ⟨mis, ?_⟩
  rw [if_neg (by simp [h])]
  split
  · exact hz.trans hy
  · exact hz.trans hy

/-- START with a polynomial begins a session that nothing has been fed to (R294, R295). -/
theorem Cell.ckStart_begins (hf : x.ck.finishing = false) (hp : x.ckPoly ≠ 3) (hd : x.ckFold ≠ 1) :
    x.ckStart = { x with ck := { x.ck with active := true, crc := ckInit x.ckPoly, count := 0 } } := by
  simp [Cell.ckStart, hp, hd, hf]

theorem Cell.ckStart_reserved (h : x.ckPoly = 3) : x.ckStart = { x with ck := { x.ck with stat := x.ck.stat ||| 0x20 } } := if_pos h

theorem Cell.ckFinish_active (h : x.ck.active = true) : x.ckFinish = { x with ck := { x.ck with finishing := true } } := if_pos h

theorem Cell.ckAbort_idle (h : x.ck.finishing = false) : x.ckAbort = { x with ck := { x.ck with active := false } } := by
  simp [Cell.ckAbort, h]

/-- A byte of an active session without a length is folded and counted (R295, R296). -/
theorem Cell.ckFeed_active (hf : x.ck.finishing = false) (ha : x.ck.active = true) (hl : x.reg32 0x0384 = 0) (v : Byte) :
    x.ckFeed v = { x with ck := { x.ck with crc := ckByte x.ckPoly x.ck.crc v, count := x.ck.count + 1 } } := by
  simp [Cell.ckFeed, Cell.ckReady_idle hf, ha, hl]

theorem Cell.ckFeed_late (hf : x.ck.finishing = false) (ha : x.ck.active = false) (v : Byte) :
    x.ckFeed v = { x with ck := { x.ck with stat := x.ck.stat ||| 0x10 } } := by
  simp [Cell.ckFeed, Cell.ckReady_idle hf, ha]

/-- The commands of CK_CMD where no result is under way (R295). -/
theorem Cell.ckCommand_idle (h : x.ck.finishing = false) :
    x.ckCommand 1 = x.ckStart ∧ x.ckCommand 2 = x.ckFinish ∧ x.ckCommand 4 = x.ckAbort := by
  simp [Cell.ckCommand, Cell.ckReady_idle h]

variable {s : State} {c : CellNo}

/-- A write of CK_CMD is the unit's command, in the cell with its open sequence set aside. -/
theorem coreWrite_ckCmd (hs : s.startedCell c = true) (v : Byte) :
    ∃ y, (s.cell c).Unlocking y ∧ coreWrite c 0x0381 v s = .next (s.setCell c (y.ckCommand v)) :=
  coreWrite_engine hs (a := 0x0381) (by decide) v

/-- A write of a byte of CK_FEED by any agent feeds that byte (R296). -/
theorem execCkFeed_next (hs : s.startedCell c = true) (ag : Agent) (i : Fin 4) (v : Byte) :
    ∃ y, (s.cell c).Unlocking y ∧ execCkFeed c ag i v s = .next (s.setCell c (y.ckFeed v)) := by
  have hi : engineReg (0x0390 + i.val) = true := by revert i; decide
  have hw (y : Cell) (pix : Nat) : y.writeReg pix (0x0390 + i.val) v = y.ckFeed v :=
    match i with
    | 0 => rfl
    | 1 => rfl
    | 2 => rfl
    | 3 => rfl
  obtain ⟨y, hu, e⟩ := ioWriteAs_engine (s := s) (c := c) hi ag v
  exact ⟨y, hu, by rw [execCkFeed, onStarted_runs hs, e, hw]⟩

end CheckUnit

/-- Settles O30: each command is a write of CK_CMD or CK_FEED that reaches the unit with no result under way, or the result's
own event. -/
theorem checkUnitCommands : Obligations.CheckUnitCommands := by
  unfold Obligations.CheckUnitCommands
  intro s c ag i v x hs
  refine ⟨?start, ?reserved, ?finish, ?abort, ?feed, ?late, ?result⟩
  case start =>
    intro hf hp hd
    obtain ⟨y, ⟨q, w, rfl⟩, e⟩ := coreWrite_ckCmd hs 1
    refine ⟨_, e, State.onlyCell_setCell .., ?_⟩
    rw [State.setCell_cell_self, (Cell.ckCommand_idle (by exact hf)).1,
      Cell.ckStart_begins (by exact hf) (by exact Nat.ne_of_lt hp) (by exact hd)]
    exact ⟨rfl, rfl, rfl⟩
  case reserved =>
    intro hf hp
    obtain ⟨y, ⟨q, w, rfl⟩, e⟩ := coreWrite_ckCmd hs 1
    refine ⟨_, e, State.onlyCell_setCell .., ?_⟩
    rw [State.setCell_cell_self, (Cell.ckCommand_idle (by exact hf)).1, Cell.ckStart_reserved (by exact hp)]
  case finish =>
    intro hf ha
    obtain ⟨y, ⟨q, w, rfl⟩, e⟩ := coreWrite_ckCmd hs 2
    refine ⟨_, e, State.onlyCell_setCell .., ?_⟩
    rw [State.setCell_cell_self, (Cell.ckCommand_idle (by exact hf)).2.1, Cell.ckFinish_active (by exact ha)]
    exact ⟨rfl, rfl⟩
  case abort =>
    intro hf
    obtain ⟨y, ⟨q, w, rfl⟩, e⟩ := coreWrite_ckCmd hs 4
    refine ⟨_, e, State.onlyCell_setCell .., ?_⟩
    rw [State.setCell_cell_self, (Cell.ckCommand_idle (by exact hf)).2.2, Cell.ckAbort_idle (by exact hf)]
    exact ⟨rfl, rfl⟩
  case feed =>
    intro hf ha hl
    obtain ⟨y, ⟨q, w, rfl⟩, e⟩ := execCkFeed_next hs ag i v
    refine ⟨_, e, State.onlyCell_setCell .., ?_⟩
    rw [State.setCell_cell_self, Cell.ckFeed_active (by exact hf) (by exact ha) (by exact hl)]
    exact ⟨rfl, rfl⟩
  case late =>
    intro hf ha
    obtain ⟨y, ⟨q, w, rfl⟩, e⟩ := execCkFeed_next hs ag i v
    refine ⟨_, e, State.onlyCell_setCell .., ?_⟩
    rw [State.setCell_cell_self, Cell.ckFeed_late (by exact hf) (by exact ha)]
  case result =>
    intro hf hd
    obtain ⟨mis, e⟩ := Cell.ckReady_ck (x := x) hf hd
    refine ⟨_, onStarted_runs hs _, State.onlyCell_setCell .., ?_⟩
    rw [State.modCell_eq, State.setCell_cell_self, e]
    exact ⟨rfl, rfl, rfl, by simp, Cell.ckReady_mem _⟩

end Sys2Proof.Machine
end

section
/-! PROOFS for spec/16_cell_sound.md: cell sound, and device audio while PD61 is on (O32). -/

namespace Sys2Proof.Machine

/-! ## What a sample point leaves (R319 to R333) -/

/-- The cell but for its sound state, the live register bytes and the interrupt controller: what a sample point leaves. -/
def Cell.besidesSound (x : Cell) : Cell := { x with snd := {}, live := [], ic := {} }

section SamplePoint

variable (x : Cell) (v : Fin 16)

@[simp] theorem Cell.modVoice_besidesSound (f : Voice → Voice) : (x.modVoice v f).besidesSound = x.besidesSound := rfl

@[simp] theorem Cell.setSnd_besidesSound (n : CellSnd) : ({ x with snd := n } : Cell).besidesSound = x.besidesSound := rfl

@[simp] theorem Cell.putLive_besidesSound (a : Nat) (b : Byte) : (x.putLive a b).besidesSound = x.besidesSound := rfl

@[simp] theorem Cell.edge_besidesSound (n : Nat) : (x.edge n).besidesSound = x.besidesSound := rfl

@[simp] theorem Cell.voiceEnd_besidesSound : (x.voiceEnd v).besidesSound = x.besidesSound := rfl

@[simp] theorem Cell.envStep_besidesSound (all : Bool) : (x.envStep v all).besidesSound = x.besidesSound := by
  simp [Cell.envStep, apply_ite Cell.besidesSound]

@[simp] theorem Cell.envSettle_besidesSound : (x.envSettle v).besidesSound = x.besidesSound := by
  simp [Cell.envSettle, apply_ite Cell.besidesSound]

@[simp] theorem Cell.envTick_besidesSound : (x.envTick v).besidesSound = x.besidesSound := by
  simp [Cell.envTick, apply_ite Cell.besidesSound]

@[simp] theorem Cell.streamPop_besidesSound : (x.streamPop v).besidesSound = x.besidesSound := rfl

@[simp] theorem Cell.keyOn_besidesSound : (x.keyOn v).besidesSound = x.besidesSound := by
  simp [Cell.keyOn, apply_ite Cell.besidesSound]

@[simp] theorem Cell.keyOff_besidesSound : (x.keyOff v).besidesSound = x.besidesSound := by
  simp [Cell.keyOff, apply_ite Cell.besidesSound]

@[simp] theorem Cell.sndApply_besidesSound (a : Nat) (b : Byte) : (x.sndApply a b).besidesSound = x.besidesSound := by
  simp [Cell.sndApply, apply_ite Cell.besidesSound]

@[simp] theorem Cell.sndApplyAll_besidesSound (a : Nat) (l : List Byte) : (x.sndApplyAll a l).besidesSound = x.besidesSound := by
  induction l generalizing x a with
  | nil => rfl
  | cons b r ih => rw [Cell.sndApplyAll, ih, Cell.sndApply_besidesSound]

theorem foldl_besidesSound {α : Type} {f : Cell → α → Cell} (hf : ∀ y a, (f y a).besidesSound = y.besidesSound) (l : List α)
    (y : Cell) : (l.foldl f y).besidesSound = y.besidesSound :=
  foldl_keeps Cell.besidesSound hf l y

@[simp] theorem Cell.sndTake_besidesSound (pix : Nat) : (x.sndTake pix).besidesSound = x.besidesSound := by
  simp [Cell.sndTake, foldl_besidesSound]

@[simp] theorem Cell.streamPops_besidesSound (n : Nat) : (Cell.streamPops v n x).besidesSound = x.besidesSound := by
  induction n generalizing x with
  | zero => rfl
  | succ n ih => rw [Cell.streamPops, ih, Cell.streamPop_besidesSound]

@[simp] theorem Cell.vcAdvance_besidesSound : (x.vcAdvance v).besidesSound = x.besidesSound := by
  simp [Cell.vcAdvance, apply_ite Cell.besidesSound]

@[simp] theorem Cell.voicePoint_besidesSound (late : BitVec 16) : (x.voicePoint late v).besidesSound = x.besidesSound := by
  simp only [Cell.voicePoint, apply_ite Cell.besidesSound, Cell.modVoice_besidesSound, Cell.setSnd_besidesSound,
    Cell.vcAdvance_besidesSound, ite_self]

@[simp] theorem Cell.streamNeed_besidesSound (before : Nat) : (x.streamNeed before v).besidesSound = x.besidesSound := rfl

theorem foldl_modVoice_besidesSound (f : Voice → Voice) (l : List (Fin 16)) :
    (l.foldl (fun y v => y.modVoice v f) x).besidesSound = x.besidesSound :=
  foldl_besidesSound (f := fun y v => Cell.modVoice y v f) (fun _ _ => rfl) l x

theorem Cell.soundPoint_besidesSound (pix : Nat) (late : BitVec 16) : (x.soundPoint pix late).besidesSound = x.besidesSound := by
  simp only [Cell.soundPoint, apply_ite Cell.besidesSound, Cell.edge_besidesSound, Cell.setSnd_besidesSound,
    Cell.streamNeed_besidesSound, foldl_besidesSound, foldl_modVoice_besidesSound, Cell.voicePoint_besidesSound,
    Cell.sndTake_besidesSound, Cell.envTick_besidesSound, implies_true, ite_self]

/-- A sample point leaves the cell's memory, its registers and its placement. -/
theorem Cell.soundPoint_keeps (pix : Nat) (late : BitVec 16) :
    (x.soundPoint pix late).mem = x.mem ∧ (x.soundPoint pix late).regs = x.regs ∧ (x.soundPoint pix late).kp = x.kp := by
  show (x.soundPoint pix late).besidesSound.mem = _ ∧ (x.soundPoint pix late).besidesSound.regs = _ ∧
    (x.soundPoint pix late).besidesSound.kp = _
  rw [x.soundPoint_besidesSound]
  exact ⟨rfl, rfl, rfl⟩

/-- A sample of a cell at home goes nowhere else (R388). -/
theorem State.guestSample_home {s : State} {c : CellNo} (h : (s.cell c).kp.guest = none) : s.guestSample c = s := by
  simp [State.guestSample, h]

/-- The next sample point of a running beam that makes one in every line (R319, R320). -/
theorem execSamplePoint_next {s : State} {c : CellNo} (hl : s.liveCell c = true) (ho : (s.cell c).beam.on = true)
    (hs : (s.cell c).beam.started = true) (hi : (s.cell c).snd.idx < (s.cell c).snd.keff) (hd : (s.cell c).snd.div = 1)
    (hg : (s.cell c).kp.guest = none) (late : BitVec 16) :
    ∃ y, execSamplePoint c late s = .next (s.setCell c y) ∧ y.snd.idx = (s.cell c).snd.idx + 1 ∧ y.mem = (s.cell c).mem ∧
      y.regs = (s.cell c).regs := by
  have hi' : ¬ (s.cell c).snd.keff ≤ (s.cell c).snd.idx := Nat.not_le.mpr hi
  obtain ⟨hm, hr, hk⟩ := (s.cell c).soundPoint_keeps
    ((s.cell c).snd.idx * (s.cell c).beam.geom.htotal / (s.cell c).snd.keff) late
  let y := (s.cell c).soundPoint ((s.cell c).snd.idx * (s.cell c).beam.geom.htotal / (s.cell c).snd.keff) late
  refine ⟨{ y with snd := { y.snd with idx := (s.cell c).snd.idx + 1 } }, ?_, rfl, hm, hr⟩
  rw [execSamplePoint, State.liveCell_runs hl]
  simp only [ho, hs, hd, hi', Bool.not_true, decide_false, Bool.or_self, Bool.false_eq_true, if_false, Nat.lt_irrefl, Bool.false_and]
  rw [State.guestSample_home]
  rw [State.setCell_cell_self]
  exact hk ▸ hg

end SamplePoint

/-! ## Writes of the sound registers (R321, R322, R327) -/

section SoundWrites

variable {s : State} {c : CellNo} {a : Nat}

/-- A write of a sound register that the cell has acts on its cell alone. -/
theorem ioWriteAs_sound (hl : 0x0C00 ≤ a) (hh : a < 0x0E00) (hr : ioMapped 0 a = true) (ag : Agent) (v : Byte) :
    ∃ y, (s.cell c).Unlocking y ∧ s.ioWriteAs c ag false a v = s.setCell c (y.writeSnd (y.writePixel ag) a v) := by
  have hk : lockedAt a = none := lockedAt_above (by omega)
  have hm : ioMapped (s.cell c).prof a = true := by
    have h₁ : ¬ a < 0x01C0 := by omega
    have h₂ : ¬ a < 0x0300 := by omega
    have h₃ : ¬ a < 0x0500 := by omega
    simpa [ioMapped, h₁, h₂, h₃, hl, hh] using hr
  have hd : s.ioDark a = false := by
    have h₁ : ¬ 0x0E80 ≤ a := by omega
    simp [State.ioDark, h₁]
  obtain ⟨y, hu, e⟩ := ioWriteAs_reaches hk hm hd ag false v
  refine ⟨y, hu, e.trans ?_⟩
  have hlow : ¬ a < 0x0180 ∧ ¬ a < 0x01C0 ∧ a ≠ 0x01C0 ∧ a ≠ 0x01C1 ∧ ¬ a < 0x0200 ∧ ¬ a < 0x0300 ∧ ¬ a < 0x0380 ∧ ¬ a < 0x03C0 ∧
      ¬ a < 0x0400 ∧ ¬ a < 0x0420 ∧ ¬ a < 0x0C00 := by omega
  have hhigh : ¬ 0x0E00 ≤ a ∧ ¬ 0x0F00 ≤ a := by omega
  simp [State.regWrite, Cell.writeReg, State.modCell, hlow, hhigh, hl, hh]

/-- The same as a command of the core. -/
theorem coreWrite_sound (hs : s.startedCell c = true) (hl : 0x0C00 ≤ a) (hh : a < 0x0E00) (hr : ioMapped 0 a = true) (v : Byte) :
    ∃ y, (s.cell c).Unlocking y ∧ coreWrite c a v s = .next (s.setCell c (y.writeSnd (y.writePixel .core) a v)) := by
  obtain ⟨y, hu, e⟩ := ioWriteAs_sound (s := s) (c := c) hl hh hr .core v
  exact ⟨y, hu, by rw [coreWrite, onStarted_runs hs, e]⟩

theorem Cell.writePlain_reg8 {x : Cell} (h : rwMask x.prof a = 0xFF) (v : Byte) : (x.writePlain a v).reg8 a = v := by
  have hv : v &&& 0xFF = v := BitVec.and_allOnes
  rw [Cell.writePlain, Cell.putReg_reg8, if_pos rfl, h, hv]
  simp

/-- Every bit of a voice's volume is stored. -/
theorem rwMask_voiceVolume (p : Byte) (n : Fin 16) : rwMask p (vcBase n + 1) = 0xFF := by
  fin_cases n <;> rfl

/-- The registers of one byte enter the log with their stamp and are stored (R321). -/
theorem Cell.writeSnd_byte (x : Cell) (pix : Nat) (v : Byte) (hf : isFifo a = false) (hw : sndWide a = none) (hc : a % 32 ≠ 0) :
    x.writeSnd pix a v = (x.sndLog pix a [v]).writePlain a v := by
  simp [Cell.writeSnd, hf, hw, hc, Cell.putRegs]

/-- A write of a voice's volume. -/
theorem Cell.writeSnd_volume (x : Cell) (pix : Nat) (v : Byte) (n : Fin 16) :
    x.writeSnd pix (vcBase n + 1) v = (x.sndLog pix (vcBase n + 1) [v]).writePlain (vcBase n + 1) v := by
  have h : isFifo (vcBase n + 1) = false ∧ sndWide (vcBase n + 1) = none ∧ (vcBase n + 1) % 32 ≠ 0 := by
    revert n
    decide
  obtain ⟨hf, hw, hc⟩ := h
  exact x.writeSnd_byte pix v hf hw hc

/-- The log takes the entry with the stamp while it has room. -/
theorem Cell.sndLog_room {x : Cell} (h : x.snd.logCount < 32) (pix : Nat) (l : List Byte) :
    (x.sndLog pix a l).snd.log = x.snd.log ++ [⟨x.beam.pline, pix, a, l⟩] := by
  simp [Cell.sndLog, Nat.not_le.mpr h]

theorem execSoundRegWrite_volume (hs : s.startedCell c = true) (n : Fin 16) (v : Byte) {pix : Nat}
    (hp : pix < (s.cell c).beam.pgeom.htotal) (hn : (s.cell c).snd.logCount < 32) :
    ∃ y, execSoundRegWrite c .forager (BitVec.ofNat 16 (vcBase n + 1)) v pix s = .next (s.setCell c y) ∧
      y.snd.log = (s.cell c).snd.log ++ [⟨(s.cell c).beam.pline, pix, vcBase n + 1, [v]⟩] ∧ y.reg8 (vcBase n + 1) = v ∧
      y.live = (s.cell c).live := by
  have h : 0x0C00 ≤ vcBase n + 1 ∧ vcBase n + 1 < 0x0E00 ∧ ioMapped 0 (vcBase n + 1) = true := by
    revert n
    decide
  obtain ⟨hl, hh, hr⟩ := h
  have hpix : min pix ((s.cell c).beam.pgeom.htotal - 1) = pix := by omega
  have ha : (BitVec.ofNat 16 (vcBase n + 1)).toNat = vcBase n + 1 := by
    rw [BitVec.toNat_ofNat]
    omega
  obtain ⟨y, hu, e⟩ := ioWriteAs_sound (s := s.atPixel c pix) (c := c) hl hh hr .forager v
  have hy : y.snd = (s.cell c).snd ∧ y.live = (s.cell c).live ∧ y.beam = ((s.cell c).beamAt pix).beam := by
    obtain ⟨q, w, rfl⟩ := hu
    simp [State.atPixel_eq, Cell.beamAt]
  obtain ⟨hsnd, hlive, hbeam⟩ := hy
  rw [Cell.writeSnd_volume, State.atPixel_eq, State.setCell_setCell] at e
  refine ⟨(y.sndLog (y.writePixel .forager) (vcBase n + 1) [v]).writePlain (vcBase n + 1) v, ?_, ?_,
    Cell.writePlain_reg8 (rwMask_voiceVolume _ n) v, hlive⟩
  · rw [execSoundRegWrite, onStarted_runs hs]
    simp only [ha, hl, hh, decide_true, Bool.and_self, if_true]
    exact congrArg Host.Outcome.next e
  · refine (Cell.sndLog_room (by rwa [hsnd]) ..).trans ?_
    simp [Cell.writePixel, Cell.beamAt, hpix, hsnd, hbeam]

/-- A write of a stream voice's FIFO pushes the byte (R327). -/
theorem Cell.writeSnd_fifo (x : Cell) (pix : Nat) (f : Fin 2) (v : Byte) :
    x.writeSnd pix (0x0DC8 + 0x20 * f.val) v = x.fifoPush ⟨14 + f.val, by omega⟩ v := by
  have h : isFifo (0x0DC8 + 0x20 * f.val) = true ∧ voiceOf (0x0DC8 + 0x20 * f.val) = ⟨14 + f.val, by omega⟩ := by
    revert f
    decide
  obtain ⟨hf, hv⟩ := h
  rw [Cell.writeSnd, if_pos hf, hv]

/-- A write of a stream voice's control with FLUSH set empties its FIFO and is logged (R327). -/
theorem Cell.writeSnd_flush (x : Cell) (pix : Nat) (f : Fin 2) (v : Byte) (hv : v.getLsbD 6 = true) :
    x.writeSnd pix (0x0DC0 + 0x20 * f.val) v =
      ((x.fifoFlush ⟨14 + f.val, by omega⟩).sndLog pix (0x0DC0 + 0x20 * f.val) [v]).writePlain (0x0DC0 + 0x20 * f.val) v := by
  have h : isFifo (0x0DC0 + 0x20 * f.val) = false ∧ sndWide (0x0DC0 + 0x20 * f.val) = none ∧
      (0x0DC0 + 0x20 * f.val) % 32 = 0 ∧ voiceOf (0x0DC0 + 0x20 * f.val) = ⟨14 + f.val, by omega⟩ := by
    revert f
    decide
  obtain ⟨hf, hw, hz, ho⟩ := h
  simp [Cell.writeSnd, hf, hw, hz, ho, hv, Cell.putRegs]

theorem Cell.modVoice_voice (x : Cell) (v w : Fin 16) (f : Voice → Voice) :
    (x.modVoice v f).snd.voices.get w = if w = v then f (x.snd.voices.get v) else x.snd.voices.get w :=
  Vector.get_set ..

theorem execVcFifoPush_pushes (hs : s.startedCell c = true) (f : Fin 2) (v : Byte) :
    ∃ y, (s.cell c).Unlocking y ∧ execVcFifoPush c f v s = .next (s.setCell c (y.fifoPush ⟨14 + f.val, by omega⟩ v)) := by
  have h : 0x0C00 ≤ 0x0DC8 + 0x20 * f.val ∧ 0x0DC8 + 0x20 * f.val < 0x0E00 ∧ ioMapped 0 (0x0DC8 + 0x20 * f.val) = true := by
    revert f
    decide
  obtain ⟨hl, hh, hr⟩ := h
  obtain ⟨y, hu, e⟩ := coreWrite_sound hs hl hh hr v
  exact ⟨y, hu, e.trans (by rw [Cell.writeSnd_fifo])⟩

theorem execVcFlush_flushes (hs : s.startedCell c = true) (f : Fin 2) :
    ∃ y, execVcFlush c f s = .next (s.setCell c y) ∧ y.snd.voices = ((s.cell c).fifoFlush ⟨14 + f.val, by omega⟩).snd.voices ∧
      y.mem = (s.cell c).mem := by
  have h : 0x0C00 ≤ 0x0DC0 + 0x20 * f.val ∧ 0x0DC0 + 0x20 * f.val < 0x0E00 ∧ ioMapped 0 (0x0DC0 + 0x20 * f.val) = true := by
    revert f
    decide
  obtain ⟨hl, hh, hr⟩ := h
  have hv : ((s.cell c).reg8 (0x0DC0 + 0x20 * f.val) ||| 0x40).getLsbD 6 = true := by
    rw [BitVec.getLsbD_or, show (0x40 : Byte).getLsbD 6 = true from rfl, Bool.or_true]
  obtain ⟨y, hu, e⟩ := coreWrite_sound hs hl hh hr ((s.cell c).reg8 (0x0DC0 + 0x20 * f.val) ||| 0x40)
  rw [Cell.writeSnd_flush _ _ _ _ hv] at e
  obtain ⟨q, w, rfl⟩ := hu
  exact ⟨_, e, rfl, rfl⟩

theorem execWaveFetch_arrives {w : Fin 8} (hl : s.liveCell c = true)
    (ha : ((s.cell c).snd.voices.get (w.castLE (by decide))).active = true)
    (hp : ((s.cell c).snd.voices.get (w.castLE (by decide))).pre = none) :
    execWaveFetch c w s = .next (s.setCell c ((s.cell c).modVoice (w.castLE (by decide)) fun k =>
      { k with pre := some (k.phase / 4096, (s.cell c).wavePair (w.castLE (by decide)) (k.phase / 4096)) })) := by
  rw [execWaveFetch, State.liveCell_runs hl]
  simp [ha, hp]

end SoundWrites

/-! ## What a shared source leaves (R154, R157) -/

/-- A shared source that fires changes the sources, the cells, the swarm links, the host link and the notices of the management
controller. -/
theorem State.fireShared_eq (s : State) (n : Fin 153) :
    ∃ q z w l m, s.fireShared n = { s with sources := q, cells := z, swarm := w, link := l, mc := m } := by
  have hcell : ∀ (t : State) (d : BitVec 3) (c : CellNo) (i : Nat),
      ∃ q z w, t.shToCell n d c i = { t with sources := q, cells := z, swarm := w } := by
    intro t d c i
    unfold State.shToCell State.sendTo
    dsimp only
    repeat' split
    all_goals exact ⟨_, _, _, rfl⟩
  unfold State.fireShared
  extract_lets r t
  split
  · exact ⟨_, _, _, _, _, rfl⟩
  · obtain ⟨_, _, _, e⟩ := hcell t (BitVec.ofNat 3 (r / 4)) ⟨r / 32 % 128, Nat.mod_lt _ (by decide)⟩ (r / 4096 % 4)
    rw [e]
    exact ⟨_, _, _, _, _, rfl⟩
  · split
    · exact ⟨_, _, _, _, _, rfl⟩
    · obtain ⟨_, _, _, e⟩ := t.raise_eq 8 0 false n.val []
      rw [e]
      exact ⟨_, _, _, _, _, rfl⟩
  · exact ⟨_, _, _, _, _, rfl⟩

@[simp] theorem State.fireShared_ports (s : State) (n : Fin 153) : (s.fireShared n).ports = s.ports := by
  obtain ⟨_, _, _, _, _, e⟩ := s.fireShared_eq n
  rw [e]

/-! ## Device audio while PD61 is on (R336 to R347) -/

section Audio

variable {s : State} {n : Fin 4}

theorem State.modPort_get (m : Fin 4) (f : HsPort → HsPort) :
    (s.modPort n f).ports.get m = if m = n then f (s.ports.get n) else s.ports.get m :=
  Vector.get_set ..

/-- A new value of AUD_CLK_STAT is there, with a notice where it is one (R336). -/
theorem State.setAudClk_keeps (v : Byte) :
    (s.setAudClk v).audClk = v ∧ (s.setAudClk v).ports = s.ports ∧ (s.setAudClk v).cells = s.cells := by
  unfold State.setAudClk
  split
  case isTrue h => exact ⟨h.symm, rfl, rfl⟩
  case isFalse => simp

/-- A locked port takes its source, and a change of source that waited for it is over (R338, R339). -/
theorem HsPort.lock_state (p : HsPort) (ear : Half) : (p.lock ear).bridge = 2 ∧ (p.stage = 2 → (p.lock ear).stage = 0) := by
  unfold HsPort.lock
  split
  case isTrue h => simp [HsPort.writeEar]
  case isFalse h => exact ⟨rfl, fun h' => absurd h' h⟩

theorem State.jackReady_port (kind : Byte) (code : Half) :
    ((s.jackReady n kind code).ports.get n).jack = 2 ∧ ((s.jackReady n kind code).ports.get n).kind = kind ∧
      ((s.jackReady n kind code).ports.get n).micCode = code := by
  simp [State.jackReady, Vector.get_set]

/-- Conversions that agree within 64 codes type the jack (R345, R346). -/
theorem State.jackTyped_agree {codes : List Nat} (h : codes.foldl max 0 ≤ codes.foldl min 4095 + 64) :
    s.jackTyped n codes = s.jackReady n (micType (codes.sum / max 1 codes.length)) (BitVec.ofNat 16 (codes.sum / max 1 codes.length)) :=
  if_pos h

/-- Conversions that disagree are counted, up to four (R346). -/
theorem State.jackTyped_disagree {codes : List Nat} (h : codes.foldl min 4095 + 64 < codes.foldl max 0)
    (ht : (s.ports.get n).typings < 3) :
    s.jackTyped n codes = s.modPort n fun p => { p with typings := p.typings + 1 } := by
  have h₁ : ¬ 4 ≤ (s.ports.get n).typings + 1 := by omega
  simp [State.jackTyped, Nat.not_le.mpr h, h₁]

/-- The fourth agreeing reading makes the button state (R347). -/
theorem State.buttonRead_agree {code : Nat} (h : (s.ports.get n).btnNext = buttonOf (s.ports.get n).micCode.toNat code)
    (hr : 3 ≤ (s.ports.get n).btnRun) :
    ((s.buttonRead n code).ports.get n).btn = buttonOf (s.ports.get n).micCode.toNat code := by
  have hrun : 4 ≤ (s.ports.get n).btnRun + 1 := by omega
  simp only [State.buttonRead, h, if_true, hrun, decide_true, Bool.true_and, bne_iff_ne, ne_eq]
  split
  case isTrue => simp [Vector.get_set]
  case isFalse hb => simpa [Vector.get_set] using (Classical.not_not.mp hb).symm

/-- Removal leaves the port ABSENT (R345, R347). -/
theorem execJackRemove_removes (ha : s.domOn 61 = true) (hd : s.detShows n false = true) (hj : (s.ports.get n).jack ≠ 0) :
    ∃ t, execJackRemove n s = .next t ∧ t.ports = (s.modPort n fun p => { p with
      jack := 0, kind := 0, typings := 0, btn := 0, btnNext := 0, btnRun := 0, outL := 0, outR := 0 }).ports := by
  rw [execJackRemove]
  simp only [State.audioOn, ha, hd, Bool.true_and, bne_iff_ne, ne_eq, hj, not_false_eq_true, if_true]
  split
  · exact ⟨_, rfl, State.fireShared_ports ..⟩
  · exact ⟨_, rfl, rfl⟩

/-! ### A sample of a family (R335, R341) -/

/-- The family's sample at port `m`. -/
def State.sampleAt (s : State) (fam : Bool) (mics : List (BitVec 24)) (m : Fin 4) : State :=
  if s.hs m 2 0 != 0 && hsFamily (s.hs m 2 0) == fam then s.portSample m (mics.getD m.val 0) else s

/-- The port's outputs stand at 0. -/
def HsPort.Silent (p : HsPort) : Prop := p.jack ≠ 2 ∧ p.outL = 0 ∧ p.outR = 0

/-- A sample of a port changes that port; one whose jack is not READY it silences. -/
theorem State.portSample_ports (s : State) (m : Fin 4) (mic : BitVec 24) :
    ∃ q : HsPort, (s.portSample m mic).ports = s.ports.set m q ∧ ((s.ports.get m).jack ≠ 2 → q.Silent) := by
  unfold State.portSample
  extract_lets p₀ p limit locked l r v earL earR side sl sr clips on wide q₀ q
  refine ⟨q, rfl, fun h => ?_⟩
  have hon : on = false := by simpa [on, p, p₀] using h
  have hq : q₀.Silent := ⟨h, by simp [q₀, hon], by simp [q₀, hon]⟩
  simp only [q]
  split <;> exact hq

theorem State.portSample_get {m : Fin 4} (mic : BitVec 24) (h : n ≠ m) : (s.portSample m mic).ports.get n = s.ports.get n := by
  obtain ⟨q, e, _⟩ := s.portSample_ports m mic
  rw [e, Vector.get_set, if_neg h]

theorem State.portSample_silent (mic : BitVec 24) (h : (s.ports.get n).jack ≠ 2) : ((s.portSample n mic).ports.get n).Silent := by
  obtain ⟨q, e, hq⟩ := s.portSample_ports n mic
  rw [e, Vector.get_set_self]
  exact hq h

/-- A port of another family, or whose rate is off, keeps its state. -/
theorem State.sampleAt_other {fam : Bool} {mics : List (BitVec 24)} (h : s.hs n 2 0 = 0 ∨ hsFamily (s.hs n 2 0) ≠ fam) (m : Fin 4) :
    (s.sampleAt fam mics m).ports.get n = s.ports.get n := by
  unfold State.sampleAt
  split
  case isTrue hm =>
    refine State.portSample_get _ fun e => ?_
    subst e
    simp only [Bool.and_eq_true, bne_iff_ne, ne_eq, beq_iff_eq] at hm
    exact h.elim hm.1 fun h => h hm.2
  case isFalse => rfl

theorem State.sampleAt_objs (fam : Bool) (mics : List (BitVec 24)) (m : Fin 4) : (s.sampleAt fam mics m).objs = s.objs := by
  unfold State.sampleAt
  split <;> rfl

theorem State.samples_objs (fam : Bool) (mics : List (BitVec 24)) (l : List (Fin 4)) (s : State) :
    (l.foldl (fun u m => u.sampleAt fam mics m) s).objs = s.objs :=
  foldl_keeps State.objs (f := fun u m => u.sampleAt fam mics m) (fun _ m => State.sampleAt_objs fam mics m) l s

/-- A sample of a list of ports leaves a port of another family, or whose rate is off. -/
theorem State.samples_other {fam : Bool} {mics : List (BitVec 24)} (l : List (Fin 4)) (s : State)
    (h : s.hs n 2 0 = 0 ∨ hsFamily (s.hs n 2 0) ≠ fam) :
    (l.foldl (fun u m => u.sampleAt fam mics m) s).ports.get n = s.ports.get n := by
  induction l generalizing s with
  | nil => rfl
  | cons m r ih =>
    have ho : (s.sampleAt fam mics m).hs n 2 0 = s.hs n 2 0 := by
      simp only [State.hs, State.objOr, State.sampleAt_objs]
    exact (ih _ (by rwa [ho])).trans (State.sampleAt_other h m)

/-- A sample of a list of ports silences each of the family among them whose jack is not READY. -/
theorem State.samples_silent {fam : Bool} {mics : List (BitVec 24)} (l : List (Fin 4)) (s : State) (h : s.hs n 2 0 ≠ 0)
    (hf : hsFamily (s.hs n 2 0) = fam) (hj : (s.ports.get n).jack ≠ 2) (hn : n ∈ l ∨ (s.ports.get n).Silent) :
    ((l.foldl (fun u m => u.sampleAt fam mics m) s).ports.get n).Silent := by
  induction l generalizing s with
  | nil => simpa using hn
  | cons m r ih =>
    have ho : (s.sampleAt fam mics m).hs n 2 0 = s.hs n 2 0 := by
      simp only [State.hs, State.objOr, State.sampleAt_objs]
    by_cases e : n = m
    case pos =>
      subst e
      have hp : s.sampleAt fam mics n = s.portSample n (mics.getD n.val 0) := by simp [State.sampleAt, h, hf]
      have hs : ((s.sampleAt fam mics n).ports.get n).Silent := hp ▸ State.portSample_silent _ hj
      exact ih _ (by rwa [ho]) (by rwa [ho]) hs.1 (.inr hs)
    case neg =>
      have hp : (s.sampleAt fam mics m).ports.get n = s.ports.get n := by
        unfold State.sampleAt
        split
        · exact State.portSample_get _ e
        · rfl
      exact ih _ (by rwa [ho]) (by rwa [ho]) (by rwa [hp]) (by rw [hp]; simpa [e] using hn)

theorem State.hostSample_ports (s : State) (c : CellNo) : (s.hostSample c).ports = s.ports := by
  unfold State.hostSample
  extract_lets
  split <;> rfl

/-- A sample of a family is that of its ports, and of the host paths for 48 kHz, which are no port's. -/
theorem State.familySample_ports (fam : Bool) (mics : List (BitVec 24)) :
    (s.familySample fam mics).ports = ((List.finRange 4).foldl (fun u m => u.sampleAt fam mics m) s).ports := by
  unfold State.familySample
  extract_lets t
  split
  · rfl
  · exact foldl_keeps State.ports State.hostSample_ports allCells t

theorem execAudioFamilySample_samples (ha : s.domOn 61 = true) (fam : Bool) (mics : List (BitVec 24)) :
    Completes (.audioFamilySample fam mics) s fun t =>
      ((s.hs n 2 0 = 0 ∨ hsFamily (s.hs n 2 0) ≠ fam) → t.ports.get n = s.ports.get n) ∧
      (s.hs n 2 0 ≠ 0 → hsFamily (s.hs n 2 0) = fam → (s.ports.get n).jack ≠ 2 →
        (t.ports.get n).outL = 0 ∧ (t.ports.get n).outR = 0) := by
  refine ⟨s.familySample fam mics, congrArg Host.Outcome.next (if_pos ha), ?_⟩
  dsimp only
  rw [State.familySample_ports]
  exact ⟨State.samples_other _ s, fun h hf hj => (State.samples_silent _ s h hf hj (.inl (List.mem_finRange n))).2⟩

/-! ### Audio packets (R348, R413) -/

/-- A packet of stream 0 enters an enabled queue that has room (R413). -/
theorem State.audioEnqueue_room {c : CellNo} (hq : s.queueOn (.audio c) = true) (hw : (s.cell c).host.audio.waiting.length < 16)
    (bits24 : Bool) (index : Word) (l : List Int) :
    ∃ h ws, s.audioEnqueue c 0 0 bits24 index l = s.setCell c { s.cell c with host := h } ∧
      h.audio = (s.cell c).host.audio.enqueue ws := by
  have hr : (s.cell c).host.audioRoom = (s.cell c).host := by
    unfold CellHost.audioRoom
    split <;> simp [hw]
  let h := (s.cell c).host
  let ws := audioHeader 0 0 bits24 h.gap0 index :: sampleWords bits24 l
  refine ⟨{ h with gap0 := false, audio := h.audio.enqueue ws }, ws, ?_, rfl⟩
  simp [State.audioEnqueue, hq, State.modHost, State.modCell, hr, h, ws]

/-- A packet of stream 0 of a cell at home carries 48 frames, and enters its queue. -/
theorem execAudioPacket_stream0 {c : CellNo} (hp : s.present c = true) (he : s.audHostEn c = true)
    (hg : (s.cell c).kp.guest = none) (hq : s.queueOn (.audio c) = true) (hw : (s.cell c).host.audio.waiting.length < 16) :
    ∃ t ws, execAudioPacket c none s = .next t ∧ (t.cell c).snd.frames0 = (s.cell c).snd.frames0 + 48 ∧
      (t.cell c).host.audio = (s.cell c).host.audio.enqueue ws := by
  let n := (s.cell c).snd
  let on := n.bridge == 2 && !(n.gainL.cur == 0 && n.gainR.cur == 0 && !n.gainL.pend && !n.gainR.pend)
  obtain ⟨h, ws, e, ha⟩ := State.audioEnqueue_room hq hw (s.audBits24 c) n.frames0 (freeSamples s.freeCtr 96 on)
  let x : Cell := { s.cell c with host := h, snd := { n with frames0 := n.frames0 + 48 } }
  refine ⟨{ s.setCell c x with freeCtr := s.freeCtr + if on then 96 else 0 }, ws, ?_, ?_⟩
  · rw [execAudioPacket, onCell_present hp, State.audioStream0]
    simp only [he, hg, Option.isSome_none, Bool.not_true, Bool.or_self, Bool.false_eq_true, if_false]
    rw [e, State.modCell, State.setCell_setCell, State.setCell_cell_self]
    rfl
  · show ((s.setCell c x).cell c).snd.frames0 = _ ∧ ((s.setCell c x).cell c).host.audio = _
    rw [State.setCell_cell_self]
    exact ⟨rfl, ha⟩

/-! ### The commands -/

/-- The bridge of a port whose source runs locks (R338, R339). -/
theorem execBridgeLock_port (ha : s.domOn 61 = true) (hb : (s.ports.get n).bridge = 1) (hr : s.srcRuns (s.ports.get n).src = true) :
    Completes (.bridgeLock (.port n)) s fun t =>
      (t.ports.get n).bridge = 2 ∧ ((s.ports.get n).stage = 2 → (t.ports.get n).stage = 0) := by
  have hc : (s.audioOn && (s.ports.get n).bridge == 1 && s.srcRuns (s.ports.get n).src) = true := by
    simp [State.audioOn, ha, hr, hb]
  refine ⟨_, congrArg Host.Outcome.next (if_pos hc), ?_⟩
  dsimp only
  rw [State.modPort_get, if_pos rfl]
  exact (s.ports.get n).lock_state _

theorem execJackTyped_types (ha : s.domOn 61 = true) (hj : (s.ports.get n).jack = 1) (codes : List Nat) :
    execJackTyped n codes s = .next (s.jackTyped n codes) := by
  rw [execJackTyped, if_pos (by simp [State.audioOn, ha, hj])]

theorem execJackInsert_inserts (ha : s.domOn 61 = true) (hj : (s.ports.get n).jack = 0) (hd : s.detShows n true = true) :
    execJackInsert n s = .next (s.modPort n fun p => { p with jack := 1, typings := 0 }) := by
  rw [execJackInsert, if_pos (by simp [State.audioOn, ha, hj, hd])]

theorem execButtonSample_reads (ha : s.domOn 61 = true) (hm : (s.ports.get n).micOn = true) (hk : s.hs n 0x0B 1 ≠ 0) (code : Nat) :
    execButtonSample n code s = .next (s.buttonRead n code) := by
  rw [execButtonSample, if_pos (by simp [State.audioOn, ha, hm, hk])]

end Audio

/-- A pending gain is applied, both stages of a cell's host path at once (R341). -/
theorem execGainStepTimeout_host {s : State} {c : CellNo} (hp : s.present c = true) (hg : (s.cell c).snd.gainL.pend = true) :
    ∃ g, execGainStepTimeout (.host c) s = .next (s.setCell c { s.cell c with snd := { (s.cell c).snd with
      gainL := (s.cell c).snd.gainL.apply, gainR := g } }) := by
  refine ⟨if (s.cell c).snd.gainR.pend then (s.cell c).snd.gainR.apply else (s.cell c).snd.gainR, ?_⟩
  rw [execGainStepTimeout, onCell_present hp]
  simp only [State.modCell, hg, if_true]

/-- Settles O32: the sound of a started cell, then device audio command by command. -/
theorem soundAndAudio : Obligations.SoundAndAudio := by
  refine ⟨fun s c late v pix n f w => ?_, fun s c n fam codes code mics => ?_⟩
  case refine_1 =>
    intro x b a st wv k hs
    have hl : s.liveCell c = true := by
      simp only [State.startedCell, Bool.and_eq_true] at hs
      exact hs.1
    refine ⟨fun ho ht hi hd hg => ?_, fun hp hn => ?_, fun hf => ?_, fun hf => ?_, ?_, fun ha hp => ?_⟩
    · obtain ⟨y, e, hidx, hmem, hregs⟩ := execSamplePoint_next hl ho ht hi hd hg late
      refine ⟨_, e, State.onlyCell_setCell .., ?_⟩
      rw [State.setCell_cell_self]
      exact ⟨hidx, hmem, hregs⟩
    · obtain ⟨y, e, hlog, hreg, hlive⟩ := execSoundRegWrite_volume hs n v hp hn
      refine ⟨_, e, State.onlyCell_setCell .., ?_⟩
      rw [State.setCell_cell_self]
      exact ⟨hlog, hreg, hlive⟩
    · obtain ⟨y, ⟨q, u, rfl⟩, e⟩ := execVcFifoPush_pushes hs f v
      refine ⟨_, e, State.onlyCell_setCell .., ?_⟩
      simp only [State.setCell_cell_self, Cell.fifoPush, Cell.modVoice_voice]
      exact ⟨(if_pos rfl).trans (if_pos hf), fun m hm => if_neg hm⟩
    · obtain ⟨y, ⟨q, u, rfl⟩, e⟩ := execVcFifoPush_pushes hs f v
      refine ⟨_, e, State.onlyCell_setCell .., ?_⟩
      simp only [State.setCell_cell_self, Cell.fifoPush, Cell.modVoice_voice]
      exact (if_pos rfl).trans (if_neg (Nat.not_lt.mpr hf))
    · obtain ⟨y, e, hv, hm⟩ := execVcFlush_flushes hs f
      refine ⟨_, e, State.onlyCell_setCell .., ?_⟩
      rw [State.setCell_cell_self, hv]
      exact ⟨((s.cell c).modVoice_voice ..).trans (if_pos rfl), hm⟩
    · refine ⟨_, execWaveFetch_arrives hl ha hp, State.onlyCell_setCell .., ?_⟩
      rw [State.setCell_cell_self, Cell.modVoice_voice]
      exact if_pos rfl
  case refine_2 =>
    intro p x mean i
    refine ⟨fun hp hb => ?_, fun hp hg => ?_, fun hg => ?_, fun hp he hg hq hw => ?_, fun ha => ?_⟩
    · refine ⟨_, ?_, rfl⟩
      show execBridgeLock (.cell c) s = _
      rw [execBridgeLock, onCell_present hp, if_pos hb]
      rfl
    · obtain ⟨g, e⟩ := execGainStepTimeout_host hp hg
      refine ⟨_, e, State.onlyCell_setCell .., ?_⟩
      rw [State.setCell_cell_self]
      exact ⟨rfl, rfl⟩
    · refine ⟨_, rfl, ?_⟩
      simp [State.modPort_ports, Vector.get_set, show (s.ports.get n).mic.pend = true from hg, GainCh.apply, p]
    · obtain ⟨t, ws, e, hf, hq'⟩ := execAudioPacket_stream0 hp he hg hq hw
      refine ⟨t, e, hf, _, by rw [hq']; rfl, rfl⟩
    · refine ⟨?_, ?_, fun hb hr => ?_, fun hj hd => ?_, fun hj hc => ?_, fun hj hc ht => ?_, fun hj hd => ?_, fun hm hk hb hr => ?_,
        execAudioFamilySample_samples ha fam mics⟩
      · exact ⟨_, congrArg Host.Outcome.next (if_pos ha), s.setAudClk_keeps _⟩
      · exact ⟨_, congrArg Host.Outcome.next (if_pos ha), s.setAudClk_keeps _⟩
      · exact execBridgeLock_port ha hb hr
      · exact ⟨_, execJackInsert_inserts ha hj hd, rfl⟩
      · refine ⟨_, execJackTyped_types ha hj codes, ?_⟩
        rw [State.jackTyped_agree hc]
        exact s.jackReady_port _ _
      · refine ⟨_, execJackTyped_types ha hj codes, ?_⟩
        dsimp only
        rw [State.jackTyped_disagree hc ht, State.modPort_get, if_pos rfl]
        exact ⟨hj, rfl⟩
      · obtain ⟨t, e, hp⟩ := execJackRemove_removes ha hd hj
        refine ⟨t, e, ?_⟩
        dsimp only
        rw [hp, State.modPort_ports, Vector.get_set_self]
        exact ⟨rfl, rfl, rfl, rfl, fun m hm => (Vector.get_set ..).trans (if_neg hm)⟩
      · exact ⟨_, execButtonSample_reads ha hm hk code, State.buttonRead_agree hb hr⟩

end Sys2Proof.Machine
end

section
/-! PROOFS for spec/18_placement.md and spec/19_swarm.md: the make-up of the timers after a move, and the keeper's decisions
(O33). -/

namespace Sys2Proof.Machine

/-! ## What the make-up of the timers leaves (R310 to R312) -/

/-- The cell but for its timers, its interrupt controller and the lines that it holds. -/
def Cell.besidesTimers (x : Cell) : Cell :=
  { x with tm := Vector.replicate 4 {}, ic := {}, ctl := { x.ctl with heldLines := [] } }

section Timers

variable (x : Cell) (n : Fin 4)

@[simp] theorem Cell.modTm_besidesTimers (f : Tm → Tm) : (x.modTm n f).besidesTimers = x.besidesTimers := rfl

@[simp] theorem Cell.edge_besidesTimers (k : Nat) : (x.edge k).besidesTimers = x.besidesTimers := rfl

@[simp] theorem Cell.tmSet_besidesTimers (v : Nat) : (x.tmSet n v).besidesTimers = x.besidesTimers := by
  simp only [Cell.tmSet, apply_ite Cell.besidesTimers, Cell.modTm_besidesTimers, ite_self]

@[simp] theorem Cell.tmRun_besidesTimers (on : Bool) : (x.tmRun n on).besidesTimers = x.besidesTimers := by
  simp only [Cell.tmRun, apply_ite Cell.besidesTimers, Cell.modTm_besidesTimers, ite_self]

@[simp] theorem Cell.tmFlags_besidesTimers (bits : Byte) (quiet : Bool) : (x.tmFlags n bits quiet).besidesTimers = x.besidesTimers := by
  simp only [Cell.tmFlags, apply_ite Cell.besidesTimers, Cell.edge_besidesTimers, Cell.modTm_besidesTimers, ite_self]

@[simp] theorem Cell.tmTake_besidesTimers (acts : List (Fin 4 × Nat × Bool)) : (x.tmTake acts n).besidesTimers = x.besidesTimers := by
  simp only [Cell.tmTake, apply_ite Cell.besidesTimers, Cell.modTm_besidesTimers, Cell.tmSet_besidesTimers,
    Cell.tmRun_besidesTimers, ite_self]

@[simp] theorem Cell.tmCount_besidesTimers : (x.tmCount n).1.besidesTimers = x.besidesTimers := by
  simp only [Cell.tmCount, Cell.modTm_besidesTimers, Cell.tmSet_besidesTimers]

@[simp] theorem Cell.tmCycle_besidesTimers (who quiet : BitVec 4) : (x.tmCycle who quiet).1.besidesTimers = x.besidesTimers := by
  have hcount (l : List (Fin 4)) (p : Cell × List (Fin 4 × Byte)) :
      (l.foldl (fun p n => ((p.1.tmCount n).1, p.2 ++ [(n, (p.1.tmCount n).2)])) p).1.besidesTimers = p.1.besidesTimers :=
    foldl_keeps (fun p : Cell × List (Fin 4 × Byte) => p.1.besidesTimers)
      (f := fun p n => ((p.1.tmCount n).1, p.2 ++ [(n, (p.1.tmCount n).2)])) (fun p n => p.1.tmCount_besidesTimers n) l p
  unfold Cell.tmCycle
  dsimp only
  rw [foldl_keeps Cell.besidesTimers (fun y p => Cell.tmFlags_besidesTimers ..),
    foldl_keeps Cell.besidesTimers (fun y t => Cell.tmTake_besidesTimers ..)]
  exact hcount _ _

theorem MkState.run_besidesTimers (all : Bool) (quiet : BitVec 4) (total k : Nat) (m : MkState) :
    (MkState.run all quiet total k m).x.besidesTimers = m.x.besidesTimers := by
  induction k generalizing m with
  | zero => rfl
  | succ k ih =>
    rw [MkState.run]
    split
    · rfl
    · split
      · rfl
      · rw [ih]
        exact m.x.tmCycle_besidesTimers _ quiet

@[simp] theorem Cell.tmMakeUp_besidesTimers (all : Bool) (quiet : BitVec 4) (total : Nat) :
    (x.tmMakeUp all quiet total).besidesTimers = x.besidesTimers := by
  have hlines : ∀ y : Cell, ({ y with ctl := { y.ctl with heldLines := [] } } : Cell).besidesTimers = y.besidesTimers := fun _ => rfl
  unfold Cell.tmMakeUp
  extract_lets fuel z m y
  rw [hlines]
  simp only [y]
  rw [foldl_keeps Cell.besidesTimers (fun y n => by split <;> rfl)]
  exact MkState.run_besidesTimers all quiet total fuel _

@[simp] theorem Cell.resumeCount_besidesTimers (now : Long) : (x.resumeCount now).besidesTimers = x.besidesTimers := by
  simp only [Cell.resumeCount, apply_ite Cell.besidesTimers, Cell.tmMakeUp_besidesTimers, ite_self]

theorem Cell.resumeCount_keeps (now : Long) : (x.resumeCount now).kp = x.kp ∧ (x.resumeCount now).core = x.core ∧
    (x.resumeCount now).mem = x.mem := by
  show (x.resumeCount now).besidesTimers.kp = _ ∧ (x.resumeCount now).besidesTimers.core = _ ∧
    (x.resumeCount now).besidesTimers.mem = _
  rw [x.resumeCount_besidesTimers]
  exact ⟨rfl, rfl, rfl⟩

end Timers

/-! ## Core decisions (R351, R360) -/

section Cores

variable {s : State} {c : CellNo}

/-- The cell that is given a core is on it, and its other placement stands. -/
theorem State.giveCore_kp (k : Fin 128) :
    (s.giveCore c k).cell c = { s.cell c with kp := { (s.cell c).kp with
      core := some k, onCore := true, coreSince := some s.keeper.frames } } := by
  have h : ∀ (l : List CellNo) (u : State), ∃ b,
      ((l.foldl (fun s d => s.modKp d fun q => { q with onCore := false }) u).cell c) =
        { u.cell c with kp := { (u.cell c).kp with onCore := b } } ∧
      (l.foldl (fun s d => s.modKp d fun q => { q with onCore := false }) u).keeper = u.keeper := by
    intro l
    induction l with
    | nil => exact fun u => ⟨_, rfl, rfl⟩
    | cons d r ih =>
      intro u
      obtain ⟨b, e, hk⟩ := ih (u.modKp d fun q => { q with onCore := false })
      refine ⟨b, ?_, hk⟩
      rw [List.foldl_cons, e, State.modKp_eq, State.setCell_cell]
      split
      · next hd => rw [hd]
      · rfl
  obtain ⟨b, e, hk⟩ := h (s.onCoreCells k) s
  rw [State.giveCore, State.modKp_eq, State.setCell_cell_self, e, hk]

theorem execKeeperCoreDecision_allowed {k : Fin 128} {forced : Bool} (hl : s.liveCell c = true)
    (hm : s.mayMoveCore c k forced = true) :
    execKeeperCoreDecision c k forced s = .next (s.setCell c { s.cell c with kp := { (s.cell c).kp with nextCore := some k } }) := by
  rw [execKeeperCoreDecision, State.liveCell_runs hl, if_pos hm]
  rfl

/-- The core takes the cell, whose timers make up the move. -/
def State.coreMoved (s : State) (c : CellNo) (k : Fin 128) : State :=
  let m := s.modKp c fun q => { q with nextCore := none, moving := false, coreMoves := satInc q.coreMoves }
  let g := (m.giveCore c k).modKeeper fun q => { q with coreMoves := satInc q.coreMoves }
  (g.modCell c fun x => x.resumeCount g.devTime).fenceCheck

theorem State.coreMoved_cell (k : Fin 128) :
    ((s.coreMoved c k).cell c).kp = { (s.cell c).kp with
        nextCore := none, moving := false, coreMoves := satInc (s.cell c).kp.coreMoves
        core := some k, onCore := true, coreSince := some s.keeper.frames } ∧
      ((s.coreMoved c k).cell c).core = (s.cell c).core ∧ ((s.coreMoved c k).cell c).mem = (s.cell c).mem := by
  unfold State.coreMoved
  extract_lets m g
  obtain ⟨hkp, hcore, hmem⟩ := (g.cell c).resumeCount_keeps g.devTime
  rw [State.fenceCheck_cell, State.modCell_eq, State.setCell_cell_self, hkp, hcore, hmem]
  simp only [g, State.modKeeper_cell, State.giveCore_kp, m, State.modKp_eq, State.setCell_cell_self, State.setCell_keeper]
  exact ⟨rfl, trivial, trivial⟩

/-- A core move ends with the cell on its new core; its old core's cluster is one that it has left lately (R353, R360). -/
theorem execCoreMoveDone_moves {k : Fin 128} (hl : s.liveCell c = true) (hm : (s.cell c).kp.moving = true)
    (hn : (s.cell c).kp.nextCore = some k) :
    ∃ u : State, u.cell c = s.cell c ∧ execCoreMoveDone c s = .next (u.coreMoved c k) := by
  rw [execCoreMoveDone, State.liveCell_runs hl]
  cases h : (s.cell c).kp.core with
  | none =>
    refine ⟨s, rfl, ?_⟩
    simp only [hm, hn, h, State.coreMoved]
  | some o =>
    refine ⟨s.modKeeper fun q => { q with left := { object := 131072 + c.val, unit := o.val / 8, frame := q.frames } :: q.left },
      rfl, ?_⟩
    simp only [hm, hn, h, State.coreMoved]

end Cores

/-! ## Page decisions (R351, R356) -/

section Pages

variable {s : State} {i : Nat}

theorem Table.lt_of_risingFrom {β : Type} {t : Table β} {lo : Nat} (h : Table.risingFrom lo t = true) : ∀ k ∈ t.map Prod.fst, lo < k := by
  induction t generalizing lo with
  | nil => simp
  | cons e r ih =>
    obtain ⟨k, w⟩ := e
    simp only [Table.risingFrom_cons, Bool.and_eq_true, decide_eq_true_eq] at h
    obtain ⟨hlt, hr⟩ := h
    intro j hj
    rcases List.mem_cons.mp hj with rfl | hj
    · exact hlt
    · exact Nat.lt_trans hlt (ih hr j hj)

/-- Keys that rise are all different. -/
theorem Table.nodup_of_rising {β : Type} [DecidableEq β] {t : Table β} (h : t.rising = true) : (t.map Prod.fst).Nodup := by
  induction t with
  | nil => exact List.nodup_nil
  | cons e r ih =>
    obtain ⟨k, w⟩ := e
    rw [List.map_cons, List.nodup_cons]
    exact ⟨fun hk => Nat.lt_irrefl k (Table.lt_of_risingFrom h k hk), ih (Table.rising_tail h)⟩

theorem Table.read_of_not_mem {β : Type} {d : Nat → β} {t : Table β} (h : i ∉ t.map Prod.fst) : t.read d i = d i := by
  induction t with
  | nil => rfl
  | cons e r ih =>
    obtain ⟨k, w⟩ := e
    rw [List.map_cons, List.mem_cons, not_or] at h
    obtain ⟨hk, hr⟩ := h
    rw [Table.read_cons, if_neg (Ne.symm hk)]
    exact ih hr

theorem pteHeat_halfHeat (e : Long) : pteHeat (halfHeat e) = pteHeat e / 2 ∧ pteState (halfHeat e) = pteState e := by
  have he := e.isLt
  have hq : pteHeat e * 2 ^ 32 ≤ e.toNat := by
    unfold pteHeat
    omega
  simp only [halfHeat, pteHeat, pteState, BitVec.toNat_ofNat] at hq ⊢
  omega

theorem State.setPte_pte_ne (e : Long) {j : Nat} (h : j ≠ i) : (s.setPte i e).pte j = s.pte j := by
  simp only [State.pte, State.setPte_eq, State.modKeeper_memu, State.modKeeper_keeper, Table.read_write, if_neg h]

/-- Each entry of a list takes a new value by `f`. -/
def State.mapPtes (f : Long → Long) (s : State) (l : Table Long) : State := l.foldl (fun s e => s.setPte e.1 (f (s.pte e.1))) s

theorem State.mapPtes_keeps (f : Long → Long) (s : State) (l : Table Long) :
    (s.mapPtes f l).memu = s.memu ∧ (s.mapPtes f l).cells = s.cells := by
  induction l generalizing s with
  | nil => exact ⟨rfl, rfl⟩
  | cons e r ih => exact ih (s.setPte e.1 (f (s.pte e.1)))

/-- Where no entry stands twice in the list, each takes its value once. -/
theorem State.mapPtes_pte (f : Long → Long) {l : Table Long} (hl : (l.map Prod.fst).Nodup) (hi : i < s.memu.frames) :
    (s.mapPtes f l).pte i = if i ∈ l.map Prod.fst then f (s.pte i) else s.pte i := by
  induction l generalizing s with
  | nil => rfl
  | cons e r ih =>
    rw [List.map_cons, List.nodup_cons] at hl
    obtain ⟨hk, hr⟩ := hl
    have step : s.mapPtes f (e :: r) = (s.setPte e.1 (f (s.pte e.1))).mapPtes f r := rfl
    rw [step, ih (s := s.setPte e.1 (f (s.pte e.1))) hr hi]
    by_cases h : i = e.1
    case pos =>
      subst h
      rw [if_neg hk, State.setPte_pte hi, if_pos rfl, if_pos (by simp)]
    case neg =>
      rw [State.setPte_pte_ne _ h]
      simp [h]

/-- Halved over the whole table, the HEAT of every entry is half what it was. -/
theorem State.mapPtes_halfHeat (hw : Table.wf (fun _ => 0) s.keeper.pt = true) (hi : i < s.memu.frames) :
    pteHeat ((s.mapPtes halfHeat s.keeper.pt).pte i) = pteHeat (s.pte i) / 2 ∧
      pteState ((s.mapPtes halfHeat s.keeper.pt).pte i) = pteState (s.pte i) := by
  simp only [Table.wf, Bool.and_eq_true] at hw
  rw [State.mapPtes_pte halfHeat (Table.nodup_of_rising hw.1) hi]
  split
  case isTrue => exact pteHeat_halfHeat _
  case isFalse hn =>
    have h0 : s.pte i = 0 := (if_neg (Nat.not_le.mpr hi)).trans (Table.read_of_not_mem hn)
    rw [h0]
    decide

theorem execKeeperPageDecision_halves (hk : s.keeperOn = true) (hh : s.keeper.halved = false) (hf : s.keeper.frames % 4 = 0) :
    execKeeperPageDecision [] s = .next ((s.mapPtes halfHeat s.keeper.pt).modKeeper fun k => { k with halved := true }) := by
  simp [execKeeperPageDecision, hk, hh, hf, State.mapPtes]

end Pages

/-! ## Run device decisions (R369, R390) -/

theorem State.sendBlocks_cells (s : State) (c : CellNo) (d : BitVec 3) (l : List Nat) : (s.sendBlocks c d l).cells = s.cells :=
  foldl_keeps State.cells (fun u _ => (u.sendTo_units ..).1) l s

/-- A migration that starts makes the cell MIGRATING, with its state before kept, and leaves its memory. -/
theorem State.startMigration_cell (s : State) (c : CellNo) (d : BitVec 3) :
    ((s.startMigration c d).cell c).ctl.st = .migrating ∧ ((s.startMigration c d).cell c).ctl.prior = (s.cell c).ctl.st ∧
      ((s.startMigration c d).cell c).kp.migState = 1 ∧ ((s.startMigration c d).cell c).kp.migTarget = d.setWidth 8 ∧
      ((s.startMigration c d).cell c).mem = (s.cell c).mem := by
  have hsent : (s.sendMigc d c 0).cell c = s.cell c := congrArg (·.get c) (s.sendTo_units ..).1
  unfold State.startMigration
  extract_lets t u
  have hu : (u.sendBlocks c d (List.range (64 * (u.cell c).map.pages))).cell c = u.cell c :=
    congrArg (·.get c) (u.sendBlocks_cells ..)
  rw [hu]
  simp only [u, State.modCell_eq, State.setCell_cell_self, t, hsent, and_self]

/-- Settles O33: the keeper's decisions about a core, the pages and the run device. -/
theorem keeperDecisions : Obligations.KeeperDecisions := by
  intro s c core forced dev x
  refine ⟨fun hl hm => ⟨_, execKeeperCoreDecision_allowed hl hm, rfl⟩, fun hl hm hn => ?_, fun hk hh hf hw => ?_,
    fun hl hm => ⟨?_, ?_⟩⟩
  case refine_1 =>
    obtain ⟨u, hu, e⟩ := execCoreMoveDone_moves hl hm hn
    obtain ⟨hkp, hcore, hmem⟩ := u.coreMoved_cell (c := c) core
    rw [hu] at hkp hcore hmem
    refine ⟨_, e, ?_⟩
    dsimp only
    rw [hkp]
    exact ⟨rfl, rfl, rfl, rfl, rfl, hcore, hmem⟩
  case refine_2 =>
    exact ⟨_, execKeeperPageDecision_halves hk hh hf, rfl, (s.mapPtes_keeps halfHeat _).2,
      fun i hi => State.mapPtes_halfHeat hw hi⟩
  case refine_3 =>
    refine ⟨s.startMigration c (BitVec.ofFin dev), ?_, ?_⟩
    · show execKeeperRundevDecision c dev true forced s = _
      rw [execKeeperRundevDecision, State.liveCell_runs hl, Bool.true_and, if_pos hm]
    · obtain ⟨hst, hp, hg, ht, hmem⟩ := s.startMigration_cell c (BitVec.ofFin dev)
      refine ⟨hst, hp, hg, ht.trans (BitVec.eq_of_toNat_eq ?_), hmem⟩
      have hd := dev.isLt
      simp
  case refine_4 =>
    refine ⟨s, ?_, rfl⟩
    show execKeeperRundevDecision c dev false forced s = _
    rw [execKeeperRundevDecision, State.liveCell_runs hl]
    rfl

end Sys2Proof.Machine
end

section
/-! PROOFS for spec/20_host.md: functions, delivery and stalls of the queues (O37), and the mailbox, the event queue and the
terminal of a cell at home (O39). -/

namespace Sys2Proof.Machine

/-! ## Reading a queue after an operation (R400 to R416) -/

section Queues

variable (s : State) (q r : QueueId)

@[simp] theorem State.modQueue_queue (f : Queue → Queue) : (s.modQueue q f).queue q = f (s.queue q) := by
  cases q <;> simp [State.modQueue, State.queue, State.modHost, State.modCell]

@[simp] theorem State.edge_queue (c : CellNo) (n : Nat) : (s.edge c n).queue q = s.queue q := by
  have h (d : CellNo) : ((s.edge c n).cell d).host = (s.cell d).host := by
    simp only [State.edge, State.modCell, State.setCell_cell]
    split
    case isTrue h => rw [h]; rfl
    case isFalse => rfl
  cases q <;> simp only [State.queue, h] <;> rfl

@[simp] theorem State.msiOf_queue (vf pf : Nat) : (s.msiOf q vf pf).queue r = s.queue r := by
  unfold State.msiOf
  cases qCell q with
  | none => cases r <;> rfl
  | some c =>
    dsimp only
    split
    · cases r <;> rfl
    · rfl

@[simp] theorem State.evqRoom_queue (c : CellNo) (was : Bool) : (s.evqRoom c was).queue q = s.queue q := by
  unfold State.evqRoom
  split
  · exact s.edge_queue ..
  · rfl

theorem onQueue_there (h : s.queueThere q = true) (k : Res) : onQueue q s k = k := by
  unfold onQueue
  unfold State.queueThere at h
  cases hq : qCell q with
  | none => rfl
  | some c =>
    rw [hq] at h
    exact onCell_present h k

/-- A queue but for the packets that wait in it and what the next of them carries. -/
def Queue.besidesWaiting (k : Queue) : Queue := { k with waiting := [], dropNext := false, sinceIrq := 0 }

theorem Queue.irqStep_besidesWaiting (k : Queue) (last : Bool) : (k.irqStep last).1.besidesWaiting = k.besidesWaiting := by
  unfold Queue.irqStep
  split
  · rfl
  · rfl
  · split <;> rfl
  · rfl

theorem Queue.irqStep_waiting (k : Queue) (last : Bool) : (k.irqStep last).1.waiting = k.waiting := by
  unfold Queue.irqStep
  split
  · rfl
  · rfl
  · split <;> rfl
  · rfl

/-- A notice that enters the queue waits in it (R414). -/
@[simp] theorem State.noticeIn_notice (ws : List Long) :
    (s.noticeIn ws).link.notice.besidesWaiting = s.link.notice.besidesWaiting := by
  unfold State.noticeIn
  extract_lets k m t
  have hm : m.1.besidesWaiting = s.link.notice.besidesWaiting := by
    simp only [m]
    split
    · exact (Queue.irqStep_besidesWaiting ..).trans rfl
    · rfl
  split <;> exact hm

@[simp] theorem State.noticeOwed_notice : s.noticeOwed.link.notice.besidesWaiting = s.link.notice.besidesWaiting := by
  unfold State.noticeOwed
  split
  · exact s.noticeIn_notice _
  · rfl

@[simp] theorem State.raise_notice (code unit : Nat) (b : Bool) (arg : Nat) (p : List Long) :
    (s.raise code unit b arg p).link.notice.besidesWaiting = s.link.notice.besidesWaiting := by
  unfold State.raise
  extract_lets ws t u
  have ht : t.link.notice = s.link.notice := by
    simp only [t]
    split <;> rfl
  have hu : u.link.notice.besidesWaiting = s.link.notice.besidesWaiting := by rw [← ht]; exact t.noticeOwed_notice
  split
  · exact hu
  · split
    · exact (u.noticeIn_notice ws).trans hu
    · exact hu

theorem State.noticeIn_command (ws : List Long) : (s.noticeIn ws).link.command = s.link.command := by
  unfold State.noticeIn
  extract_lets k m t
  split <;> rfl

theorem State.noticeOwed_command : s.noticeOwed.link.command = s.link.command := by
  unfold State.noticeOwed
  split
  · exact s.noticeIn_command _
  · rfl

@[simp] theorem State.raise_command (code unit : Nat) (b : Bool) (arg : Nat) (p : List Long) :
    (s.raise code unit b arg p).link.command = s.link.command := by
  unfold State.raise
  extract_lets ws t u
  have ht : t.link.command = s.link.command := by
    simp only [t]
    split <;> rfl
  have hu : u.link.command = s.link.command := t.noticeOwed_command.trans ht
  split
  · exact hu
  · split
    · exact (u.noticeIn_command ws).trans hu
    · exact hu

/-- A notice changes no queue but that of the notices. -/
theorem State.raise_queue (code unit : Nat) (b : Bool) (arg : Nat) (p : List Long) :
    ((s.raise code unit b arg p).queue q).besidesWaiting = (s.queue q).besidesWaiting := by
  cases q
  case notice => exact s.raise_notice ..
  case command => exact congrArg Queue.besidesWaiting (s.raise_command ..)
  all_goals simp [State.queue]

/-- What the taking of a packet announces changes no queue but that of the notices. -/
theorem State.afterTake_queue (k : Queue) : ((s.afterTake q k).queue q).besidesWaiting = (s.queue q).besidesWaiting ∧
    (q ≠ .notice → (s.afterTake q k).queue q = s.queue q) := by
  unfold State.afterTake
  cases q
  case event c => simp
  case notice => exact ⟨s.noticeOwed_notice, fun h => absurd rfl h⟩
  all_goals exact ⟨rfl, fun _ => rfl⟩

end Queues

/-! ## Delivery and stalls (R402, R403, R407) -/

section Delivery

variable {s : State} {q : QueueId}

/-- The queue once its oldest packet `p` has been written to the ring. -/
def Queue.delivered (k : Queue) (q : QueueId) (p : Packet) (r : List Packet) : Queue :=
  { k with
    waiting := r, inRing := k.inRing ++ [p], tail := k.tail + 1
    lastSlot := k.tail.toNat % 2 ^ (k.ctl.toNat / 65536 % 16)
    lastCpl := (BitVec.ofNat 64 (8 * p.words.length), k.tagOf (qClass q) p true true) }

/-- The queue takes the value `n`, with the interrupt of a packet that is the last of its kind or not (R409). -/
def State.ringed (s : State) (q : QueueId) (n : Queue) (last : Bool) : State :=
  let u := s.modQueue q fun _ => (n.irqStep last).1
  (if (n.irqStep last).2 then u.msiOf q (qClass q) 0 else u).afterTake q (s.queue q)

theorem State.ringed_queue (n : Queue) (last : Bool) :
    ((s.ringed q n last).queue q).besidesWaiting = n.besidesWaiting ∧
      (q ≠ .notice → ((s.ringed q n last).queue q).waiting = n.waiting) := by
  unfold State.ringed
  extract_lets u
  have hu : u.queue q = (n.irqStep last).1 := s.modQueue_queue q _
  have hv : (if (n.irqStep last).2 then u.msiOf q (qClass q) 0 else u).queue q = (n.irqStep last).1 := by
    split
    · exact (u.msiOf_queue q q ..).trans hu
    · exact hu
  obtain ⟨hb, hq⟩ := (if (n.irqStep last).2 then u.msiOf q (qClass q) 0 else u).afterTake_queue q (s.queue q)
  refine ⟨hb.trans ((congrArg Queue.besidesWaiting hv).trans (n.irqStep_besidesWaiting last)), fun h => ?_⟩
  rw [hq h, hv]
  exact n.irqStep_waiting last

/-- A packet that fits its slot is written, and TAIL advances (R402). -/
theorem State.deliverPacket_fits {p : Packet} {r : List Packet} (hw : (s.queue q).waiting = p :: r)
    (hs : 8 * p.words.length ≤ (s.queue q).slotBytes.toNat) :
    ∃ last, s.deliverPacket q = s.ringed q ((s.queue q).delivered q p r) last := by
  have hn : ¬ (s.queue q).slotBytes.toNat < 8 * p.words.length := Nat.not_lt.mpr hs
  unfold State.deliverPacket
  simp only [hw, hn, if_false]
  exact ⟨_, rfl⟩

theorem execPacketDeliver_delivers (ht : s.queueThere q = true) (hm : s.queuesMove q = true) (hf : qFromHost q = false)
    (hp : (s.queue q).pop = false) (hc : (s.queue q).credit = true) : execPacketDeliver q s = .next (s.deliverPacket q) := by
  rw [execPacketDeliver, onQueue_there s q ht]
  simp [hm, hf, hp, hc]

theorem State.modHost_tails_queue (s : State) (c : CellNo) (r : QueueId) :
    (s.modHost c fun h => { h with qTails := satInc h.qTails }).queue r = s.queue r := by
  have h (d : CellNo) : ∃ n, ((s.modHost c fun h => { h with qTails := satInc h.qTails }).cell d).host =
      { (s.cell d).host with qTails := n } := by
    simp only [State.modHost_eq, State.setCell_cell]
    split
    case isTrue h => exact ⟨_, by rw [h]⟩
    case isFalse => exact ⟨_, rfl⟩
  cases r
  case command => rfl
  case notice => rfl
  all_goals
    rename_i d
    obtain ⟨n, e⟩ := h d
    simp only [State.queue, e]

/-- A stall is reported once, in the queue's status (R407). -/
theorem State.stallQueue_once (ht : (s.queue q).tailUs ≠ 0) (hw : (s.queue q).waiting ≠ []) :
    ((s.stallQueue q).queue q).stalled = true ∧ ((s.queue q).stalled = true → s.stallQueue q = s) ∧
      ((s.queue q).stalled = false → ((s.stallQueue q).queue q).stat = (s.queue q).stat ||| 1) := by
  have hw' : (s.queue q).waiting.isEmpty = false := by simpa using hw
  cases hs : (s.queue q).stalled with
  | true =>
    have e : s.stallQueue q = s := by simp [State.stallQueue, hs]
    rw [e]
    exact ⟨hs, fun _ => rfl, fun h => absurd h (by decide)⟩
  | false =>
    have hb : ((s.stallQueue q).queue q).besidesWaiting =
        ({ s.queue q with stalled := true, stat := (s.queue q).stat ||| 1 } : Queue).besidesWaiting := by
      unfold State.stallQueue
      extract_lets k u v
      have hv : v.queue q = { s.queue q with stalled := true, stat := (s.queue q).stat ||| 1 } :=
        (u.msiOf_queue q q ..).trans (s.modQueue_queue q _)
      rw [if_neg (by simpa [k, hs, hw'] using ht)]
      split
      · next c _ => rw [State.raise_queue, State.modHost_tails_queue, hv]
      · rw [State.raise_queue, hv]
    exact ⟨congrArg Queue.stalled hb, fun h => absurd h (by decide), fun _ => congrArg Queue.stat hb⟩

theorem execQueueStall_stalls (ht : s.queueThere q = true) (hu : s.hostUp = true) (ho : s.queueOn q = true) :
    execQueueStall q s = .next (s.stallQueue q) := by
  rw [execQueueStall, onQueue_there s q ht]
  simp [hu, ho]

end Delivery

/-! ## Function resets and the link (R397, R398) -/

section Functions

variable {s : State} {c : CellNo}

theorem Queue.disable_empty (k : Queue) :
    k.disable.en = false ∧ k.disable.waiting = [] ∧ k.disable.opened = [] ∧ k.disable.inRing = [] := by
  refine ⟨?_, rfl, rfl, rfl⟩
  show (k.ctl &&& 0xFFFFFFFE).getLsbD 0 = false
  simp

/-- A VF's reset changes the host side of its cell, and at most an edge of its interrupt controller beside it (R398). -/
theorem State.vfReset_eq (s : State) (c : CellNo) :
    ∃ i, s.vfReset c = s.setCell c { s.cell c with host := (s.cell c).host.flr, ic := i } := by
  unfold State.vfReset State.evqRoom
  extract_lets was
  split
  · refine ⟨(Cell.edge { s.cell c with host := (s.cell c).host.flr } 22).ic, ?_⟩
    simp only [State.edge, State.modHost_eq, State.modCell_eq, State.setCell_setCell, State.setCell_cell_self]
    rfl
  · exact ⟨_, rfl⟩

theorem State.vfsReset_keeps (s : State) (l : List CellNo) :
    (l.foldl State.vfReset s).link = s.link ∧ (l.foldl State.vfReset s).objs = s.objs := by
  have hstep (u : State) (c : CellNo) : (u.vfReset c).link = u.link ∧ (u.vfReset c).objs = u.objs := by
    obtain ⟨_, e⟩ := u.vfReset_eq c
    rw [e]
    exact ⟨rfl, rfl⟩
  exact ⟨foldl_keeps State.link (fun u c => (hstep u c).1) l s, foldl_keeps State.objs (fun u c => (hstep u c).2) l s⟩

/-- With VF Enable cleared no VF is on; PF0's queues and the objects stand (R398). -/
theorem State.vfsOff_off (s : State) : s.vfsOff.vfOn = false ∧ s.vfsOff.link.notice = s.link.notice ∧ s.vfsOff.objs = s.objs := by
  unfold State.vfsOff
  split
  case isTrue =>
    obtain ⟨hl, ho⟩ := s.vfsReset_keeps allCells
    generalize allCells.foldl State.vfReset s = u at *
    have hn : u.link.notice = s.link.notice := by rw [hl]
    exact ⟨rfl, hn, ho⟩
  case isFalse h => exact ⟨by simpa using h, rfl, rfl⟩

theorem execVfFlr_resets (hp : s.present c = true) (hu : s.hostUp = true) (hv : s.vfOn = true) :
    execVfFlr c s = .next (s.vfReset c) := by
  rw [execVfFlr, onCell_present hp]
  simp [hu, hv]

/-- Every queue of the cell is disabled and empty after its VF's reset (R398). -/
theorem State.vfReset_queue {q : QueueId} (h : q ∈ [QueueId.slice c, .audio c, .event c, .input c]) :
    (s.vfReset c).queue q = (s.queue q).disable := by
  obtain ⟨i, e⟩ := s.vfReset_eq c
  simp only [List.mem_cons, List.not_mem_nil, or_false] at h
  rcases h with rfl | rfl | rfl | rfl <;> simp [e, State.queue, CellHost.flr]

/-- The link comes up at an allowed rate (R397). -/
theorem execHostLinkChange_up (hu : s.hostUp = true) {g : Fin 6} (hg : g.val ≤ s.objOr 0x2500 5 5) (w n : Nat) :
    execHostLinkChange (.up g w n) s = .next (s.modLink fun l =>
      { l with speed := BitVec.ofNat 8 g.val, width := BitVec.ofNat 8 w, payload := BitVec.ofNat 16 (linkPayload g.val w n) }) := by
  simp [execHostLinkChange, hu, hg]

theorem execHostLinkChange_down (hu : s.hostUp = true) : execHostLinkChange .down s = .next (s.modLink fun l =>
    { l with speed := BitVec.ofNat 8 0, width := BitVec.ofNat 8 0, payload := BitVec.ofNat 16 (linkPayload 0 0 0) }) := by
  simp [execHostLinkChange, hu]

theorem execHostLinkChange_corrected (hu : s.hostUp = true) :
    execHostLinkChange .corrected s = .next (s.modLink fun l => { l with aerCorr := satInc l.aerCorr }) := by
  simp [execHostLinkChange, hu]

theorem execVfEnableWrite_on (hu : s.hostUp = true) (hd : s.dictServed = true) (hm : s.pwr.mode ≠ .train) :
    execVfEnableWrite true s = .next (s.modLink fun l => { l with vfEnable := true }) := by
  simp [execVfEnableWrite, hu, hd, hm]

theorem execVfEnableWrite_off (hu : s.hostUp = true) : execVfEnableWrite false s = .next s.vfsOff := by
  simp [execVfEnableWrite, hu]

end Functions

/-- Settles O37: function resets, link changes, delivery and stalls. -/
theorem hostFunctionsAndDelivery : Obligations.HostFunctionsAndDelivery := by
  refine ⟨fun s c g w n hu => ⟨fun hp hv => ?_, ?_, ?_, fun hd hm => ?_, fun hg => ?_, ?_, ?_⟩, fun s q p r => ?_⟩
  · refine ⟨_, execVfFlr_resets hp hu hv, fun q hq => ?_, ?_⟩
    · rw [State.vfReset_queue hq]
      exact (s.queue q).disable_empty
    · obtain ⟨i, e⟩ := s.vfReset_eq c
      rw [e, State.core, State.setCell_cell_self]
      exact ⟨rfl, rfl, rfl, rfl, fun d hd => (State.setCell_cell ..).trans (if_neg hd)⟩
  · obtain ⟨hoff, _, ho⟩ := s.vfsOff_off
    exact ⟨_, congrArg Host.Outcome.next (if_pos hu), hoff, (Queue.disable_empty _).1, (Queue.disable_empty _).1, rfl, ho⟩
  · obtain ⟨hoff, hn, _⟩ := s.vfsOff_off
    exact ⟨_, execVfEnableWrite_off hu, hoff, hn⟩
  · exact ⟨_, execVfEnableWrite_on hu hd hm, rfl⟩
  · exact ⟨_, execHostLinkChange_up hu hg w n, rfl, rfl, rfl, rfl⟩
  · exact ⟨_, execHostLinkChange_down hu, rfl, rfl, rfl⟩
  · exact ⟨_, execHostLinkChange_corrected hu, rfl⟩
  · intro k ht
    refine ⟨fun hm hf hp hc hw hs => ?_, fun hu ho htu hw => ⟨_, execQueueStall_stalls ht hu ho, State.stallQueue_once htu hw⟩⟩
    obtain ⟨last, e⟩ := State.deliverPacket_fits hw hs
    obtain ⟨hb, hq⟩ := State.ringed_queue (s := s) (q := q) (k.delivered q p r) last
    have hhead : ((s.ringed q (k.delivered q p r) last).queue q).besidesWaiting.head =
        (k.delivered q p r).besidesWaiting.head := by
      rw [hb]
    exact ⟨_, (execPacketDeliver_delivers ht hm hf hp hc).trans (congrArg Host.Outcome.next e), congrArg Queue.tail hb,
      hhead, congrArg Queue.inRing hb, congrArg (fun j : Queue => j.lastCpl.1) hb, congrArg Queue.lastSlot hb, hq⟩

/-! ## Registers of the host block and the terminal (R401, R418 to R420, R476) -/

section HostRegisters

variable {s : State} {c : CellNo} {a : Nat}

/-- A write of a register of the mailbox or the event queue reaches it. -/
theorem ioWriteAs_host (hl : 0x0F00 ≤ a) (hr : inRanges ioRanges a = true) (ag : Agent) (v : Byte) :
    ∃ y, (s.cell c).Unlocking y ∧ s.ioWriteAs c ag false a v = (s.setCell c y).writeHost c a v := by
  have hk : lockedAt a = none := lockedAt_above (by omega)
  have hm : ioMapped (s.cell c).prof a = true := (ioMapped_above _ (by omega)).trans hr
  have hd : s.ioDark a = false := by
    have h₁ : ¬ a < 0x0F00 := by omega
    simp [State.ioDark, h₁]
  obtain ⟨y, hu, e⟩ := ioWriteAs_reaches hk hm hd ag false v
  refine ⟨y, hu, e.trans ?_⟩
  have h₁ : ¬ a < 0x0400 := by omega
  simp [State.regWrite, h₁, hl]

/-- A write of VT_TX reaches the terminal. -/
theorem ioWriteAs_vtTx (ag : Agent) (v : Byte) :
    ∃ y, (s.cell c).Unlocking y ∧ s.ioWriteAs c ag false 0x03C0 v = (s.setCell c y).vtTxWrite c v := by
  have hm : ioMapped (s.cell c).prof 0x03C0 = true := by
    simp [ioMapped, show isAffine 0x03C0 = false from rfl, show inRanges ioRanges 0x03C0 = true from rfl]
  obtain ⟨y, hu, e⟩ := ioWriteAs_reaches (s := s) (c := c) (a := 0x03C0) rfl hm rfl ag false v
  exact ⟨y, hu, e⟩

end HostRegisters

/-! ## The mailbox (R418) -/

section Mailbox

variable {s : State} {c : CellNo}

/-- The mailbox of a cell at home takes a word while it is empty. -/
theorem State.mailboxWrite_takes (hf : (s.cell c).host.mbFull = false) (ha : (s.cell c).kp.away = none) (w : Long) :
    s.mailboxWrite c w = s.setCell c ({ s.cell c with host := { (s.cell c).host with mbData := w, mbFull := true } } |>.edge 21) := by
  simp [State.mailboxWrite, State.mailboxIn, hf, ha, State.edge]

theorem State.mailboxWrite_refused (hf : (s.cell c).host.mbFull = true) (w : Long) :
    s.mailboxWrite c w = s.setCell c { s.cell c with host := { (s.cell c).host with mbRej := true } } := by
  simp [State.mailboxWrite, hf]

@[simp] theorem State.msiVf_cells (s : State) (c : CellNo) (vec : Nat) : (s.msiVf c vec).cells = s.cells := by
  unfold State.msiVf State.msiOf qCell
  dsimp only
  split <;> rfl

@[simp] theorem State.msiVf_cell (s : State) (c d : CellNo) (vec : Nat) : (s.msiVf c vec).cell d = s.cell d :=
  congrArg (·.get d) (s.msiVf_cells c vec)

/-- MB_ACK empties the mailbox. -/
theorem State.mailboxAck_cell (s : State) (c : CellNo) :
    (s.mailboxAck c).cell c = { s.cell c with host := { (s.cell c).host with mbFull := false } } := by
  unfold State.mailboxAck
  extract_lets t
  have ht : t.cell c = { s.cell c with host := { (s.cell c).host with mbFull := false } } := by
    simp [t]
  split
  · next d _ => exact (congrArg (·.get c) (t.sendTo_units ..).1).trans ht
  · exact (t.msiVf_cell ..).trans ht

end Mailbox

/-! ## The event queue (R419, R420) -/

section Events

variable {s : State} {c : CellNo}

/-- The word that byte 7 of EV_DATA completes (R419). -/
def CellHost.evWord (h : CellHost) (v : Byte) : Long := BitVec.ofNat 64 (ofBytes (h.evStage.toList.take 7 ++ [v]))

theorem CellHost.staged_word (h : CellHost) (v : Byte) :
    BitVec.ofNat 64 (ofBytes (h.evStage.setIfInBounds 7 v).toList) = h.evWord v := by
  have hl : h.evStage.toList.length = 8 := h.evStage.length_toList
  have e : (h.evStage.setIfInBounds 7 v).toList = h.evStage.toList.take 7 ++ [v] := by
    rw [Vector.toList_setIfInBounds, List.set_eq_take_append_cons_drop, if_pos (by omega), List.drop_eq_nil_of_le (by omega)]
  rw [e, CellHost.evWord]

/-- The event queue of a cell at home makes the words `ws` a packet, and its open packet is empty again. -/
theorem State.evCommit_host (hg : (s.cell c).kp.guest = none) (ws : List Long) :
    ∃ e, ((s.evCommit c ws).cell c).host = { (s.cell c).host with event := e } ∧ e.opened = [] ∧
      e.waiting = (s.cell c).host.event.waiting ++ [{ words := ws, dropped := (s.cell c).host.event.dropNext }] := by
  unfold State.evCommit
  split
  case h_1 d h => rw [hg] at h; nomatch h
  extract_lets _ q r t
  have ht : (t.cell c).host = { (s.cell c).host with event := r.1 } := by simp [t]
  have hr : r.1.opened = [] ∧ r.1.waiting = q.waiting := by
    simp only [r]
    split
    · exact ⟨congrArg Queue.opened (q.irqStep_besidesWaiting true), q.irqStep_waiting true⟩
    · exact ⟨rfl, rfl⟩
  refine ⟨r.1, ?_, hr⟩
  split
  · rw [State.msiVf_cell, ht]
  · exact ht

/-- The cell with `w` added to its open event packet, and no end asked for (R420). -/
def Cell.evOpened (x : Cell) (w : Long) : Cell :=
  { x with host := { x.host with
      evEndNext := false, event := { x.host.event with opened := x.host.event.opened ++ [(w, 0)] } } }

/-- A word that has room is added to the open packet; the last one makes it whole. -/
theorem State.evPush_room (hq : s.queueOn (.event c) = true) (hs : (s.cell c).host.event.spoiled = false)
    (hw : (s.cell c).host.event.words < 64) (ho : (s.cell c).host.event.opened.length < 16) :
    let x := s.cell c
    let w := BitVec.ofNat 64 (ofBytes x.host.evStage.toList)
    s.evPush c = if x.host.evEndNext then (s.setCell c (x.evOpened w)).evCommit c (x.host.event.opened.map (·.1) ++ [w])
      else s.setCell c (x.evOpened w) := by
  intro x w
  have hq' : (s.setCell c { x with host := { x.host with evEndNext := false } }).queueOn (.event c) = true := by
    simpa [State.queueOn, State.fnOn, State.queue, State.vfOn] using hq
  have hw' : ¬ 64 ≤ (s.cell c).host.event.words := Nat.not_le.mpr hw
  have ho' : ¬ 16 ≤ (s.cell c).host.event.opened.length := Nat.not_le.mpr ho
  simp [State.evPush, x, w, hq', hs, hw', ho', Cell.evOpened]

/-- Byte 7 pushes the staged word: the open packet has it behind the others, or ends with it. -/
theorem State.evWrite_pushes (hq : s.queueOn (.event c) = true) (hs : (s.cell c).host.event.spoiled = false)
    (hw : (s.cell c).host.event.words < 64) (ho : (s.cell c).host.event.opened.length < 16) (hg : (s.cell c).kp.guest = none)
    (v : Byte) :
    let h := (s.cell c).host
    let k := ((s.evWrite c 7 v).cell c).host
    (h.evEndNext = false → k.event.opened = h.event.opened ++ [(h.evWord v, 0)] ∧ k.event.waiting = h.event.waiting) ∧
    (h.evEndNext = true → k.event.opened = [] ∧ k.evEndNext = false ∧ ∃ p, k.event.waiting = h.event.waiting ++ [p] ∧
      p.dropped = h.event.dropNext ∧ p.words = h.event.opened.map (·.1) ++ [h.evWord v]) := by
  intro h k
  have room := State.evPush_room (c := c)
    (s := s.setCell c { s.cell c with host := { h with evStage := h.evStage.setIfInBounds 7 v } })
    (by simpa [State.queueOn, State.fnOn, State.queue, State.vfOn] using hq) (by simpa using hs) (by simpa using hw) (by simpa using ho)
  simp only [State.setCell_cell_self, CellHost.staged_word, State.setCell_setCell] at room
  have hk : k = ((State.evPush (s.setCell c { s.cell c with host := { h with evStage := h.evStage.setIfInBounds 7 v } }) c).cell c).host :=
    rfl
  rw [hk, room]
  refine ⟨fun he => ?_, fun he => ?_⟩
  · simp [he, Cell.evOpened]
  · rw [if_pos he]
    obtain ⟨e, eh, ho', ew⟩ := State.evCommit_host (c := c)
      (s := s.setCell c (Cell.evOpened { s.cell c with host := { h with evStage := h.evStage.setIfInBounds 7 v } } (h.evWord v)))
      (by simpa [Cell.evOpened] using hg) (h.event.opened.map (·.1) ++ [h.evWord v])
    rw [eh]
    simp only [State.setCell_cell_self] at ew
    exact ⟨ho', by rw [State.setCell_cell_self]; rfl, _, ew, rfl, rfl⟩

theorem State.evqRoom_eq (s : State) (c : CellNo) (was : Bool) : ∃ i, s.evqRoom c was = s.setCell c { s.cell c with ic := i } := by
  unfold State.evqRoom
  split
  · exact ⟨_, rfl⟩
  · exact ⟨(s.cell c).ic, (s.setCell_self c).symm⟩

/-- DROP empties the open packet and leaves the whole ones. -/
theorem State.evDrop_eq (s : State) (c : CellNo) :
    ∃ i, s.evDrop c = s.setCell c { s.cell c with
      host := { (s.cell c).host with event := { (s.cell c).host.event with opened := [], spoiled := false } }, ic := i } := by
  obtain ⟨i, e⟩ := (s.modHost c fun h => { h with event := { h.event with opened := [], spoiled := false } }).evqRoom_eq c
    (s.cell c).host.event.full64
  exact ⟨i, by simpa [State.evDrop] using e⟩

end Events

/-! ## The terminal (R476, R477) -/

section Terminal

variable {s : State} {c : CellNo}

theorem State.vtTxIn_room (h : (s.cell c).dbg.vtTx.length < 64) (v : Byte) :
    ((s.vtTxIn c v).cell c) = { s.cell c with dbg := { (s.cell c).dbg with vtTx := (s.cell c).dbg.vtTx ++ [v] } } := by
  have h' : ¬ 64 ≤ (s.cell c).dbg.vtTx.length := Nat.not_le.mpr h
  unfold State.vtTxIn
  dsimp only
  rw [if_neg h']
  split <;> simp

theorem State.vtTxIn_full (h : 64 ≤ (s.cell c).dbg.vtTx.length) (v : Byte) :
    s.vtTxIn c v = s.setCell c { s.cell c with dbg := { (s.cell c).dbg with vtTxOvf := true } } := by
  simp [State.vtTxIn, h]

theorem State.vtTxWrite_home (h : (s.cell c).kp.guest = none) (v : Byte) : s.vtTxWrite c v = s.vtTxIn c v := by
  simp [State.vtTxWrite, h]

theorem State.vtTxTake_dbg (s : State) (c : CellNo) (n : Nat) :
    ((s.vtTxTake c n).cell c).dbg = { (s.cell c).dbg with vtTx := (s.cell c).dbg.vtTx.drop n } := by
  unfold State.vtTxTake
  dsimp only
  split <;> simp [State.edge, Cell.edge]

theorem State.vtRxIn_dbg (s : State) (c : CellNo) (l : List Byte) :
    ((s.vtRxIn c l).cell c).dbg = { (s.cell c).dbg with vtRx := ((s.cell c).dbg.vtRx ++ l).take 64 } := by
  unfold State.vtRxIn
  dsimp only
  split <;> simp [State.edge, Cell.edge]

/-- The host takes the oldest byte of a terminal that is not the debugger's. -/
theorem State.vtHostRead_takes (hv : (s.cell c).dbg.vt = false) {b : Byte} {l : List Byte} (ht : (s.cell c).dbg.vtTx = b :: l) :
    ((s.vtHostRead c).cell c).dbg = { (s.cell c).dbg with vtTx := l, vtHostRd := BitVec.ofNat 32 (256 + b.toNat) } := by
  unfold State.vtHostRead
  simp [ht, hv, State.vtTxTake_dbg]

/-- The host's byte enters the receive FIFO behind the others. -/
theorem State.vtHostWrite_enters (hv : (s.cell c).dbg.vt = false) (ha : (s.cell c).kp.away = none)
    (hr : (s.cell c).dbg.vtRx.length < 64) (u : Word) :
    ((s.vtHostWrite c false u).cell c).dbg = { (s.cell c).dbg with vtRx := (s.cell c).dbg.vtRx ++ [u.setWidth 8] } := by
  have hr' : ¬ 64 ≤ (s.cell c).dbg.vtRx.length := Nat.not_le.mpr hr
  have hl : ((s.cell c).dbg.vtRx ++ [u.setWidth 8]).length ≤ 64 := by simpa using hr
  have e : s.vtHostWrite c false u = s.vtRxIn c [u.setWidth 8] := by
    simp [State.vtHostWrite, State.vtRxWrite, hv, hr', ha]
  rw [e, State.vtRxIn_dbg, List.take_of_length_le hl]

theorem State.vtHostWrite_refused (hv : (s.cell c).dbg.vt = true) (u : Word) :
    s.vtHostWrite c false u = s.setCell c { s.cell c with dbg := { (s.cell c).dbg with vtHostOvf := true } } := by
  simp [State.vtHostWrite, hv]

end Terminal

/-! ## The commands of the host and of the cell -/

section Commands

variable {s : State} {c : CellNo}

theorem execHostMailboxWrite_writes (hp : s.present c = true) (hu : s.hostUp = true) (hv : s.vfOn = true) (w : Long) :
    execHostMailboxWrite c .whole false w s = .next (s.mailboxWrite c w) := by
  rw [execHostMailboxWrite, onCell_present hp]
  simp [hu, hv]

theorem execVtHostRxRead_reads (hp : s.present c = true) (hu : s.hostUp = true) (hv : s.vfOn = true) :
    execVtHostRxRead c s = .next (s.vtHostRead c) := by
  rw [execVtHostRxRead, onCell_present hp]
  simp [hu, hv]

theorem execVtHostTxWrite_writes (hp : s.present c = true) (hu : s.hostUp = true) (hv : s.vfOn = true) (u : Word) :
    execVtHostTxWrite c false u s = .next (s.vtHostWrite c false u) := by
  rw [execVtHostTxWrite, onCell_present hp]
  simp [hu, hv]

theorem execMbAckWrite_acks (hs : s.startedCell c = true) (v : Byte) :
    ∃ y, (s.cell c).Unlocking y ∧ execMbAckWrite c v s = .next ((s.setCell c y).mailboxAck c) := by
  obtain ⟨y, hu, e⟩ := ioWriteAs_host (s := s) (c := c) (a := 0x0F09) (by decide) (by decide) .core v
  exact ⟨y, hu, by rw [execMbAckWrite, onStarted_runs hs, e]; rfl⟩

theorem execEventPush_writes (hs : s.startedCell c = true) (ag : Agent) (i : Fin 8) (v : Byte) :
    ∃ y, (s.cell c).Unlocking y ∧ execEventPush c ag i v s = .next ((s.setCell c y).evWrite c i.val v) := by
  have hi : i.val < 8 := i.isLt
  obtain ⟨y, hu, e⟩ := ioWriteAs_host (s := s) (c := c) (a := 0x0F10 + i.val) (by omega) (by revert i; decide) ag v
  refine ⟨y, hu, ?_⟩
  have h₁ : 0x0F10 + i.val ≠ 0x0E40 ∧ 0x0F10 + i.val ≠ 0x0F09 ∧ 0x0F10 ≤ 0x0F10 + i.val ∧ 0x0F10 + i.val < 0x0F18 := by omega
  rw [execEventPush, onStarted_runs hs, e]
  simp [State.writeHost, h₁]

theorem execEventDrop_drops (hs : s.startedCell c = true) :
    ∃ y, (s.cell c).Unlocking y ∧ execEventDrop c s = .next (((s.setCell c y).evDrop c).modHost c fun h => h) := by
  obtain ⟨y, hu, e⟩ := ioWriteAs_host (s := s) (c := c) (a := 0x0F18) (by decide) (by decide) .core 2
  refine ⟨y, hu, ?_⟩
  rw [execEventDrop, onStarted_runs hs, e]
  simp [State.writeHost]

theorem execVtTxWrite_writes (hs : s.startedCell c = true) (v : Byte) :
    ∃ y, (s.cell c).Unlocking y ∧ execVtTxWrite c v s = .next ((s.setCell c y).vtTxWrite c v) := by
  obtain ⟨y, hu, e⟩ := ioWriteAs_vtTx (s := s) (c := c) .core v
  exact ⟨y, hu, by rw [execVtTxWrite, onStarted_runs hs, e]⟩

end Commands

/-- Settles O39: each write and read reaches the mailbox, the event queue or the terminal of its cell. -/
theorem mailboxEventsTerminal : Obligations.MailboxEventsTerminal := by
  intro s c v w u ag i b l
  refine ⟨fun hp hu hv => ⟨fun hf ha => ?_, fun hf => ?_, fun ht hb => ?_, fun ht ha hr => ?_, fun ht => ?_⟩,
    fun hs => ⟨?_, fun hi => ?_, fun hi hq hg hsp hw ho => ?_, ?_, fun hg hr => ?_, fun hg hr => ?_, ?_⟩⟩
  · refine ⟨_, execHostMailboxWrite_writes hp hu hv w, ?_⟩
    simp [State.mailboxWrite_takes hf ha, State.core, Cell.edge]
  · exact ⟨_, execHostMailboxWrite_writes hp hu hv w, State.mailboxWrite_refused hf w⟩
  · refine ⟨_, execVtHostRxRead_reads hp hu hv, ?_⟩
    dsimp only
    rw [State.vtHostRead_takes ht hb]
    exact ⟨rfl, rfl, rfl⟩
  · refine ⟨_, execVtHostTxWrite_writes hp hu hv u, ?_⟩
    dsimp only
    rw [State.vtHostWrite_enters ht ha hr]
    exact ⟨rfl, rfl⟩
  · refine ⟨_, execVtHostTxWrite_writes hp hu hv u, ?_⟩
    simp [State.vtHostWrite_refused ht]
  · obtain ⟨y, ⟨q, k, rfl⟩, e⟩ := execMbAckWrite_acks hs v
    refine ⟨_, e, ?_⟩
    simp [State.core, State.mailboxAck_cell]
  · obtain ⟨y, ⟨q, k, rfl⟩, e⟩ := execEventPush_writes hs ag i v
    refine ⟨_, e, ?_⟩
    simp [State.evWrite, Nat.ne_of_lt hi, State.onlyCell, Vector.get_eq_getElem]
  · obtain ⟨y, ⟨q, k, rfl⟩, e⟩ := execEventPush_writes hs ag i v
    rw [hi] at e
    have pushed := State.evWrite_pushes (c := c) (s := s.setCell c { s.cell c with
      ctl := { (s.cell c).ctl with locked := q }, wd := k })
      (by simpa [State.queueOn, State.fnOn, State.queue, State.vfOn] using hq) (by simpa using hsp) (by simpa using hw)
      (by simpa using ho) (by simpa using hg) v
    simp only [State.setCell_cell_self] at pushed
    obtain ⟨going, ended⟩ := pushed
    exact ⟨fun he => ⟨_, e, going he⟩, fun he => ⟨_, e, ended he⟩⟩
  · obtain ⟨y, ⟨q, k, rfl⟩, e⟩ := execEventDrop_drops hs
    refine ⟨_, e, ?_⟩
    obtain ⟨i, e'⟩ := State.evDrop_eq (s.setCell c { s.cell c with ctl := { (s.cell c).ctl with locked := q }, wd := k }) c
    simp [e', State.onlyCell]
  · obtain ⟨y, ⟨q, k, rfl⟩, e⟩ := execVtTxWrite_writes hs v
    refine ⟨_, e, ?_⟩
    simp [State.core, State.vtTxWrite_home, State.vtTxIn_room, hg, hr]
  · obtain ⟨y, ⟨q, k, rfl⟩, e⟩ := execVtTxWrite_writes hs v
    refine ⟨_, e, ?_⟩
    simp [State.vtTxWrite_home, State.vtTxIn_full, hg, hr]
  · refine ⟨s.coreRead c 0x03C1, onStarted_runs hs _, ?_⟩
    rw [coreRead_vtRx]
    simp [State.onlyCell, Cell.vtPop]

end Sys2Proof.Machine
end

section
/-! PROOFS for spec/22_dictionary.md: the kept response (O52). -/

namespace Sys2Proof.Machine

section KeptResponses

variable {s : State} {o : Origin} {q : Session} {l : List Byte} {i : Item}

/-- A response that its segments can carry goes out in them (R446). -/
theorem State.canSend_fits {k : Fin 2} {fd : Bool} {rsp : List Byte} (h : (canSegments (if fd then 62 else 6) rsp).length ≤ 64)
    (node : Byte) : ((s.canSend k fd node rsp).mc.can.get k).tx = canFrames node (canSegments (if fd then 62 else 6) rsp) := by
  unfold State.canSend
  extract_lets parts small parts'
  have e : parts' = parts := if_neg (Nat.not_lt.mpr h)
  simp [e, parts, State.modMc, Vector.get_eq_getElem]

/-- A request that comes again is answered with what its session keeps (R444). -/
theorem State.serveClient_again (hd : s.dictServed = true) (hl : 12 ≤ l.length) (hv : l.getD 0 0 = 1)
    (hop : (msgHead l).op ≠ 1) (hq : s.sessionOn 4 (msgHead l).session = some q) (he : q.lastReq = l) (node : Byte) :
    s.serveClient 4 node 0 l true 3968 = (s, some q.lastRsp) := by
  have hl' : ¬ l.length < 12 := Nat.not_lt.mpr hl
  simp only [State.serveClient, hd, hl', hv, hop, hq, he, Bool.not_true, decide_false, bne_self_eq_false, Bool.or_self,
    Bool.false_eq_true, if_false, if_true]

theorem dictMessage_again (hd : s.dictServed = true) (ht : o.transport = 4) (hl : 12 ≤ l.length) (hv : l.getD 0 0 = 1)
    (hop : (msgHead l).op ≠ 1) (hq : s.sessionOn 4 (msgHead l).session = some q) (he : q.lastReq = l) (mac : Long) :
    dictMessage o (msgHead l).op mac l s = .next (s.canSend 0 (s.objOr 0x2601 2 2 != 0) o.node q.lastRsp) := by
  simp only [dictMessage, hd, ht, State.serveClient_again hd hl hv hop hq he, Bool.not_true, bne_self_eq_false, Bool.or_self,
    Bool.false_eq_true, if_false]

/-- A WRITE of one item answers with the item's result (R442). -/
theorem State.execItems_writes (hf : s.foreign (msgHead l) = none) (hh : (msgHead l).op = 4) (hi : msgItems (msgHead l) l = [i]) :
    let w := s.writeItem q i.idx i.sub i.ty i.bytes false
    s.execItems q (msgHead l) l 3968 = (w.1.modMc fun m => { m with result := w.2, value := [] },
      .now (rspHead (msgHead l) 0 (msgHead l).session (msgHead l).count ++ rspItem i i.ty w.2 [])) := by
  simp [State.execItems, hf, hh, hi, State.writeItems]

/-- Serving a WRITE of one item executes it and keeps the response with its result. -/
theorem State.serveClient_write (h : s.canMessage o q 4 l) (hi : msgItems (msgHead l) l = [i]) :
    let w := s.writeItem q i.idx i.sub i.ty i.bytes false
    ∃ r, s.serveClient 4 o.node 0 l true 3968 = ((w.1.modMc fun m => { m with result := w.2, value := [] }).keep q l
      (rspHead (msgHead l) 0 (msgHead l).session (msgHead l).count ++ rspItem i i.ty w.2 []), r) := by
  obtain ⟨hd, _, hl, hv, hh, hb, hq, hn, hf, _⟩ := h
  have hl' : ¬ l.length < 12 := Nat.not_lt.mpr hl
  have ht : ¬ (4 : Fin 7) = 3 := by decide
  have hserved : (!s.dictServed || decide (l.length < 12) || l.getD 0 0 != 1) = false := by
    simp only [hd, hv, hl', Bool.not_true, bne_self_eq_false, Bool.or_self, decide_false]
  intro w
  have hop : (msgHead l).op ≠ 1 ∧ (msgHead l).op ≠ 2 ∧ (msgHead l).op ≠ 5 := by omega
  simp only [State.serveClient, hserved, hop, hq, hn, hb, ht, State.execItems_writes hf hh hi, Bool.false_eq_true, if_false]
  exact ⟨_, rfl⟩

/-- The record of a session holds the request and the response that were kept last. -/
theorem State.keep_kept {rsp : List Byte} {z : Session}
    (h : (s.keep q l rsp).mc.sessions.find? (fun k => k.same q) = some z) : z.lastReq = l ∧ z.lastRsp = rsp := by
  have hz : z.same q = true := List.find?_some (p := fun k : Session => k.same q) h
  obtain ⟨k, _, e⟩ := List.mem_map.mp (List.mem_of_find?_eq_some h)
  split at e
  case isTrue => rw [← e]; exact ⟨rfl, rfl⟩
  case isFalse hk => exact absurd (e ▸ hz) hk

theorem dictMessage_write (h : s.canMessage o q 4 l) (hi : msgItems (msgHead l) l = [i]) (mac : Long) :
    let w := s.writeItem q i.idx i.sub i.ty i.bytes false
    let u := (w.1.modMc fun m => { m with result := w.2, value := [] }).keep q l
      (rspHead (msgHead l) 0 (msgHead l).session (msgHead l).count ++ rspItem i i.ty w.2 [])
    ∃ t, dictMessage o 4 mac l s = .next t ∧ t.mc.result = u.mc.result ∧ t.mc.sessions = u.mc.sessions := by
  intro w u
  obtain ⟨r, e⟩ := State.serveClient_write h hi
  obtain ⟨hd, ht, _, _, hh, _⟩ := h
  have step : dictMessage o 4 mac l s = .next (match (u, r) with
      | (t, some b) => t.canSend 0 (s.objOr 0x2601 2 2 != 0) o.node b
      | (t, none) => t) := by
    rw [dictMessage, hd, hh, ht, e]
    rfl
  cases r with
  | none => exact ⟨u, step, rfl, rfl⟩
  | some b => exact ⟨_, step, rfl, rfl⟩

end KeptResponses

/-- Settles O52: a request that comes again takes the branch that only sends; another one is executed and kept. -/
theorem keptResponse : Obligations.KeptResponse := by
  intro s o q l i
  refine ⟨fun hd ht hl hv hq he hp op hop hh => ?_, fun hm hi => ?_⟩
  · have hne : (msgHead l).op ≠ 1 := by
      intro h₁
      simp only [List.mem_cons, List.not_mem_nil, or_false] at hop
      rcases hop with rfl | rfl | rfl <;> omega
    have e : exec op.2 s = .next (s.canSend 0 (s.objOr 0x2601 2 2 != 0) o.node q.lastRsp) := by
      have again := dictMessage_again hd ht hl hv hne hq he
      simp only [List.mem_cons, List.not_mem_nil, or_false] at hop
      rcases hop with rfl | rfl | rfl <;> (rw [hh] at again; exact again _)
    have hseg : (if (s.objOr 0x2601 2 2 != 0) = true then 62 else 6) = if s.objOr 0x2601 2 2 ≠ 0 then 62 else 6 := by
      simp only [bne_iff_ne]
    refine ⟨_, e, ?_, rfl, rfl, rfl, rfl⟩
    exact (State.canSend_fits (hseg ▸ hp) o.node).trans (by rw [hseg])
  · obtain ⟨t, e, hr, hs⟩ := dictMessage_write hm hi _
    refine ⟨t, e, hr, fun z hz => ?_⟩
    rw [hs] at hz
    rw [hr]
    exact State.keep_kept hz

end Sys2Proof.Machine
end

section
/-! PROOFS for spec/23_debug.md: what an accepted write of a single object does, HALT, STEP and RESUME, and the TAP (O42). -/

namespace Sys2Proof.Machine

/-! ## An accepted write of one object (R434 to R436) -/

section SingleWrites

variable {s : State} {o : Origin} {q : Session} {base unit idx sub v : Nat} {row : ObjRow}

theorem ofBytes_toBytes (n : Nat) (h : v < 256 ^ n) : ofBytes (toBytes v n) = v := by
  induction n generalizing v with
  | zero => simp only [toBytes, ofBytes]; omega
  | succ n ih =>
    have hd : v / 256 < 256 ^ n := Nat.div_lt_of_lt_mul (by rw [Nat.pow_succ, Nat.mul_comm] at h; exact h)
    simp only [toBytes, ofBytes, ih hd, BitVec.toNat_ofNat]
    omega

theorem State.noteSession_held (h : s.mc.sessions.find? (fun k => k.same q) = some q) : s.noteSession q = s := by
  have ha : s.mc.sessions.any (fun k => k.same q) = true := List.any_eq_true.mpr
    ⟨q, List.mem_of_find?_eq_some h, List.find?_some (p := fun k : Session => k.same q) h⟩
  exact if_pos ha

/-- The entry of a write leaves the cells. -/
theorem State.journalFor_cells (s : State) (q : Session) (e : JEntry) : (s.journalFor q e).cells = s.cells := by
  unfold State.journalFor
  split <;> rfl

/-- A write that nothing refuses makes its entry, where its object has one, and then takes effect. -/
theorem State.writeItem_accepted (hq : s.mc.sessions.find? (fun k => k.same q) = some q)
    (h : s.writeGives q base unit idx sub v row 0) :
    ∃ u : State, u.cells = s.cells ∧ s.writeItem q idx sub row.ty (toBytes v (tySize row.ty)) false =
      (u.writeEffect q ⟨base, unit, idx, sub, row⟩ (toBytes v (tySize row.ty)) 0, 0) := by
  obtain ⟨ho, ha, _, hc⟩ := h
  simp only [State.writeItem, State.again_eq hq, ho, ha, hc]
  refine ⟨_, ?_, rfl⟩
  split
  · rfl
  · exact s.journalFor_cells ..

/-- The command of such a write. -/
theorem dictPut_accepted (hs : s.servedBy o q) (h : s.writeGives q base unit idx sub v row 0) :
    ∃ u : State, u.cells = s.cells ∧ dictPut o idx sub v s =
      .next ((u.writeEffect q ⟨base, unit, idx, sub, row⟩ (toBytes v (tySize row.ty)) 0).modMc fun m =>
        { m with result := 0, value := [] }) := by
  obtain ⟨hd, hq, hf⟩ := hs
  obtain ⟨u, hu, e⟩ := State.writeItem_accepted hf h
  obtain ⟨ho, _, hv, _⟩ := h
  refine ⟨u, hu, ?_⟩
  simp only [dictPut, dictWriteOne, State.writeOne, hd, hq, ho, hv, if_true, State.noteSession_held hf, e]

end SingleWrites

/-! ## HALT, STEP and RESUME (R464 to R467) -/

section Debugger

variable {s : State} {o : Origin} {c : CellNo} {r : List CellCmd}

/-- An abandoned locked sequence is gone, and only the record of it changes beside it. -/
theorem Cell.breakLocked_eq (x : Cell) (l : List Half) : ∃ d m w, x.breakLocked l =
    { x with ctl := { x.ctl with locked := none }, dbg := d, map := m, wd := w } := by
  unfold Cell.breakLocked
  split
  case h_1 h => exact ⟨_, _, _, by rw [← h]⟩
  case h_2 k _ =>
    dsimp only
    cases k.reg <;> exact ⟨_, _, _, rfl⟩

/-- A cell that halts keeps its registers and its memory, and the state that it leaves. -/
theorem State.haltCell_cell (s : State) (c : CellNo) (cause : Byte) :
    let x := s.cell c
    let y := (s.haltCell c cause).cell c
    y.ctl.st = .halted ∧ y.ctl.prior = x.ctl.st ∧
      y.ctl.pausePrior = (if x.ctl.st == .paused then x.ctl.prior else x.ctl.pausePrior) ∧ y.dbg.haltCause = cause ∧
      y.dbg.haltReq = false ∧ y.pace.avail = 0 ∧ y.core = x.core.land ∧ y.mem = x.mem := by
  obtain ⟨d, m, w, e⟩ := (s.cell c).breakLocked_eq (s.mc.sessions.map (·.num))
  simp only [State.haltCell, e, State.raise_cell, State.setCell_cell_self, and_self]

theorem execDbgHalt_takes (h : (s.cell c).dbg.haltReq = true) (hr : (s.cell c).ctl.st = .running)
    (hd : (s.cell c).haltDue = true) (he : (s.cell c).entryDue = false) : execDbgHalt c o s = .next (s.haltCell c 1) := by
  simp [execDbgHalt, State.takeHalt, h, hr, hd, he]

theorem State.takeHalt_none (h : (s.cell c).dbg.haltReq = false) : s.takeHalt c = s := by
  simp [State.takeHalt, h]

/-- What a command of the debugger does once its write is accepted. -/
theorem State.writeEffect_dbgCmd (u : State) (q : Session) (idx : Nat) (row : ObjRow) (bytes : List Byte) :
    u.writeEffect q ⟨0x9000, c.val, idx, 6, row⟩ bytes 0 = (u.objPut idx 6 0 (ofBytes bytes)).dbgCmd c (ofBytes bytes) := by
  have hc : Obj.cell ⟨0x9000, c.val, idx, 6, row⟩ = c := by simp [Obj.cell]
  simp [State.writeEffect, State.numEffect, hc]

/-- A HALT that a session asks of a PAUSED cell is taken at once. -/
theorem execDbgHalt_paused {q : Session} {row : ObjRow} (h : (s.cell c).dbg.haltReq = false) (hs : s.servedBy o q)
    (hw : s.writeGives q 0x9000 c.val (0x9000 + 16 * c.val) 6 1 row 0) (hp : (s.cell c).ctl.st = .paused) :
    ∃ u : State, u.cell c = s.cell c ∧
      execDbgHalt c o s = .next ((u.haltCell c 1).modMc fun m => { m with result := 0, value := [] }) := by
  obtain ⟨u, hu, e⟩ := dictPut_accepted hs hw
  obtain ⟨_, _, hv, _⟩ := hw
  have hcell : (u.objPut (0x9000 + 16 * c.val) 6 0 1).cell c = s.cell c := congrArg (·.get c) hu
  refine ⟨_, hcell, ?_⟩
  rw [execDbgHalt, if_neg (by simp [h]), e]
  dsimp only
  rw [State.writeEffect_dbgCmd, ofBytes_toBytes _ hv]
  generalize u.objPut (0x9000 + 16 * c.val) 6 0 1 = w at hcell
  have hcmd : w.dbgCmd c 1 = w.haltCell c 1 := by simp [State.dbgCmd, State.askHalt, hcell, hp]
  rw [hcmd]
  obtain ⟨_, _, _, _, hr, _⟩ := w.haltCell_cell c 1
  exact congrArg Host.Outcome.next (State.takeHalt_none hr)

/-- The watchdog's top-up and the credit's new start leave the rest of a cell that runs on (R105, R467). -/
theorem Cell.dbgResume_keeps (x : Cell) (pix : Nat) :
    let y := x.dbgResume pix
    y.ctl.st = x.ctl.prior ∧ y.ctl.cmds = x.ctl.cmds ∧ y.dbg.haltCause = 0 ∧ y.core = x.core ∧ y.mem = x.mem := by
  have top (y : Cell) : ∃ w, y.wdTopUp = { y with wd := w } := by
    unfold Cell.wdTopUp
    extract_lets least
    split
    · exact ⟨_, rfl⟩
    · exact ⟨y.wd, rfl⟩
  intro y
  simp only [y]
  unfold Cell.dbgResume
  extract_lets prior _ _ y₀ y₁
  have h₁ : ∃ w, y₁ = { y₀ with wd := w } := by
    simp only [y₁]
    split
    · exact top y₀
    · exact ⟨y₀.wd, rfl⟩
  obtain ⟨w, e⟩ := h₁
  rw [e]
  split <;> exact ⟨rfl, rfl, rfl, rfl, rfl⟩

theorem execDbgResume_takes {pix : Nat} (hc : (s.cell c).ctl.cmds = .dbgResume :: r) (hh : (s.cell c).ctl.st = .halted) :
    execDbgResume c o pix s = .next ((s.dequeued c r).modCell c fun x => x.dbgResume pix) := by
  have hf : (s.cell c).cmdFirst .dbgResume = true := by simp [Cell.cmdFirst, hc]
  rw [execDbgResume, if_pos hf]
  exact State.takeCmd_takes hc (if_pos (by simp [hh]))

/-- NOP at PC. -/
theorem Cell.decodePc_nop {x : Cell} (h : x.iRead x.core.pc = .ok 0) :
    x.decodePc = .instr ⟨1, 1, 1, fun _ s => .seq s⟩ := by
  simp only [Cell.decodePc, h]
  rfl

/-- A HALTED cell that a step has released: it runs, and passes the break patch that halted it. -/
def Cell.released (x : Cell) : Cell :=
  { x with
    ctl := { x.ctl with st := .running }
    dbg := { x.dbg with skipBreak := decide (0x10 ≤ x.dbg.haltCause.toNat) } }

/-- The state after a step that runs a NOP outside a loop. -/
def State.stepped (s : State) (c : CellNo) : State :=
  (s.setCell c ((s.cell c).released.complete 1 ((s.cell c).core.pc + 1) [])).haltAgain c .running (s.cell c).pace 2

/-- A step on a NOP completes it and halts the cell again. -/
theorem State.stepCell_nop (hp : (s.cell c).ctl.prior = .running) (hb : (s.cell c).released.breakDue = none)
    (he : (s.cell c).dbg.ctl.getLsbD 1 = false) (hi : (s.cell c).iRead (s.cell c).core.pc = .ok 0) (hl : (s.cell c).core.loops = []) :
    s.stepCell c = .next (s.stepped c) := by
  have hd : (s.cell c).released.decodePc = .instr ⟨1, 1, 1, fun _ s => .seq s⟩ := Cell.decodePc_nop hi
  have hbody : (s.setCell c (s.cell c).released).stepBody c =
      .next (s.setCell c ((s.cell c).released.complete 1 ((s.cell c).core.pc + 1) [])) := by
    have he' : (s.cell c).released.dbg.ctl.getLsbD 1 = false := he
    have hl' : (s.cell c).released.core.loops = [] := hl
    simp only [State.stepBody, State.setCell_cell_self, he', hd, State.runBody, State.finishSeq, hl', loopBack_nil,
      State.modCell_eq, State.setCell_setCell]
    rfl
  have hst : ((s.cell c).released.complete 1 ((s.cell c).core.pc + 1) []).ctl.st = .running := by
    simp [Cell.complete, Cell.released]
  have step : s.stepCell c = stepEnd c (s.cell c).ctl.prior (s.cell c).pace ((s.setCell c (s.cell c).released).stepBody c) := by
    unfold State.stepCell
    have awake : ((s.cell c).ctl.prior == .sleep) = false := by rw [hp]; rfl
    simp only [awake, Bool.false_and, Bool.false_eq_true, if_false]
    split
    case h_1 k hk => exact absurd (hk.symm.trans hb) (by simp)
    case h_2 => rfl
  rw [step, hbody, hp]
  simp only [stepEnd, State.setCell_cell_self, hst]
  rfl

theorem execDbgStep_takes (hc : (s.cell c).ctl.cmds = .step :: r) (hh : (s.cell c).ctl.st = .halted)
    (hr : s.stepReady c = true) : execDbgStep c o s = (s.dequeued c r).stepCell c := by
  have hf : (s.cell c).cmdFirst .step = true := by simp [Cell.cmdFirst, hc]
  rw [execDbgStep, if_pos hf]
  simp [State.takeStep, hc, hh, hr, State.dequeued]

/-- A cell that a step halts again (R466). -/
theorem State.haltAgain_cell (s : State) (c : CellNo) (prior : CState) (pace : Pace) (cause : Byte) :
    let x := s.cell c
    let y := (s.haltAgain c prior pace cause).cell c
    y.ctl.st = .halted ∧ y.ctl.cmds = x.ctl.cmds ∧ y.dbg.haltCause = cause ∧ y.pace = { pace with avail := 0 } ∧
      y.core = x.core.land ∧ y.mem = x.mem := by
  simp [State.haltAgain]

@[simp] theorem Cell.complete_cmds (x : Cell) (n : Nat) (pc : Half) (l : List LoopEnt) : (x.complete n pc l).ctl.cmds = x.ctl.cmds := by
  obtain ⟨_, _, _, e⟩ := Cell.counted_eq { x with
    core := { x.core.age n with pc := pc, loops := l, entered := false }, dbg := { x.dbg with skipBreak := false } }
  rw [Cell.complete, e]

/-- A product that lands changes MH and ML alone. -/
theorem Core.land_keeps (k : Core) : k.land.b = k.b ∧ k.land.pc = k.pc ∧ k.land.f = k.f := by
  unfold Core.land
  split <;> exact ⟨rfl, rfl, rfl⟩

/-- Such a step moves PC on and takes no credit. -/
theorem State.stepped_cell (s : State) (c : CellNo) :
    let x := s.cell c
    let y := (s.stepped c).cell c
    y.ctl.st = .halted ∧ y.ctl.cmds = x.ctl.cmds ∧ y.dbg.haltCause = 2 ∧ y.core.pc = x.core.pc + 1 ∧ y.core.b = x.core.b ∧
      y.core.f = x.core.f ∧ y.mem = x.mem ∧ y.pace = { x.pace with avail := 0 } := by
  obtain ⟨hst, hcmds, hcause, hpace, hcore, hmem⟩ := State.haltAgain_cell
    (s.setCell c ((s.cell c).released.complete 1 ((s.cell c).core.pc + 1) [])) c .running (s.cell c).pace 2
  simp only [State.setCell_cell_self, Cell.complete_core, Cell.complete_mem, Cell.complete_cmds] at hcmds hcore hmem
  obtain ⟨hb, hpc, hf⟩ := Core.land_keeps
    { (s.cell c).released.core.age 1 with pc := (s.cell c).core.pc + 1, loops := [], entered := false }
  rw [← hcore] at hb hpc hf
  exact ⟨hst, hcmds, hcause, hpc, hb.trans (Core.age_b ..), hf.trans (Core.age_f ..), hmem, hpace⟩

end Debugger

/-! ## The TAP (R479) -/

section Tap

/-- Five clocks with TMS high reach Test-Logic-Reset from every state. -/
theorem tapNext_five (n : Nat) : tapNext (tapNext (tapNext (tapNext (tapNext n true) true) true) true) true = 0 := by
  by_cases h : n < 16
  case pos => revert n; decide
  case neg =>
    have e : tapNext n true = 2 := by
      obtain ⟨m, rfl⟩ := Nat.exists_eq_add_of_le (Nat.not_lt.mp h)
      rw [Nat.add_comm]
      rfl
    rw [e]
    rfl

variable {s : State} (tms tdi rising : Bool) (ir : TapInstr)

theorem execTapClockEdge_reset (h : s.pwr.mode ≠ .off) :
    execTapClockEdge false rising tms tdi ir s = .next { s with tap := { st := 0, ir := .idcode } } := by
  simp [execTapClockEdge, h]

/-- What the selected register holds after a rising edge (R479). -/
def State.tapShifted (s : State) (tdi : Bool) : List Bool :=
  if s.tap.st = 3 then s.tapCapture
  else if s.tap.st = 4 || s.tap.st == 11 then shiftIn s.tap.shift tdi
  else if s.tap.st = 10 then [true, false]
  else s.tap.shift

theorem State.tapShifted_shifts (h : s.tap.st = 4 ∨ s.tap.st = 11) : s.tapShifted tdi = s.tap.shift.tail ++ [tdi] := by
  rcases h with h | h <;> simp [State.tapShifted, h, shiftIn]

theorem execTapClockEdge_rising (h : s.pwr.mode ≠ .off) :
    execTapClockEdge true true tms tdi ir s = .next { s with tap := { s.tap with
      st := tapNext s.tap.st tms, shift := s.tapShifted tdi, ir := if tapNext s.tap.st tms = 0 then .idcode else s.tap.ir } } :=
  if_neg h

theorem execTapClockEdge_falling (h : s.pwr.mode ≠ .off) :
    execTapClockEdge true false tms tdi ir s = .next { s with tap := { s.tap with
      tdo := if s.tap.st = 4 || s.tap.st == 11 then s.tap.shift.headD false else s.tap.tdo
      ir := if s.tap.st = 15 then ir else s.tap.ir } } :=
  if_neg h

end Tap

/-- Settles O42: a HALT, a STEP of a NOP and the debugger's RESUME as operations of the cell, and the edges of TCK. -/
theorem debugRunAndTap : Obligations.DebugRunAndTap := by
  refine ⟨fun s o q c row r pix => ⟨fun hq hr hd he => ?_, fun hq hs hw hp => ?_, fun hc hh hr hp hb he hi hl => ?_, fun hc hh => ?_⟩,
    fun s tms tdi rising ir hm => ⟨?_, ?_, ?_, tapNext_five _⟩⟩
  · obtain ⟨hst, hprior, _, hcause, hreq, hav, hcore, hmem⟩ := s.haltCell_cell c 1
    obtain ⟨hb, hpc, _⟩ := (s.cell c).core.land_keeps
    refine ⟨_, execDbgHalt_takes hq hr hd he, hst, hprior.trans hr, hcause, hreq, hav, ?_, ?_, hmem⟩
    · rw [State.core, hcore, hb]
    · rw [State.core, hcore, hpc]
  · obtain ⟨u, hu, e⟩ := execDbgHalt_paused hq hs hw hp
    obtain ⟨hst, hprior, hpp, _, _, _, hcore, _⟩ := u.haltCell_cell c 1
    rw [hu] at hprior hpp hcore
    obtain ⟨hb, hpc, _⟩ := (s.cell c).core.land_keeps
    refine ⟨_, e, rfl, hst, hprior.trans hp, hpp.trans (if_pos (by simp [hp])), ?_, ?_⟩
    · exact (congrArg Core.b hcore).trans hb
    · exact (congrArg Core.pc hcore).trans hpc
  · have e := execDbgStep_takes (o := o) hc hh hr
    rw [State.stepCell_nop (by simpa using hp) (by rw [State.dequeued_cell]; exact hb) (by simpa using he)
      (by rw [State.dequeued_cell]; exact hi) (by simpa using hl)] at e
    have done := (s.dequeued c r).stepped_cell c
    rw [State.dequeued_cell] at done
    exact ⟨_, e, done⟩
  · obtain ⟨hst, hcmds, hcause, hcore, hmem⟩ := Cell.dbgResume_keeps { s.cell c with ctl := { (s.cell c).ctl with cmds := r } } pix
    refine ⟨_, execDbgResume_takes hc hh, ?_⟩
    simp only [State.modCell_eq, State.dequeued_cell, State.dequeued_setCell, State.core, State.setCell_cell_self]
    exact ⟨State.onlyCell_setCell .., hst, hcmds, hcause, hcore, hmem⟩
  · exact ⟨_, execTapClockEdge_reset tms tdi rising ir hm, rfl, rfl⟩
  · exact ⟨_, execTapClockEdge_rising tms tdi ir hm, rfl, s.tapShifted_shifts tdi, fun h => if_neg h⟩
  · exact ⟨_, execTapClockEdge_falling tms tdi ir hm, rfl, rfl, fun h => if_pos h, fun h => if_pos (by simp [h])⟩

end Sys2Proof.Machine
end

section
/-! PROOFS for spec/24_power.md: from OFF to READY (O43). -/

namespace Sys2Proof.Machine

/-! ## What a change of power domains leaves of the house beam and the power registers (R489 to R493) -/

/-- The house beam, and the power registers but for the domains' own states and the hold of the pads. -/
def State.beamAndPower (s : State) : HouseBeam × Pwr :=
  (s.house, { s.pwr with doms := Vector.replicate 63 {}, padHeld := false })

/-- States that agree in it have one house beam, and differ in their power registers at most in the domains and the pads. -/
theorem State.pwr_of_beamAndPower {s t : State} (h : s.beamAndPower = t.beamAndPower) :
    s.house = t.house ∧ s.pwr = { t.pwr with doms := s.pwr.doms, padHeld := s.pwr.padHeld } := by
  obtain ⟨hh, hp⟩ := Prod.mk.inj h
  refine ⟨hh, ?_⟩
  calc s.pwr
    _ = { ({ s.pwr with doms := Vector.replicate 63 {}, padHeld := false } : Pwr) with
          doms := s.pwr.doms, padHeld := s.pwr.padHeld } := rfl
    _ = _ := by rw [hp]

section DomainsUp

variable (s : State)

@[simp] theorem State.raise_beamAndPower (code unit : Nat) (b : Bool) (arg : Nat) (p : List Long) :
    (s.raise code unit b arg p).beamAndPower = s.beamAndPower := by
  simp [State.beamAndPower]

@[simp] theorem State.raiseEvent_beamAndPower (code unit : Nat) (b : Bool) (arg : Nat) :
    (s.raiseEvent code unit b arg).beamAndPower = s.beamAndPower := by
  simp [State.beamAndPower]

@[simp] theorem State.setDom_beamAndPower (d : Nat) (st : Byte) : (s.setDom d st).beamAndPower = s.beamAndPower := by
  unfold State.setDom
  split
  · rfl
  · exact (s.modDom d fun k => { k with st := st }).raise_beamAndPower ..

@[simp] theorem State.setLink_beamAndPower (l : Fin 7) (st : Byte) (f : Link → Link) :
    (s.setLink l st f).beamAndPower = s.beamAndPower := by
  unfold State.setLink
  extract_lets old t
  split
  · rfl
  · exact t.raiseEvent_beamAndPower ..

@[simp] theorem State.setHeadLink_beamAndPower (h : Fin 4) (st : Byte) (lanes rate : Nat) :
    (s.setHeadLink h st lanes rate).beamAndPower = s.beamAndPower := by
  unfold State.setHeadLink
  extract_lets k n t
  split
  · rfl
  · exact t.raise_beamAndPower ..

theorem State.headUpTrain_beamAndPower (h : Fin 4) : (s.headUpTrain h).beamAndPower = s.beamAndPower := by
  unfold State.headUpTrain
  split
  · unfold State.trainHead
    repeat' split
    all_goals exact State.setHeadLink_beamAndPower ..
  · rfl

@[simp] theorem State.abandonMigration_beamAndPower (c : CellNo) : (s.abandonMigration c).beamAndPower = s.beamAndPower := by
  unfold State.abandonMigration State.migLost
  split
  · rfl
  · dsimp only
    split
    · rfl
    · exact State.raiseEvent_beamAndPower ..

theorem State.cutMigrations_beamAndPower : s.cutMigrations.beamAndPower = s.beamAndPower := by
  unfold State.cutMigrations
  refine foldl_keeps State.beamAndPower (fun u c => ?_) allCells s
  dsimp only
  split
  · exact u.abandonMigration_beamAndPower c
  · rfl

variable {s}

/-- A change of links takes the house beam out of LOCKED alone (R384). -/
theorem State.linksChanged_beamAndPower (h : s.house.lock ≠ .locked) : s.linksChanged.beamAndPower = s.beamAndPower := by
  unfold State.linksChanged
  extract_lets now lost t u v
  have hu : u.beamAndPower = s.beamAndPower := foldl_keeps State.beamAndPower (fun w d => by split <;> simp) _ t
  have hv : v.beamAndPower = s.beamAndPower := u.cutMigrations_beamAndPower.trans hu
  have hl : v.house.lock ≠ .locked := by rwa [(State.pwr_of_beamAndPower hv).1]
  split
  case isTrue hc =>
    simp only [Bool.and_eq_true, beq_iff_eq] at hc
    exact absurd hc.1.2 hl
  case isFalse => exact hv

theorem State.domLost_beamAndPower (h : s.house.lock ≠ .locked) (d : Nat) : (s.domLost d).beamAndPower = s.beamAndPower := by
  have hlink (l : Fin 7) : ((s.setLink l lkDown Link.fresh).linksChanged).beamAndPower = s.beamAndPower := by
    have e := s.setLink_beamAndPower l lkDown Link.fresh
    refine (State.linksChanged_beamAndPower ?_).trans e
    rwa [(State.pwr_of_beamAndPower e).1]
  unfold State.domLost
  repeat' split
  · rfl
  · rfl
  · rfl
  · rfl
  · exact hlink _
  · rfl
  · rfl

theorem State.domOff_beamAndPower (h : s.house.lock ≠ .locked) (d : Nat) : (s.domOff d).beamAndPower = s.beamAndPower := by
  unfold State.domOff
  split
  · rfl
  · exact (State.setDom_beamAndPower ..).trans (State.domLost_beamAndPower h d)

theorem State.domUp_beamAndPower (s : State) (d : Nat) : (s.domUp d).beamAndPower = s.beamAndPower := by
  unfold State.domUp
  dsimp only
  repeat' split
  · rfl
  · rfl
  · rfl
  · exact State.headUpTrain_beamAndPower ..
  · exact State.setLink_beamAndPower ..
  · rfl
  · rfl
  · rfl

theorem State.powerDom_beamAndPower (s : State) (d : Nat) : (s.powerDom d).beamAndPower = s.beamAndPower := by
  unfold State.powerDom State.domOnNow
  split
  · rfl
  · rw [State.domUp_beamAndPower, State.setDom_beamAndPower, State.setDom_beamAndPower]

theorem State.setDoms_beamAndPower (h : s.house.lock ≠ .locked) (l : List Nat) : (s.setDoms l).beamAndPower = s.beamAndPower := by
  refine List.foldlRecOn (motive := fun u : State => u.beamAndPower = s.beamAndPower) _ _ rfl fun u hu d _ => ?_
  have hl : u.house.lock ≠ .locked := by rwa [(State.pwr_of_beamAndPower hu).1]
  split
  · exact (u.powerDom_beamAndPower d).trans hu
  · exact (State.domOff_beamAndPower hl d).trans hu

theorem State.startLinks_beamAndPower (s : State) : s.startLinks.beamAndPower = s.beamAndPower :=
  foldl_keeps State.beamAndPower
    (f := fun s l => if s.linkOn l && s.lkEn l && (s.swarmLink l).signal && (s.swarmLink l).state == lkDown then s.startTrain l else s)
    (fun u l => by split; exacts [State.setLink_beamAndPower .., rfl]) allLinks s

/-- A change of mode changes the mode alone. -/
theorem State.setMode_beamAndPower (s : State) (m : Mode) :
    (s.setMode m).beamAndPower = (s.modPwr fun p => { p with mode := m }).beamAndPower := by
  unfold State.setMode
  extract_lets old t arg
  split
  next h => subst h; rfl
  next =>
    split
    · exact State.raiseEvent_beamAndPower ..
    · rfl

end DomainsUp

/-! ## HOLD and SENSE (R484, R497) -/

section Rails

variable {s : State}

theorem State.setDom_dom (d : Fin 63) (st : Byte) (e : Nat) :
    ((s.setDom d st).dom e).st = if e = d.val then st else (s.dom e).st := by
  have hd := d.isLt
  unfold State.setDom
  split
  case isTrue h =>
    split
    case isTrue he => rw [he, h]
    case isFalse => rfl
  case isFalse =>
    simp only [State.dom, State.raise_pwr, State.modDom_eq, State.modPwr_pwr, Vector.getElem?_setIfInBounds]
    by_cases he : e = d.val
    · simp [he]
    · simp [he, Ne.symm he]

/-- Good rails lead to SENSE, with the straps read once in a power cycle (R372). -/
def State.sensed (s : State) (id : BitVec 3) (boot : BitVec 2) : State :=
  ((s.modPwr fun p => { p with id := if p.idIn then p.id else id, idIn := true, bootSrc := boot.setWidth 8 }).setMode .sense).setDom 49 2

theorem State.sensed_pwr (id : BitVec 3) (boot : BitVec 2) :
    (s.sensed id boot).pwr = { s.pwr with
      id := if s.pwr.idIn then s.pwr.id else id, idIn := true, bootSrc := boot.setWidth 8, mode := .sense
      doms := (s.sensed id boot).pwr.doms, padHeld := (s.sensed id boot).pwr.padHeld } :=
  (State.pwr_of_beamAndPower ((State.setDom_beamAndPower ..).trans (State.setMode_beamAndPower ..))).2

theorem execRailsGood_hold (h : s.pwr.mode = .hold) (id : BitVec 3) (boot : BitVec 2) :
    execRailsGood id boot s = .next (if (s.sensed id boot).pwr.trips = 0 then s.sensed id boot else (s.sensed id boot).faultHold 6) := by
  rw [execRailsGood, if_pos h]
  rfl

/-- Of the power registers FAULT-HOLD changes its own (R504). -/
theorem State.faultHold_power (hoff : s.pwr.mode ≠ .off) (hhold : s.pwr.mode ≠ .hold) (hf : s.pwr.mode ≠ .faultHold) (cause : Byte) :
    (s.faultHold cause).pwr.mode = .faultHold ∧ (s.faultHold cause).pwr.fhCause = cause ∧ (s.faultHold cause).pwr.id = s.pwr.id ∧
      (s.faultHold cause).pwr.idIn = s.pwr.idIn := by
  have e := congrArg Prod.fst (State.faultHold_besidesDoms hoff hhold hf cause)
  have hid : (s.faultHold cause).besidesDoms.1.id = (s.pwr.heldFor cause).id := by rw [e]
  have hin : (s.faultHold cause).besidesDoms.1.idIn = (s.pwr.heldFor cause).idIn := by rw [e]
  exact ⟨congrArg Pwr.mode e, congrArg Pwr.fhCause e, hid, hin⟩

end Rails

/-! ## LOAD (R483, R497 to R502) -/

section Load

variable {s : State}

/-- Every domain of a list that the part has is switched on. -/
def State.powerList (s : State) (l : List Nat) : State := l.foldl (fun s d => if s.domPresent d then s.setDom d 2 else s) s

theorem State.setDom_part (s : State) (d : Nat) (st : Byte) : (s.setDom d st).part = s.part := by
  unfold State.setDom
  split
  · rfl
  · exact State.raise_part ..

theorem State.powerList_beamAndPower (s : State) (l : List Nat) : (s.powerList l).beamAndPower = s.beamAndPower :=
  foldl_keeps State.beamAndPower (f := fun s d => if s.domPresent d then s.setDom d 2 else s)
    (fun u d => by split; exacts [u.setDom_beamAndPower d 2, rfl]) l s

/-- A domain of the list, or one that is on before, is on. -/
theorem State.powerList_dom {d : Fin 63} (hp : s.domPresent d.val = true) (l : List Nat) (h : d.val ∈ l ∨ (s.dom d.val).st = 2) :
    ((s.powerList l).dom d.val).st = 2 := by
  induction l generalizing s with
  | nil => exact h.resolve_left (by simp)
  | cons e r ih =>
    show (((if s.domPresent e then s.setDom e 2 else s).powerList r).dom d.val).st = 2
    split
    case isTrue he =>
      have he' : e < 63 := by
        simp only [State.domPresent, Bool.and_eq_true, decide_eq_true_eq] at he
        exact he.2
      have hs := s.setDom_dom ⟨e, he'⟩ 2 d.val
      refine ih (by rw [State.domPresent, State.setDom_part]; exact hp) ?_
      by_cases hd : d.val = e
      · exact .inr (hs.trans (if_pos hd))
      · rw [show ((s.setDom e 2).dom d.val).st = (s.dom d.val).st from hs.trans (if_neg hd)]
        simpa [hd] using h
    case isFalse he =>
      refine ih hp (h.imp_left fun hd => ?_)
      rcases List.mem_cons.mp hd with rfl | hd
      · exact absurd hp he
      · exact hd

theorem State.setMode_part (s : State) (m : Mode) : (s.setMode m).part = s.part := by
  unfold State.setMode
  extract_lets old t arg
  split
  · rfl
  · split
    · exact State.raiseEvent_part ..
    · rfl

/-- The power registers after a change of mode. -/
theorem State.setMode_pwr (s : State) (m : Mode) :
    (s.setMode m).pwr = { s.pwr with mode := m, doms := (s.setMode m).pwr.doms, padHeld := (s.setMode m).pwr.padHeld } :=
  (State.pwr_of_beamAndPower (s.setMode_beamAndPower m)).2

/-- LOAD is entered with the fuses kept and every domain of the part on (R483, R497). -/
theorem State.enterLoad_power (f : FuseData) (hb : s.pwr.bootSrc ≠ 3) :
    (s.enterLoad f).pwr.mode = .load ∧ (s.enterLoad f).pwr.fuses = some f ∧
      ∀ d, s.domPresent d = true → (s.enterLoad f).domOn d = true := by
  unfold State.enterLoad
  extract_lets t u node v
  have ht : t.pwr = { s.pwr with fuses := some f, mode := .load, doms := t.pwr.doms, padHeld := t.pwr.padHeld } :=
    State.setMode_pwr ..
  have hpart : t.part = s.part := State.setMode_part ..
  obtain ⟨_, hu⟩ := State.pwr_of_beamAndPower (t.powerList_beamAndPower (List.range 63))
  have hlist : u = t.powerList (List.range 63) := rfl
  have hput : v.pwr = u.pwr := by simp only [v, State.objPut_pwr]
  have hv : v.pwr = (t.powerList (List.range 63)).pwr := hput.trans (congrArg State.pwr hlist)
  clear_value t u
  have hsrc : v.pwr.bootSrc = s.pwr.bootSrc := by rw [hv, hu, ht]
  rw [if_neg (by rwa [hsrc])]
  refine ⟨by rw [hv, hu, ht], by rw [hv, hu, ht], fun d hd => ?_⟩
  have hd' : d < 63 := by
    simp only [State.domPresent, Bool.and_eq_true, decide_eq_true_eq] at hd
    exact hd.2
  have hon := State.powerList_dom (s := t) (d := ⟨d, hd'⟩) (by rw [State.domPresent, hpart]; exact hd) (List.range 63)
    (.inl (List.mem_range.mpr hd'))
  simp only [State.domOn, hv]
  simpa [State.dom] using hon

end Load

/-! ## Boot images (R498 to R502) -/

section Boot

variable {s : State}

/-- A boot image is read from the flash throughout LOAD, and from the host after GO. -/
theorem State.bootReading_of (h : s.pwr.mode = .load) (hb : s.pwr.bootSrc ≠ 0 ∨ s.pwr.boot.busy = true) : s.bootReading = true := by
  simpa [State.bootReading, h] using hb

theorem execBootImageDone_reads (h : s.bootReading = true) (r : BootRead) : execBootImageDone r s = .next (s.bootRead r) := by
  rw [execBootImageDone, if_pos h]

/-- An error of the host's image ends the boot window with its code (R502). -/
theorem State.bootRead_hostError {r : BootRead} (hb : s.pwr.bootSrc = 0)
    (he : imgError (r.primary.map (·.take s.pwr.boot.len.toNat)) ≠ 0) :
    s.bootRead r = s.modPwr fun p => { p with boot := { p.boot with
      busy := false, done := true, err := true, code := imgError (r.primary.map (·.take s.pwr.boot.len.toNat)) } } := by
  simp only [State.bootRead, hb, if_true, he, if_false]

/-- An error of the flash image without an alternate leads to FAULT-HOLD (R500). -/
theorem State.bootRead_flashError {r : BootRead} (hb : s.pwr.bootSrc ≠ 0) (he : imgError r.primary ≠ 0) (ha : r.alternate = none) :
    s.bootRead r = s.faultHold 2 := by
  simp only [State.bootRead, hb, if_false, he, ha]

theorem State.bootRead_flash {r : BootRead} {img : List Byte} (hb : s.pwr.bootSrc ≠ 0) (hi : r.primary = some img)
    (he : imgError (some img) = 0) : s.bootRead r = s.acceptImage 0 r.spiMode.val r.us img := by
  simp only [State.bootRead, hb, if_false, hi, he, if_true, Option.getD_some]

theorem State.loadExt_keeps (s : State) (l : List CsSect) : (s.loadExt l).pwr = s.pwr ∧ (s.loadExt l).objs = s.objs := by
  unfold State.loadExt
  split
  · exact ⟨rfl, rfl⟩
  · split <;> exact ⟨rfl, rfl⟩
  · exact ⟨rfl, rfl⟩

theorem State.setMode_objs (s : State) (m : Mode) : (s.setMode m).objs = s.objs := by
  unfold State.setMode
  extract_lets old t arg
  split
  · rfl
  · split
    · exact State.raiseEvent_objs ..
    · rfl

/-- An accepted image without defaults leads to TRAIN, and sets no object (R500, R501). -/
theorem State.acceptImage_noDefaults {l : List Byte} (h : ((bootTable l).filter fun e => e.2.2 == 2) = []) (image : Byte) (mode us : Nat) :
    (s.acceptImage image mode us l).pwr.mode = .train ∧ (s.acceptImage image mode us l).pwr.bootImage = image ∧
      (s.acceptImage image mode us l).pwr.spiMode = BitVec.ofNat 8 mode ∧
      (s.acceptImage image mode us l).pwr.loadUs = BitVec.ofNat 32 us ∧ (s.acceptImage image mode us l).objs = s.objs := by
  unfold State.acceptImage
  extract_lets cs base t u v
  obtain ⟨_, ho⟩ := State.loadExt_keeps { s with stores := { baseVer := base } } cs
  have hu : u = t := by simp only [u, h, List.foldl_nil]
  have hv : (v.setMode .train).pwr = { v.pwr with
      mode := .train, doms := (v.setMode .train).pwr.doms, padHeld := (v.setMode .train).pwr.padHeld } := v.setMode_pwr .train
  refine ⟨congrArg Pwr.mode hv, ?_, ?_, ?_, ?_⟩
  · exact (congrArg Pwr.bootImage hv : _)
  · exact (congrArg Pwr.spiMode hv : _)
  · exact (congrArg Pwr.loadUs hv : _)
  · show (v.setMode .train).objs = s.objs
    rw [State.setMode_objs]
    show u.objs = s.objs
    rw [hu]
    exact ho

end Boot

/-! ## TRAIN (R503, R514) -/

section Train

variable {s : State}

@[simp] theorem State.chanFail_beamAndPower (s : State) (c : Fin 8) (code us : Nat) :
    (s.chanFail c code us).beamAndPower = s.beamAndPower := by
  unfold State.chanFail
  extract_lets t u
  have hu : u.beamAndPower = s.beamAndPower := t.raise_beamAndPower ..
  exact (State.setDom_beamAndPower ..).trans hu

theorem State.chanTrained_beamAndPower (s : State) (c : Fin 8) (r : ChanTrain) : (s.chanTrained c r).beamAndPower = s.beamAndPower := by
  unfold State.chanTrained
  repeat' split
  · exact s.chanFail_beamAndPower ..
  · rfl
  · rfl
  · exact s.chanFail_beamAndPower ..
  · exact s.chanFail_beamAndPower ..
  · rfl

theorem State.setPte_beamAndPower (s : State) (i : Nat) (e : Long) : (s.setPte i e).beamAndPower = s.beamAndPower := rfl

/-- The training of the channels changes the memory, the domains of the channels and their objects. -/
theorem State.trainAll_beamAndPower (s : State) (l : List ChanTrain) : (s.trainAll l).beamAndPower = s.beamAndPower := by
  unfold State.trainAll
  extract_lets m t u n
  have ht : t.beamAndPower = s.beamAndPower := rfl
  have hu : u.beamAndPower = t.beamAndPower := foldl_keeps State.beamAndPower (fun v c => v.chanTrained_beamAndPower c _) _ t
  exact hu.trans ht

theorem State.clearArea_beamAndPower (s : State) : s.clearArea.beamAndPower = s.beamAndPower := by
  unfold State.clearArea
  split
  · rfl
  · exact foldl_keeps State.beamAndPower (fun u _ => u.setPte_beamAndPower _ _) _ s

theorem State.formArea_beamAndPower (s : State) (area : List (BitVec 17)) : (s.formArea area).beamAndPower = s.beamAndPower := by
  unfold State.formArea
  exact foldl_keeps State.beamAndPower (fun u _ => u.setPte_beamAndPower _ _) _ s

/-- The state whose channels have trained with the results `ch`, those of channels that are off aside (R503). -/
def State.trained (s : State) (ch : List ChanTrain) : State :=
  s.clearArea.trainAll ((List.range 8).map fun k => if s.domOn (41 + k) then ch.getD k .unpowered else .unpowered)

theorem State.trained_beamAndPower (s : State) (ch : List ChanTrain) : (s.trained ch).beamAndPower = s.beamAndPower :=
  (State.trainAll_beamAndPower ..).trans s.clearArea_beamAndPower

/-- TRAIN without a trained channel leads to FAULT-HOLD (R503). -/
theorem State.trainEnd_fault {ch : List ChanTrain} (ht : (s.trained ch).trainedChans = []) (area : List (BitVec 17)) :
    s.trainEnd ch area = some ((s.trained ch).faultHold 5) := by
  unfold State.trainEnd
  exact if_pos (by rw [List.isEmpty_iff]; exact ht)

theorem State.startBeam_free (s : State) :
    s.startBeam.house.lock = .free ∧ s.startBeam.house.freqOfs = 0 ∧ s.startBeam.pwr = s.pwr := ⟨rfl, rfl, rfl⟩

/-- The house beam starts, and the domains and links of READY come on (R503). -/
def State.unitsUp (s : State) : State :=
  let u := s.startBeam
  (u.setDoms u.wantedDoms).startLinks

theorem State.unitsUp_free (s : State) : s.unitsUp.house.lock = .free ∧ s.unitsUp.house.freqOfs = 0 ∧
    s.unitsUp.pwr.woken = s.pwr.woken ∧ s.unitsUp.pwr.held = s.pwr.held := by
  obtain ⟨hlock, hofs, hp⟩ := s.startBeam_free
  unfold State.unitsUp
  generalize s.startBeam = u at *
  have hv : (u.setDoms u.wantedDoms).startLinks.beamAndPower = u.beamAndPower :=
    (State.startLinks_beamAndPower _).trans (State.setDoms_beamAndPower (by rw [hlock]; decide) _)
  obtain ⟨hh, hq⟩ := State.pwr_of_beamAndPower hv
  dsimp only
  rw [hh, hq, ← hp]
  exact ⟨hlock, hofs, rfl, rfl⟩

/-- The device as TRAIN ends (R503). -/
def State.readied (s : State) : State :=
  let u := (s.unitsUp.modPwr fun p => { p with woken := false }).setMode .ready
  if u.domOn 61 then u.releasePads else u

/-- It is in READY, with the house beam FREE. -/
theorem State.readied_free (s : State) : s.readied.house.lock = .free ∧ s.readied.house.freqOfs = 0 ∧
    s.readied.pwr.mode = .ready ∧ s.readied.pwr.held = s.pwr.held := by
  obtain ⟨hlock, hofs, _, hheld⟩ := s.unitsUp_free
  unfold State.readied
  generalize s.unitsUp = v at *
  extract_lets u
  obtain ⟨hh, hp⟩ := State.pwr_of_beamAndPower ((v.modPwr fun p => { p with woken := false }).setMode_beamAndPower .ready)
  have hu : u.house.lock = .free ∧ u.house.freqOfs = 0 ∧ u.pwr.mode = .ready ∧ u.pwr.held = s.pwr.held := by
    rw [hh, hp]
    exact ⟨hlock, hofs, rfl, hheld⟩
  clear_value u
  split <;> exact hu

/-- TRAIN ends in READY, where no wake event began it (R503). -/
theorem State.trainEnd_ready {ch : List ChanTrain} {area : List (BitVec 17)} (ht : (s.trained ch).trainedChans ≠ [])
    (ha : (s.trained ch).areaOk area = true) (hf : area.all (s.trained ch).frameFree = true) (hw : s.pwr.woken = false) :
    s.trainEnd ch area = some ((s.trained ch).formArea area).readied := by
  have hne : ¬ (s.trained ch).trainedChans.isEmpty = true := by simpa using ht
  have hok : ¬ (!(s.trained ch).areaOk area || !area.all (s.trained ch).frameFree) = true := by simp [ha, hf]
  have hwoken : ((s.trained ch).formArea area).unitsUp.pwr.woken = false := by
    obtain ⟨_, _, hu, _⟩ := ((s.trained ch).formArea area).unitsUp_free
    obtain ⟨_, hp⟩ := State.pwr_of_beamAndPower (((s.trained ch).formArea_beamAndPower area).trans (s.trained_beamAndPower ch))
    rw [hu, hp]
    exact hw
  refine (if_neg hne).trans ((if_neg hok).trans (congrArg some (if_neg ?_)))
  show ¬ (((s.trained ch).formArea area).unitsUp.pwr.woken && _) = true
  rw [hwoken]
  simp

/-- With no record held back nothing is written on the entry to READY (R501). -/
theorem State.applyHeld_none (h : s.pwr.held = []) : s.applyHeld = s.modPwr fun p => { p with held := [] } := by
  simp [State.applyHeld, h]

end Train

/-- VDD_AON brings every register to its power-on value (R484). -/
theorem State.aonUp_off {s : State} (h : s.pwr.mode = .off) : s.aonUp = s.board (State.powerUp s.part) := if_pos h

theorem State.board_keeps (s t : State) : (s.board t).pwr = { t.pwr with trips := s.pwr.trips } ∧ (s.board t).objs = t.objs ∧
    (s.board t).cells = t.cells ∧ (s.board t).devTime = t.devTime := ⟨rfl, rfl, rfl, rfl⟩

theorem execFusesRead_fuses {s : State} (h : s.pwr.mode = .sense) (f : FuseData) :
    execFusesRead (some f) s = .next (s.enterLoad f) := by
  rw [execFusesRead, if_pos h]

/-- The end of TRAIN is taken, and the records held back are written, in no other mode than TRAIN (R503). -/
theorem execTrainDone_train {s t : State} (h : s.pwr.mode = .train) {ch : List ChanTrain} {area : List (BitVec 17)}
    (ht : s.trainEnd ch area = some t) :
    execTrainDone ch area s = .next (if t.pwr.mode = .faultHold then t else t.applyHeld) := by
  rw [execTrainDone, if_pos h, ht]

/-- Settles O43: each step from OFF to READY by what it leaves in the power registers. -/
theorem powerUpSequence : Obligations.PowerUpSequence := by
  intro s id boot f r addr len ch area img p u
  refine ⟨fun h => ?_, fun h => ?_, fun h => ⟨?_, fun hb => ?_⟩, fun h => ⟨fun hb hn => ?_, fun hb hn he => ?_, fun hb he ha => ?_,
    fun hb hi he hd => ?_⟩, fun h => ⟨fun ht => ?_, fun ht ha hf hw hh => ?_⟩⟩
  case refine_1 =>
    obtain ⟨hp, ho, hc, ht⟩ := s.board_keeps (State.powerUp s.part)
    refine ⟨_, congrArg Host.Outcome.next (State.aonUp_off h), ?_⟩
    dsimp only
    rw [hp, ho, hc, ht]
    exact ⟨rfl, rfl, rfl, rfl, rfl⟩
  case refine_2 =>
    have hq := s.sensed_pwr id boot
    have hmode : (s.sensed id boot).pwr.mode = .sense := by rw [hq]
    have htrips : (s.sensed id boot).pwr.trips = p.trips := by rw [hq]
    have hid : (s.sensed id boot).pwr.id = (if p.idIn then p.id else id) := by rw [hq]
    have hin : (s.sensed id boot).pwr.idIn = true := by rw [hq]
    have hsrc : (s.sensed id boot).pwr.bootSrc = boot.setWidth 8 := by rw [hq]
    refine ⟨_, execRailsGood_hold h id boot, ?_⟩
    dsimp only
    rw [htrips]
    split
    case isTrue h0 =>
      refine ⟨hid, hin, fun _ => ⟨hmode, hsrc, ?_⟩, fun hn => absurd h0 hn⟩
      have hdom := State.setDom_dom (s := (s.modPwr fun p => { p with
        id := if p.idIn then p.id else id, idIn := true, bootSrc := boot.setWidth 8 }).setMode .sense) (49 : Fin 63) 2 49
      exact decide_eq_true (hdom.trans (if_pos rfl))
    case isFalse hn =>
      obtain ⟨hm, hc, hid', hin'⟩ := State.faultHold_power (s := s.sensed id boot) (by rw [hmode]; decide) (by rw [hmode]; decide)
        (by rw [hmode]; decide) 6
      rw [hid', hin']
      exact ⟨hid, hin, fun h0 => absurd h0 hn, fun _ => ⟨hm, hc⟩⟩
  case refine_3 =>
    have hm : s.pwr.mode = .sense := h
    obtain ⟨hf, hc, _⟩ := State.faultHold_power (s := s) (by rw [hm]; decide) (by rw [hm]; decide) (by rw [hm]; decide) 1
    exact ⟨_, congrArg Host.Outcome.next (if_pos h), hf, hc⟩
  case refine_4 => exact ⟨_, execFusesRead_fuses h f, State.enterLoad_power f hb⟩
  case refine_5 =>
    refine ⟨_, congrArg Host.Outcome.next (if_pos ?_), rfl⟩
    simp [show s.pwr.mode = .load from h, show s.pwr.bootSrc = 0 from hb, show s.pwr.boot.busy = false from hn]
  case refine_6 =>
    refine ⟨s.bootRead r, execBootImageDone_reads (State.bootReading_of h (.inr hn)) r, ?_⟩
    rw [State.bootRead_hostError hb he]
    exact ⟨h, rfl, rfl, rfl⟩
  case refine_7 =>
    have hm : s.pwr.mode = .load := h
    obtain ⟨hf, hc, _⟩ := State.faultHold_power (s := s) (by rw [hm]; decide) (by rw [hm]; decide) (by rw [hm]; decide) 2
    refine ⟨s.bootRead r, execBootImageDone_reads (State.bootReading_of h (.inl hb)) r, ?_⟩
    rw [State.bootRead_flashError hb he ha]
    exact ⟨hf, hc⟩
  case refine_8 =>
    refine ⟨s.bootRead r, execBootImageDone_reads (State.bootReading_of h (.inl hb)) r, ?_⟩
    rw [State.bootRead_flash hb hi he]
    exact State.acceptImage_noDefaults hd ..
  case refine_9 =>
    obtain ⟨_, hp⟩ := State.pwr_of_beamAndPower (s.trained_beamAndPower ch)
    have hm : (s.trained ch).pwr.mode = .train := (congrArg Pwr.mode hp).trans h
    obtain ⟨hf, hc, _⟩ := State.faultHold_power (s := s.trained ch) (by rw [hm]; decide) (by rw [hm]; decide) (by rw [hm]; decide) 5
    refine ⟨_, execTrainDone_train h (State.trainEnd_fault ht area), ?_⟩
    dsimp only
    rw [if_pos hf]
    exact ⟨hf, hc⟩
  case refine_10 =>
    obtain ⟨hlock, hofs, hm, hheld⟩ := ((s.trained ch).formArea area).readied_free
    obtain ⟨_, hp⟩ := State.pwr_of_beamAndPower (((s.trained ch).formArea_beamAndPower area).trans (s.trained_beamAndPower ch))
    have hnone : ((s.trained ch).formArea area).readied.pwr.held = [] := by
      rw [hheld, hp]
      exact hh
    have e := execTrainDone_train h (State.trainEnd_ready ht ha hf hw)
    generalize ((s.trained ch).formArea area).readied = t at *
    refine ⟨_, e, ?_⟩
    dsimp only
    rw [if_neg (by rw [hm]; decide), State.applyHeld_none hnone]
    exact ⟨hm, hlock, hofs, rfl⟩

end Sys2Proof.Machine
end

section
/-! PROOFS for spec/25_memory.md and spec/26_pins.md: the channels and the patrol, the pins and their banks (O47). -/

namespace Sys2Proof.Machine

/-! ## Channels and the patrol (R515 to R521) -/

section Channels

variable {s : State} {ch : Fin 8}

theorem execRldRefresh_refreshes (h : (s.memu.chans.get ch).st = 2) (rank : Fin 2) (bank : Fin 32) :
    execRldRefresh ch rank bank s =
      .next (s.modChan ch fun r => { r with refreshes := r.refreshes + 1, ref16 := s.objOr 0xC000 4 0 != 0 }) :=
  congrArg Host.Outcome.next (if_pos h)

theorem execRldDriftTrack_tracks (h : (s.memu.chans.get ch).st = 2) :
    execRldDriftTrack ch s = .next (s.modChan ch fun r => { r with drifts := r.drifts + 1 }) :=
  congrArg Host.Outcome.next (if_pos h)

/-- A channel of the present density trains again (R503, R515). -/
theorem execChannelTrainDone_trains (hst : (s.memu.chans.get ch).st = 1) (ht : s.pwr.mode ≠ .train) (hl : s.pwr.mode ≠ .load)
    {d : Fin 3} (hd : d.val ≠ 0) (he : s.memu.density.toNat = d.val) (us : Nat) :
    execChannelTrainDone ch (.ok d us) s = .next (s.modChan ch fun r => { r with st := 2, trainUs := BitVec.ofNat 32 us }) := by
  have h0 : s.memu.density ≠ 0 := by
    intro h
    rw [h] at he
    exact hd he.symm
  have trains : s.chanTrained ch (.ok d us) = s.chanOk ch us := by
    simp only [State.chanTrained, if_neg hd, if_neg h0, if_pos he]
  refine (congrArg Host.Outcome.next (if_pos ?_)).trans (congrArg Host.Outcome.next trains)
  simp [hst, ht, hl]

/-- A corrected word is counted at its channel; cells and keeper stand (R519). -/
theorem State.correctable_channel (s : State) (ch : Fin 8) :
    ((s.correctable ch.val).memu.chans.get ch).ce = (s.memu.chans.get ch).ce + 1 ∧ (s.correctable ch.val).cells = s.cells ∧
      (s.correctable ch.val).keeper = s.keeper := by
  unfold State.correctable
  extract_lets t r _ u
  have ht : t = s.modChan ch fun r => { r with ce := r.ce + 1 } := by
    simp [t, State.countCe]
  have hu : (u.memu.chans.get ch).ce = (s.memu.chans.get ch).ce + 1 ∧ u.cells = s.cells ∧ u.keeper = s.keeper := by
    have hc : u.memu.chans = t.memu.chans := rfl
    have hk : u.cells = t.cells := rfl
    have hq : u.keeper = t.keeper := rfl
    rw [hc, hk, hq, ht]
    simp [State.modChan, Vector.get_set]
  split
  · simpa using hu
  · exact hu

theorem execPatrolScrub_corrects (hst : (s.memu.chans.get ch).st = 2) (ho : s.objOr 0xC000 5 24 ≠ 0) (hd : s.dictServed = true)
    (page : Option PageNo) (word : Fin 4096) :
    execPatrolScrub (.channel ch) page word .correctable s = .next (s.correctable ch.val) := by
  have hon : s.scrubOn (.channel ch) = true := by simp [State.scrubOn, hst, ho, hd]
  exact congrArg Host.Outcome.next (if_pos hon)

end Channels

/-! ## The cell's view of its pins (R541) -/

section View

variable {s : State} {c : CellNo} {a : Nat}

/-- A write of a register of the pins' view reaches it while PD61 is on. -/
theorem ioWriteAs_pins (hl : 0x0E90 ≤ a) (hh : a < 0x0E98) (hd : s.domOn 61 = true) (ag : Agent) (v : Byte) :
    ∃ y, (s.cell c).Unlocking y ∧ s.ioWriteAs c ag false a v = s.setCell c (y.writePins a v) := by
  have hk : lockedAt a = none := lockedAt_above (by omega)
  have hm : ioMapped (s.cell c).prof a = true := by
    have h₀ : ∀ i : Fin 8, inRanges ioRanges (0x0E90 + i.val) = true := by decide
    have hi := h₀ ⟨a - 0x0E90, by omega⟩
    rw [show 0x0E90 + (a - 0x0E90) = a by omega] at hi
    exact (ioMapped_above _ (by omega)).trans hi
  have hdark : s.ioDark a = false := by simp [State.ioDark, hd]
  obtain ⟨y, hu, e⟩ := ioWriteAs_reaches hk hm hdark ag false v
  refine ⟨y, hu, e.trans ?_⟩
  have h₁ : ¬ a < 0x0400 ∧ ¬ a < 0x0E80 ∧ 0x0E80 ≤ a ∧ a < 0x0F00 ∧ ¬ 0x0F00 ≤ a := by omega
  have h₂ : ¬ a < 0x0180 ∧ ¬ a < 0x01C0 ∧ a ≠ 0x01C0 ∧ a ≠ 0x01C1 ∧ ¬ a < 0x0200 ∧ ¬ a < 0x0300 ∧ ¬ a < 0x0380 ∧
      ¬ a < 0x03C0 := by omega
  have h₃ : ¬ a < 0x0420 ∧ ¬ a < 0x0C00 ∧ ¬ a < 0x0E00 := by omega
  simp [State.regWrite, Cell.writeReg, h₁, h₂, h₃]

/-- With byte `a` of the cell's registers written, the other registers stand. -/
theorem State.regPut_reg8 (s : State) (c : CellNo) {x : Cell} (hx : (s.cell c).Unlocking x) (a : Nat) (v : Byte) :
    s.onlyCell (s.setCell c (x.putReg a v)) c ∧ ((s.setCell c (x.putReg a v)).cell c).reg8 a = v ∧
      ∀ n, n ≠ a → ((s.setCell c (x.putReg a v)).cell c).reg8 n = (s.cell c).reg8 n := by
  obtain ⟨q, w, rfl⟩ := hx
  refine ⟨State.onlyCell_setCell .., ?_, fun n hn => ?_⟩
  · rw [State.setCell_cell_self, Cell.putReg_reg8, if_pos rfl]
  · rw [State.setCell_cell_self, Cell.putReg_reg8, if_neg hn]
    rfl

theorem Cell.writePins_set (x : Cell) {a : Nat} (hl : 0x0E90 ≤ a) (hh : a < 0x0E92) (v : Byte) :
    x.writePins (a + 4) v = x.putReg a (x.reg8 a ||| v) := by
  have h : ¬ a + 4 < 0x0E94 ∧ 0x0E94 ≤ a + 4 ∧ a + 4 < 0x0E96 := by omega
  simp [Cell.writePins, h]

theorem Cell.writePins_clr (x : Cell) {a : Nat} (hl : 0x0E90 ≤ a) (hh : a < 0x0E92) (v : Byte) :
    x.writePins (a + 6) v = x.putReg a (x.reg8 a &&& ~~~v) := by
  have h : ¬ a + 6 < 0x0E94 ∧ ¬ a + 6 < 0x0E96 ∧ 0x0E96 ≤ a + 6 ∧ a + 6 < 0x0E98 := by omega
  simp [Cell.writePins, h]

/-- GV_SET sets bits of GV_OUT. -/
theorem execGvSetWrite_sets (hs : s.startedCell c = true) (hd : s.domOn 61 = true) (ag : Agent) (high : Bool) (v : Byte) :
    ∃ x, (s.cell c).Unlocking x ∧ execGvSetWrite c ag high v s =
      .next (s.setCell c (x.putReg (if high then 0x0E91 else 0x0E90) ((s.cell c).reg8 (if high then 0x0E91 else 0x0E90) ||| v))) := by
  obtain ⟨y, ⟨q, w, rfl⟩, e⟩ := ioWriteAs_pins (s := s) (c := c) (a := (if high then 0x0E91 else 0x0E90) + 4)
    (by split <;> decide) (by split <;> decide) hd ag v
  rw [Cell.writePins_set _ (by split <;> decide) (by split <;> decide)] at e
  refine ⟨_, ⟨q, w, rfl⟩, ?_⟩
  rw [execGvSetWrite, onStarted_runs hs]
  refine congrArg Host.Outcome.next (Eq.trans ?_ e)
  cases high <;> rfl

/-- GV_CLR clears them. -/
theorem execGvClrWrite_clears (hs : s.startedCell c = true) (hd : s.domOn 61 = true) (ag : Agent) (high : Bool) (v : Byte) :
    ∃ x, (s.cell c).Unlocking x ∧ execGvClrWrite c ag high v s =
      .next (s.setCell c (x.putReg (if high then 0x0E91 else 0x0E90) ((s.cell c).reg8 (if high then 0x0E91 else 0x0E90) &&& ~~~v))) := by
  obtain ⟨y, ⟨q, w, rfl⟩, e⟩ := ioWriteAs_pins (s := s) (c := c) (a := (if high then 0x0E91 else 0x0E90) + 6)
    (by split <;> decide) (by split <;> decide) hd ag v
  rw [Cell.writePins_clr _ (by split <;> decide) (by split <;> decide)] at e
  refine ⟨_, ⟨q, w, rfl⟩, ?_⟩
  rw [execGvClrWrite, onStarted_runs hs]
  refine congrArg Host.Outcome.next (Eq.trans ?_ e)
  cases high <;> rfl

end View

/-! ## Pins and banks (R534, R538) -/

section Pins

variable {s : State} {p : Fin 128}

@[simp] theorem State.fireShared_pins (s : State) (n : Fin 153) : (s.fireShared n).pins = s.pins := by
  obtain ⟨_, _, _, _, _, e⟩ := s.fireShared_eq n
  rw [e]

/-- A settled level is taken, whether or not it fires a source. -/
theorem State.pinSettle_pins (s : State) (p : Fin 128) (lvl : Bool) :
    (s.pinSettle p lvl).pins = s.pins.set p { s.pins.get p with level := lvl } := by
  unfold State.pinSettle
  dsimp only
  split
  case isTrue => rfl
  case isFalse =>
    split
    · exact State.fireShared_pins ..
    · rfl

/-- A level that is no change changes nothing. -/
theorem State.pinSettle_same (s : State) (p : Fin 128) : s.pinSettle p (s.pins.get p).level = s := by
  have e : (s.modPin p fun k => { k with level := (s.pins.get p).level }) = s := by
    have hv : s.pins.set p.val (s.pins.get p) p.isLt = s.pins := Vector.set_getElem_self ..
    unfold State.modPin
    dsimp only
    rw [hv]
  unfold State.pinSettle
  dsimp only
  rw [e, if_pos rfl]

theorem execBankVoltageChange_takes (s : State) (b : Fin 8) (d : Fin 3) : ∃ t, execBankVoltageChange b d s = .next t ∧
    t.banks = s.banks.set b (BitVec.ofNat 8 d.val) ∧ t.pins = s.pins := by
  unfold execBankVoltageChange
  dsimp only
  split
  case isTrue h =>
    refine ⟨s, rfl, ?_, rfl⟩
    rw [← h]
    exact (Vector.set_getElem_self ..).symm
  case isFalse =>
    refine ⟨_, rfl, ?_, ?_⟩
    · rw [State.raise_banks]
    · rw [State.raise_pins]

end Pins

/-- Settles O47: upkeep and training of a channel, a corrected word, the view's bits, a settled pin and a bank's voltage. -/
theorem memoryAndPins : Obligations.MemoryAndPins := by
  intro s ch rank bank page word d us c ag high v p lvl b
  refine ⟨fun hr => ⟨?_, ?_, fun ho hd => ?_⟩, fun hr ht hl hd he => ?_, fun hs hd => ⟨?_, ?_⟩, fun hc => ?_, ?_⟩
  case refine_1 => exact ⟨_, execRldRefresh_refreshes hr rank bank, rfl⟩
  case refine_2 => exact ⟨_, execRldDriftTrack_tracks hr, rfl⟩
  case refine_3 => exact ⟨_, execPatrolScrub_corrects hr ho hd page word, s.correctable_channel ch⟩
  case refine_4 => exact ⟨_, execChannelTrainDone_trains hr ht hl hd he us, rfl⟩
  case refine_5 =>
    obtain ⟨x, hx, e⟩ := execGvSetWrite_sets hs hd ag high v
    exact ⟨_, e, State.regPut_reg8 s c hx _ _⟩
  case refine_6 =>
    obtain ⟨x, hx, e⟩ := execGvClrWrite_clears hs hd ag high v
    exact ⟨_, e, State.regPut_reg8 s c hx _ _⟩
  case refine_7 =>
    refine ⟨_, congrArg Host.Outcome.next (if_pos hc), ?_, fun j hj => ?_, ?_⟩
    · rw [State.pinSettle_pins, Vector.get_set, if_pos rfl]
    · rw [State.pinSettle_pins, Vector.get_set, if_neg hj]
    · rintro rfl
      exact s.pinSettle_same p
  case refine_8 =>
    obtain ⟨t, e, hb, hp⟩ := execBankVoltageChange_takes s b d
    refine ⟨t, e, ?_, fun j hj => ?_, hp⟩
    · rw [hb, Vector.get_set, if_pos rfl]
    · rw [hb, Vector.get_set, if_neg hj]

end Sys2Proof.Machine
end

section
/-! PROOFS for spec/03_ek8_programming.md: how an instruction completes, and the register instructions (O2 to O5). -/

namespace Sys2Proof.Machine

/-! ## Commands that complete -/

theorem Completes.imp {i : Instr} {s : State} {p q : State → Prop} (h : Completes i s p) (f : ∀ t, p t → q t) : Completes i s q := by
  obtain ⟨t, e, hp⟩ := h
  exact ⟨t, e, f t hp⟩

/-- The core that issues has its cell on the part and a credit (R2, R102). -/
theorem State.issues_ready {s : State} {c : CellNo} {bs : List Byte} (h : s.issues c bs = true) :
    s.present c = true ∧ 1 ≤ (s.cell c).pace.avail := by
  simp only [State.issues, State.canIssue, State.coreReady, Bool.and_eq_true, decide_eq_true_eq] at h
  obtain ⟨⟨⟨hp, ⟨⟨⟨_, ha⟩, _⟩, _⟩, _⟩, _⟩, _⟩ := h
  exact ⟨hp, ha⟩

/-! ## Registers and flags by their fields (R59, R60) -/

section Fields

variable {j k : Core}

theorem Core.rb_of_b (h : k.b = j.b) (n : Fin 16) : k.rb n = j.rb n := congrArg (Vector.get · n) h

theorem Core.rw_of_b (h : k.b = j.b) (n : Fin 8) : k.rw n = j.rw n := by simp only [Core.rw, Core.rb_of_b h]

theorem Core.keepsB_of_b {i : Core} {l : List (Fin 16)} (h : k.b = j.b) (hk : i.keepsB j l) : i.keepsB k l :=
  fun n hn => (Core.rb_of_b h n).trans (hk n hn)

theorem Core.keepsB_refl (k : Core) (l : List (Fin 16)) : k.keepsB k l := fun _ _ => rfl

theorem Core.keepsB_setB {l : List (Fin 16)} {d : Fin 16} (hk : j.keepsB k l) (hd : d ∈ l) (v : Byte) : j.keepsB (k.setB d v) l := by
  intro n hn
  have hnd : n ≠ d := fun e => hn (e ▸ hd)
  rw [Core.setB_rb, if_neg hnd, hk n hn]

theorem Core.keepsB_setW {l : List (Fin 16)} {w : Fin 8} (hk : j.keepsB k l) (hl : pairLo w ∈ l) (hh : pairHi w ∈ l) (v : Half) :
    j.keepsB (k.setW w v) l :=
  Core.keepsB_setB (Core.keepsB_setB hk hl _) hh _

theorem flagIf_getElem (b : Bool) (m : Byte) (i : Nat) (h : i < 8) : (flagIf b m)[i] = (b && m[i]) := by
  cases b <;> simp [flagIf]

/-- Flags written under a mask that leaves I alone. -/
theorem Core.flagsAre_setFlags {m v : Byte} (e : k.f = setFlags j.f m v) (hm : m.getLsbD 5 = false) :
    k.flagsAre j (if m.getLsbD 0 then v.getLsbD 0 else j.flag 0) (if m.getLsbD 1 then v.getLsbD 1 else j.flag 1)
      (if m.getLsbD 2 then v.getLsbD 2 else j.flag 2) (if m.getLsbD 3 then v.getLsbD 3 else j.flag 3)
      (if m.getLsbD 4 then v.getLsbD 4 else j.flag 4) := by
  simp only [Core.flagsAre, Core.flag, e, setFlags_getLsbD, hm, Bool.false_eq_true, if_false, and_self]

/-- All five flags as the arithmetic of R61 gives them. -/
theorem Core.flagsAre_arith {c v h : Bool} {r : Byte}
    (e : k.f = setFlags j.f mArith (flagIf c fC ||| zn8 r ||| flagIf v fV ||| flagIf h fH)) :
    k.flagsAre j c (r == 0) r.msb v h := by
  simpa [flagIf_getElem, zn8, mArith, fC, fZ, fN, fV, fH] using Core.flagsAre_setFlags e (by decide)

/-- C as given, Z and N of a result, V 0, and H as before (R71, R72). -/
theorem Core.flagsAre_logic {c : Bool} {r : Byte} (e : k.f = setFlags j.f mLogic (flagIf c fC ||| zn8 r)) :
    k.flagsAre j c (r == 0) r.msb false (j.flag 4) := by
  simpa [flagIf_getElem, zn8, mLogic, fC, fZ, fN] using Core.flagsAre_setFlags e (by decide)

/-- C and V of word arithmetic, Z and N of its result, and H as before (R61, R73). -/
theorem Core.flagsAre_word {c v : Bool} {r : Half} (e : k.f = setFlags j.f mLogic (flagIf c fC ||| zn16 r ||| flagIf v fV)) :
    k.flagsAre j c (r == 0) r.msb v (j.flag 4) := by
  simpa [flagIf_getElem, zn16, mLogic, fC, fZ, fN, fV] using Core.flagsAre_setFlags e (by decide)

/-- Z and N of a result, and nothing else. -/
theorem Core.flagsAre_zn {r : Byte} (e : k.f = setFlags j.f (fZ ||| fN) (zn8 r)) :
    k.flagsAre j (j.flag 0) (r == 0) r.msb (j.flag 3) (j.flag 4) := by
  simpa [flagIf_getElem, zn8, fZ, fN] using Core.flagsAre_setFlags e (by decide)

/-- Z alone. -/
theorem Core.flagsAre_z {z : Bool} (e : k.f = setFlags j.f fZ (flagIf z fZ)) :
    k.flagsAre j (j.flag 0) z (j.flag 2) (j.flag 3) (j.flag 4) := by
  simpa [flagIf_getElem, fZ] using Core.flagsAre_setFlags e (by decide)

end Fields

/-! ## Completion in sequence (R83, R87, R103) -/

section Completion

/-- Cell `y` once its instruction of `n` micro-cycles has completed, `next` being its sequential next address (R83). -/
def Cell.ranOn (y : Cell) (n : Nat) (next : Half) : Cell :=
  y.complete n (loopBack y.core.ed next y.core.loops).1 (loopBack y.core.ed next y.core.loops).2

/-- The control state of `j`, PC aside: ED, the loop stack, MH:ML and the product in flight. -/
def Core.keepsControl (j k : Core) : Prop := k.ed = j.ed ∧ k.loops = j.loops ∧ k.mhml = j.mhml ∧ k.prod = j.prod

variable {s : State} {c : CellNo} {bs : List Byte} {cycles taken : Nat} {body : CellNo → State → EkRes} {i : Instr}
  {x y : Cell} {k' : Core} {p : State → Prop}

/-- An instruction whose body goes on in sequence with cell `y`. -/
theorem Completes.seq (e : exec i s = runInstr c bs cycles taken body s) (h : s.issues c bs = true)
    (hb : body c s = .seq (s.setCell c y))
    (hp : p (s.setCell c (y.ranOn cycles ((s.core c).pc + BitVec.ofNat 16 bs.length)))) : Completes i s p := by
  refine ⟨_, ?_, hp⟩
  rw [e, runInstr_issues h, State.runBody, hb]
  simp only [State.finishSeq, State.modCell_eq, State.setCell_setCell, State.setCell_cell_self]
  rfl

/-- An instruction whose body transfers control to `pc` with cell `y`. -/
theorem Completes.jump {pc : Half} (e : exec i s = runInstr c bs cycles taken body s) (h : s.issues c bs = true)
    (hb : body c s = .jump (s.setCell c y) pc) (hp : p (s.setCell c (y.complete taken pc y.core.loops))) : Completes i s p := by
  refine ⟨_, ?_, hp⟩
  rw [e, runInstr_issues h, State.runBody, hb]
  simp only [State.modCell_eq, State.setCell_setCell, State.setCell_cell_self]

/-- A cell whose core registers alone change keeps the rest. -/
theorem Cell.keepsAll_core (x : Cell) (k : Core) : x.keepsAll { x with core := k } :=
  ⟨rfl, rfl, rfl, rfl, rfl, rfl, rfl, rfl, rfl, rfl, rfl, rfl, rfl, rfl, rfl, rfl, rfl, rfl, rfl, rfl, rfl, rfl, rfl, rfl⟩

theorem Cell.ranOn_keepsAll (h : x.keepsAll y) (n : Nat) (next : Half) : x.keepsAll (y.ranOn n next) :=
  Cell.keepsAll_trans h (y.complete_keepsAll ..)

@[simp] theorem State.setCell_core (s : State) (c : CellNo) (x : Cell) : (s.setCell c x).core c = x.core := by simp [State.core]

@[simp] theorem Cell.ranOn_b (y : Cell) (n : Nat) (a : Half) : (y.ranOn n a).core.b = y.core.b := by simp [Cell.ranOn]
@[simp] theorem Cell.ranOn_f (y : Cell) (n : Nat) (a : Half) : (y.ranOn n a).core.f = y.core.f := by simp [Cell.ranOn]
@[simp] theorem Cell.ranOn_sp (y : Cell) (n : Nat) (a : Half) : (y.ranOn n a).core.sp = y.core.sp := by simp [Cell.ranOn]
@[simp] theorem Cell.ranOn_mem (y : Cell) (n : Nat) (a : Half) : (y.ranOn n a).mem = y.mem := by simp [Cell.ranOn]
@[simp] theorem Cell.ranOn_pace (y : Cell) (n : Nat) (a : Half) : (y.ranOn n a).pace = y.pace.count := by simp [Cell.ranOn]

/-- An instruction that keeps the control state goes on past its bytes. -/
theorem Cell.ranOn_wentOn (hy : x.core.keepsControl y.core) (n len : Nat) :
    x.core.wentOn (y.ranOn n (x.core.pc + BitVec.ofNat 16 len)).core len := by
  obtain ⟨hed, hloops, hmhml, hprod⟩ := hy
  rw [Cell.ranOn, Cell.complete_core, hloops]
  refine ⟨fun hl => ?_, (Core.age_ed ..).trans hed, fun hp => ?_⟩
  · rw [hl]
    exact ⟨rfl, rfl⟩
  · dsimp only
    rw [Core.age_none _ n (hprod.trans hp), hmhml, hprod]
    exact ⟨rfl, hp⟩

/-- An instruction that makes the core registers those of `k'` and keeps the control state. -/
theorem completes_core (e : exec i s = runInstr c bs cycles taken body s) (h : s.issues c bs = true)
    (hb : body c s = .seq (s.setCell c { s.cell c with core := k' })) (hk : (s.core c).keepsControl k') :
    Completes i s fun t => s.ranCore t c bs.length ∧ (t.core c).sp = k'.sp ∧ (t.core c).b = k'.b ∧ (t.core c).f = k'.f := by
  obtain ⟨_, ha⟩ := State.issues_ready h
  refine Completes.seq e h hb ⟨⟨State.onlyCell_setCell .., ?_, ?_, ?_⟩, ?_, ?_, ?_⟩ <;>
    simp only [State.setCell_cell_self, State.setCell_core]
  · exact Cell.ranOn_keepsAll (Cell.keepsAll_core _ k') ..
  · exact Cell.ranOn_wentOn hk ..
  · simp only [Cell.ranOn_pace, Pace.count]
    omega
  · exact Cell.ranOn_sp ..
  · exact Cell.ranOn_b ..
  · exact Cell.ranOn_f ..

/-- The same with SP kept. -/
theorem completes_reg (e : exec i s = runInstr c bs cycles taken body s) (h : s.issues c bs = true)
    (hb : body c s = .seq (s.setCell c { s.cell c with core := k' })) (hk : (s.core c).keepsControl k')
    (hs : k'.sp = (s.core c).sp) :
    Completes i s fun t => s.ranReg t c bs.length ∧ (t.core c).b = k'.b ∧ (t.core c).f = k'.f :=
  (completes_core e h hb hk).imp fun _ ⟨hr, hsp, hbf⟩ => ⟨⟨hr, hsp.trans hs⟩, hbf⟩

/-- An instruction that writes byte register `d` with `r`, and F with `f`. -/
theorem completes_setB {d : Fin 16} {r f : Byte} (e : exec i s = runInstr c bs cycles taken body s) (h : s.issues c bs = true)
    (hb : body c s = .seq (s.setCell c { s.cell c with core := { (s.core c).setB d r with f := f } })) :
    Completes i s fun t => (s.ranReg t c bs.length ∧ (t.core c).rb d = r ∧ (s.core c).keepsB (t.core c) [d]) ∧ (t.core c).f = f := by
  refine (completes_reg e h hb ⟨rfl, rfl, rfl, rfl⟩ rfl).imp fun t ⟨hr, hbs, hf⟩ => ⟨⟨hr, ?_, ?_⟩, hf⟩
  · rw [Core.rb_of_b (j := (s.core c).setB d r) hbs]
    simp
  · exact Core.keepsB_of_b hbs (Core.keepsB_setB (Core.keepsB_refl _ _) (List.mem_singleton.mpr rfl) r)

/-- An instruction that writes word register `d` with `r`, and F with `f`. -/
theorem completes_setW {d : Fin 8} {r : Half} {f : Byte} (e : exec i s = runInstr c bs cycles taken body s)
    (h : s.issues c bs = true)
    (hb : body c s = .seq (s.setCell c { s.cell c with core := { (s.core c).setW d r with f := f } })) :
    Completes i s fun t => (s.ranReg t c bs.length ∧ (t.core c).rw d = r ∧ (s.core c).keepsB (t.core c) [pairLo d, pairHi d]) ∧
      (t.core c).f = f := by
  refine (completes_reg e h hb ⟨rfl, rfl, rfl, rfl⟩ rfl).imp fun t ⟨hr, hbs, hf⟩ => ⟨⟨hr, ?_, ?_⟩, hf⟩
  · rw [Core.rw_of_b (j := (s.core c).setW d r) hbs]
    simp
  · exact Core.keepsB_of_b hbs (Core.keepsB_setW (Core.keepsB_refl _ _) (by simp) (by simp) r)

/-- An instruction that writes F with `f` and no register. -/
theorem completes_setF {f : Byte} (e : exec i s = runInstr c bs cycles taken body s) (h : s.issues c bs = true)
    (hb : body c s = .seq (s.setCell c { s.cell c with core := { s.core c with f := f } })) :
    Completes i s fun t => (s.ranReg t c bs.length ∧ (t.core c).b = (s.core c).b) ∧ (t.core c).f = f :=
  (completes_reg e h hb ⟨rfl, rfl, rfl, rfl⟩ rfl).imp fun _ ⟨hr, hbs, hf⟩ => ⟨⟨hr, hbs⟩, hf⟩

end Completion

/-! ## Byte arithmetic and logic (R61, R70, R71) -/

section Alu

variable {s : State} {c : CellNo} {d : Fin 16} {x : ByteSrc} {cycles : Nat} {i : Instr} {j k : Core} {a b : Byte} {n : Nat}

theorem aluBytes_eq (o : AluOp) (d : Fin 16) (x : ByteSrc) : aluBytes o d x = byteForm (BitVec.ofNat 8 (0x10 + o.code)) d x := by
  cases x <;> cases o <;> rfl

/-- A byte operation of a register with a source, by its row of `AluOp.run`. -/
theorem completes_alu (o : AluOp) {op : Byte} (e : exec i s = runInstr c (aluBytes o d x) cycles cycles (bodyAlu o d x) s)
    (hop : BitVec.ofNat 8 (0x10 + o.code) = op) (h : s.issues c (byteForm op d x) = true) :
    let q := o.run ((s.core c).rb d) (x.val (s.core c)) (s.core c).f
    Completes i s fun t => (s.ranReg t c (byteForm op d x).length ∧ (t.core c).rb d = q.1 ∧ (s.core c).keepsB (t.core c) [d]) ∧
      (t.core c).f = setFlags (s.core c).f q.2.1 q.2.2 := by
  subst hop
  rw [aluBytes_eq] at e
  exact completes_setB e h rfl

/-- The mask of C selects bit 0 of F (R60). -/
theorem hasFlag_fC (f : Byte) : hasFlag f fC = f.getLsbD 0 := by
  revert f; decide

theorem carryIn_flag (k : Core) : carryIn k.f = if k.flag 0 then 1 else 0 := by
  rw [carryIn, hasFlag_fC]; rfl

/-- An unchanged F, written under the empty mask. -/
theorem setFlags_none (f v : Byte) : setFlags f 0 v = f :=
  BitVec.eq_of_getLsbD_eq fun i _ => by simp [setFlags_getLsbD]

theorem Core.flagsAre_add (e : k.f = setFlags j.f mArith (addFlags8 a b n)) :
    k.flagsAre j (decide (256 ≤ a.toNat + b.toNat + n)) (a + b + BitVec.ofNat 8 n == 0) (a + b + BitVec.ofNat 8 n).msb
      (decide (a.toInt + b.toInt + n ≠ (a + b + BitVec.ofNat 8 n).toInt)) (decide (16 ≤ a.toNat % 16 + b.toNat % 16 + n)) :=
  Core.flagsAre_arith e

theorem Core.flagsAre_sub (e : k.f = setFlags j.f mArith (subFlags8 a b n)) :
    k.flagsAre j (decide (a.toNat < b.toNat + n)) (a - b - BitVec.ofNat 8 n == 0) (a - b - BitVec.ofNat 8 n).msb
      (decide (a.toInt - b.toInt - n ≠ (a - b - BitVec.ofNat 8 n).toInt)) (decide (a.toNat % 16 < b.toNat % 16 + n)) :=
  Core.flagsAre_arith e

end Alu

/-- Settles O2: each of the four is a row of `AluOp.run`, whose flags are those of R61. -/
theorem byteAddSub : Obligations.ByteAddSub := by
  intro s c d x k a b cy out
  have hcy : carryIn k.f = cy := carryIn_flag k
  refine ⟨fun h => (completes_alu .add rfl rfl h).imp ?_, fun h => (completes_alu .adc rfl rfl h).imp ?_,
    fun h => (completes_alu .sub rfl rfl h).imp ?_, fun h => (completes_alu .sbc rfl rfl h).imp ?_⟩
  case refine_1 =>
    intro t ⟨ho, hf⟩
    have hr : add8 a b 0 = a + b := by simp [add8]
    exact ⟨hr ▸ ho, by simpa using Core.flagsAre_add hf⟩
  case refine_2 =>
    intro t ⟨ho, hf⟩
    exact ⟨hcy ▸ ho, hcy ▸ Core.flagsAre_add hf⟩
  case refine_3 =>
    intro t ⟨ho, hf⟩
    have hr : sub8 a b 0 = a - b := by simp [sub8]
    exact ⟨hr ▸ ho, by simpa using Core.flagsAre_sub hf⟩
  case refine_4 =>
    intro t ⟨ho, hf⟩
    exact ⟨hcy ▸ ho, hcy ▸ Core.flagsAre_sub hf⟩

/-! ## Single-register byte instructions (R72) -/

section Unary

variable {s : State} {c : CellNo} {d : Fin 16} {i : Instr} {j k : Core}

/-- A single-register operation, by its row of `UnOp.run`. -/
theorem completes_un (o : UnOp) {op : Byte} (e : exec i s = runInstr c [op, r1 d] 2 2 (bodyUn o d) s)
    (h : s.issues c [op, r1 d] = true) :
    let q := o.run ((s.core c).rb d) (s.core c).f
    Completes i s fun t => (s.ranReg t c 2 ∧ (t.core c).rb d = q.1 ∧ (s.core c).keepsB (t.core c) [d]) ∧
      (t.core c).f = setFlags (s.core c).f q.2.1 q.2.2 :=
  completes_setB e h rfl

/-- Z, N, V and H as the arithmetic of R61 gives them, and C as before. -/
theorem Core.flagsAre_arithKeepC {c v h : Bool} {r : Byte}
    (e : k.f = setFlags j.f (mArith &&& ~~~fC) (flagIf c fC ||| zn8 r ||| flagIf v fV ||| flagIf h fH)) :
    k.flagsAre j (j.flag 0) (r == 0) r.msb v h := by
  simpa [flagIf_getElem, zn8, mArith, fC, fZ, fN, fV, fH] using Core.flagsAre_setFlags e (by decide)

/-- Z and N of a result, V 0, and C and H as before. -/
theorem Core.flagsAre_logicKeepC {r : Byte} (e : k.f = setFlags j.f (mLogic &&& ~~~fC) (zn8 r)) :
    k.flagsAre j (j.flag 0) (r == 0) r.msb false (j.flag 4) := by
  simpa [flagIf_getElem, zn8, mLogic, fC, fZ, fN] using Core.flagsAre_setFlags e (by decide)

/-- INC overflows at 7Fh, and carries out of the low nibble at Fh. -/
theorem addFlags8_one (a : Byte) : addFlags8 a 1 0 =
    flagIf (a == 0xFF) fC ||| zn8 (a + 1) ||| flagIf (a == 0x7F) fV ||| flagIf (decide (a.toNat % 16 = 15)) fH := by
  revert a; decide

/-- DEC overflows at 80h, and borrows from the high nibble at 0h. -/
theorem subFlags8_one (a : Byte) : subFlags8 a 1 0 =
    flagIf (a == 0) fC ||| zn8 (a - 1) ||| flagIf (a == 0x80) fV ||| flagIf (decide (a.toNat % 16 = 0)) fH := by
  revert a; decide

/-- NEG borrows unless its operand is 0, and overflows at 80h. -/
theorem zero_subFlags8 (a : Byte) : subFlags8 0 a 0 =
    flagIf (a != 0) fC ||| zn8 (-a) ||| flagIf (a == 0x80) fV ||| flagIf (decide (a.toNat % 16 ≠ 0)) fH := by
  revert a; decide

theorem neg_beq_zero (a : Byte) : (-a == 0) = (a == 0) := by
  revert a; decide

/-- An arithmetic shift by one repeats the sign. -/
theorem sshiftRight_one (a : Byte) : a.sshiftRight 1 = (a >>> 1) ||| (a &&& 0x80) := by
  revert a; decide

theorem sshiftRight_one_msb (a : Byte) : ((a >>> 1) ||| (a &&& 0x80)).msb = a.msb := by
  revert a; decide

theorem ushiftRight_one_msb (a : Byte) : (a >>> 1).msb = false := by
  revert a; decide

/-- The carry as ROL brings it in at bit 0. -/
theorem and_fC (f : Byte) : f &&& fC = if f.getLsbD 0 then 1 else 0 := by
  revert f; decide

/-- The carry as ROR brings it in at bit 7. -/
theorem flagIf_carry (b : Bool) : flagIf b 0x80 = (if b then 1 else 0 : Byte) <<< 7 := by
  revert b; decide

theorem rorCarry_msb (a : Byte) (b : Bool) : ((a >>> 1) ||| ((if b then 1 else 0 : Byte) <<< 7)).msb = b := by
  revert a b; decide

end Unary

/-- Settles O3: each is a row of `AluOp.run` or of `UnOp.run`; the flags of a row are read off its mask. -/
theorem byteLogicAndUnary : Obligations.ByteLogicAndUnary := by
  refine ⟨?_, ?_⟩
  · intro s c d x k a b out logic
    have logical {t : State} {r : Byte} (hf : (t.core c).f = setFlags k.f mLogic (zn8 r)) : logic t r :=
      Core.flagsAre_logic (c := false) (by simpa [flagIf] using hf)
    refine ⟨fun h => (completes_alu .and rfl rfl h).imp fun t ⟨ho, hf⟩ => ⟨ho, logical hf⟩,
      fun h => (completes_alu .or rfl rfl h).imp fun t ⟨ho, hf⟩ => ⟨ho, logical hf⟩,
      fun h => (completes_alu .xor rfl rfl h).imp fun t ⟨ho, hf⟩ => ⟨ho, logical hf⟩,
      fun h => (completes_alu .cmp rfl rfl h).imp fun t ⟨ho, hf⟩ => ⟨ho, by simpa using Core.flagsAre_sub hf⟩,
      fun h => (completes_alu .mov rfl rfl h).imp fun t ⟨ho, hf⟩ => ⟨ho, hf.trans (setFlags_none ..)⟩,
      fun h => (completes_alu .tst rfl rfl h).imp fun t ⟨ho, hf⟩ => ⟨ho, logical hf⟩⟩
  · intro s c d k a op out cin
    have hmsb : a.msb = a.getLsbD 7 := BitVec.msb_eq_getLsbD_last a
    refine ⟨
      fun h => (completes_un .inc rfl h).imp fun t ⟨ho, hf⟩ =>
        ⟨ho, Core.flagsAre_arithKeepC (hf.trans (congrArg _ (addFlags8_one a)))⟩,
      fun h => (completes_un .dec rfl h).imp fun t ⟨ho, hf⟩ =>
        ⟨ho, Core.flagsAre_arithKeepC (hf.trans (congrArg _ (subFlags8_one a)))⟩,
      fun h => (completes_un .neg rfl h).imp fun t ⟨ho, hf⟩ =>
        ⟨BitVec.zero_sub a ▸ ho, neg_beq_zero a ▸ Core.flagsAre_arith (hf.trans (congrArg _ (zero_subFlags8 a)))⟩,
      fun h => (completes_un .not rfl h).imp fun t ⟨ho, hf⟩ => ⟨ho, Core.flagsAre_logicKeepC hf⟩,
      fun h => (completes_un .shl rfl h).imp fun t ⟨ho, hf⟩ => ⟨ho, hmsb ▸ Core.flagsAre_logic hf⟩,
      fun h => (completes_un .shr rfl h).imp fun t ⟨ho, hf⟩ => ⟨ho, ushiftRight_one_msb a ▸ Core.flagsAre_logic hf⟩,
      fun h => (completes_un .sar rfl h).imp fun t ⟨ho, hf⟩ => ?_,
      fun h => (completes_un .rol rfl h).imp fun t ⟨ho, hf⟩ => ?_,
      fun h => (completes_un .ror rfl h).imp fun t ⟨ho, hf⟩ => ?_,
      fun h => (completes_un .swap rfl h).imp fun t ⟨ho, hf⟩ => ⟨ho, Core.flagsAre_zn hf⟩⟩
    case refine_1 =>
      have hs : a.sshiftRight 1 = (a >>> 1) ||| (a &&& 0x80) := sshiftRight_one a
      have hl := Core.flagsAre_logic hf
      exact ⟨hs ▸ ho, sshiftRight_one_msb a ▸ hs ▸ hl⟩
    case refine_2 =>
      have hc : k.f &&& fC = cin := and_fC k.f
      have hl := Core.flagsAre_logic hf
      exact ⟨hc ▸ ho, hmsb ▸ hc ▸ hl⟩
    case refine_3 =>
      have hc : flagIf (hasFlag k.f fC) 0x80 = cin <<< 7 := by rw [hasFlag_fC]; exact flagIf_carry _
      have hl := Core.flagsAre_logic hf
      exact ⟨hc ▸ ho, rorCarry_msb a (k.flag 0) ▸ hc ▸ hl⟩

/-! ## Products (R70, R87) -/

section Products

variable {s : State} {c : CellNo} {d r : Fin 16} {i : Instr}

theorem zeroExtend_mul (a b : Byte) : (a.zeroExtend 16 * b.zeroExtend 16 : Half) = BitVec.ofNat 16 (a.toNat * b.toNat) :=
  BitVec.eq_of_toNat_eq (by simp)

theorem signExtend_mul (a b : Byte) : (a.signExtend 16 * b.signExtend 16 : Half) = BitVec.ofInt 16 (a.toInt * b.toInt) :=
  (BitVec.ofInt_mul ..).symm

/-- The product of MUL and MULS. -/
def mulProduct (signed : Bool) (a b : Byte) : Half :=
  if signed then BitVec.ofInt 16 (a.toInt * b.toInt) else BitVec.ofNat 16 (a.toNat * b.toNat)

theorem mulCore_eq (signed : Bool) (d r : Fin 16) (k : Core) :
    mulCore signed d r k = { k.land with prod := some (mulProduct signed (k.rb d) (k.rb r), 4) } := by
  cases signed <;> simp [mulCore, mulProduct, zeroExtend_mul, signExtend_mul]

/-- A multiplication leaves its product in flight, two of its micro-cycles gone (R87). -/
theorem completes_mul (signed : Bool) {op : Byte} (e : exec i s = runInstr c [op, rr d r] 2 2 (bodyMul signed d r) s)
    (h : s.issues c [op, rr d r] = true) :
    Completes i s fun t => s.onlyCell t c ∧ (s.cell c).keepsAll (t.cell c) ∧ (t.core c).b = (s.core c).b ∧
      (t.core c).f = (s.core c).f ∧ (t.core c).sp = (s.core c).sp ∧
      ∃ n, (t.core c).prod = some (mulProduct signed ((s.core c).rb d) ((s.core c).rb r), n) := by
  refine Completes.seq e h (y := { s.cell c with core := mulCore signed d r (s.core c) }) rfl
    ⟨State.onlyCell_setCell .., ?_⟩
  rw [State.setCell_cell_self, State.setCell_core, mulCore_eq]
  refine ⟨Cell.ranOn_keepsAll (Cell.keepsAll_core ..) .., ?_, ?_, ?_, 2, ?_⟩
  · rw [Cell.ranOn_b]; exact Core.land_b _
  · rw [Cell.ranOn_f]; exact Core.land_f _
  · rw [Cell.ranOn_sp]; exact Core.land_sp _
  · simp [Cell.ranOn, Core.age]

/-- CLZ counts the zeros above the highest one (R70). -/
theorem clz8_counts (v : Byte) : (clz8 v).toNat ≤ 8 ∧ (∀ n, n < (clz8 v).toNat → v.getLsbD (7 - n) = false) ∧
    ((clz8 v).toNat < 8 → v.getLsbD (7 - (clz8 v).toNat) = true) := by
  revert v; decide

/-- Z of a value, and N 0. -/
theorem Core.flagsAre_zNotN {j k : Core} {z : Bool} (e : k.f = setFlags j.f (fZ ||| fN) (flagIf z fZ)) :
    k.flagsAre j (j.flag 0) z false (j.flag 3) (j.flag 4) := by
  simpa [flagIf_getElem, fZ, fN] using Core.flagsAre_setFlags e (by decide)

/-- XCH exchanges its two registers, which may be one. -/
theorem xchCore_rb (d r : Fin 16) (k : Core) : (xchCore d r k).rb d = k.rb r ∧ (xchCore d r k).rb r = k.rb d := by
  by_cases hd : d = r <;> simp [xchCore, hd]

/-- A product that lands is MH:ML, which keeps its value where there is none (R87). -/
theorem Core.land_mhml (k : Core) : (∀ p n, k.prod = some (p, n) → k.land.mhml = p) ∧ (k.prod = none → k.land.mhml = k.mhml) := by
  refine ⟨fun p n h => ?_, fun h => ?_⟩ <;> simp [Core.land, h]

end Products

/-- Settles O4: products by `completes_mul`, the exchange and the count by their register, and each flag instruction by the F it
writes. -/
theorem byteProductsAndFlags : Obligations.ByteProductsAndFlags := by
  refine ⟨fun s c d r => ?_, fun s c r => ?_⟩
  · refine ⟨completes_mul false rfl, completes_mul true rfl, fun h => ?_, fun h => ?_, fun hp => ?_⟩
    case refine_1 =>
      refine (completes_reg rfl h (k' := xchCore d r (s.core c)) rfl ⟨rfl, rfl, rfl, rfl⟩ rfl).imp fun t ⟨hr, hb, hf⟩ => ?_
      obtain ⟨hd, hs⟩ := xchCore_rb d r (s.core c)
      refine ⟨hr, (Core.rb_of_b hb d).trans hd, (Core.rb_of_b hb r).trans hs, Core.keepsB_of_b hb ?_, hf⟩
      exact Core.keepsB_setB (Core.keepsB_setB (Core.keepsB_refl _ _) (by simp) _) (by simp) _
    case refine_2 =>
      refine (completes_setB rfl h rfl).imp fun t ⟨⟨hr, hd, hk⟩, hf⟩ => ?_
      obtain ⟨hle, hz, ho⟩ := clz8_counts ((s.core c).rb r)
      rw [hd]
      exact ⟨hr, hk, hle, hz, ho, Core.flagsAre_zNotN hf⟩
    case refine_3 =>
      obtain ⟨hland, hnone⟩ := (s.core c).land_mhml
      refine ⟨_, onCell_present hp _, State.onlyCell_setCell .., ?_⟩
      rw [State.modCore_eq, State.setCell_cell_self, State.setCell_core]
      exact ⟨Cell.keepsAll_core .., Core.land_b _, Core.land_pc _, Core.land_prod _, hland, hnone⟩
  · refine ⟨fun h => completes_setF rfl h (congrArg EkRes.seq (s.setCell_self c).symm), fun h => completes_setF rfl h rfl,
      fun h => completes_setF rfl h rfl, fun h => completes_setF rfl h rfl, fun h => completes_setF rfl h rfl,
      fun h => completes_setF rfl h rfl, fun h => ?_, fun h => completes_setF rfl h rfl⟩
    refine (completes_setB (r := (s.core c).f) rfl h rfl).imp fun t ⟨⟨hr, hd, hk⟩, hf⟩ => ⟨hr, hd, hk, hf⟩

/-! ## Word instructions (R73) -/

section Words

variable {s : State} {c : CellNo} {bs : List Byte} {cycles taken : Nat} {body : CellNo → State → EkRes} {i : Instr}

/-- A word compare writes no register. -/
theorem completes_cmpw {a b : Half} (d : Fin 8) (e : exec i s = runInstr c bs cycles taken body s) (h : s.issues c bs = true)
    (hb : body c s = .seq (s.setCell c { s.cell c with core := (s.core c).putF mLogic (subFlags16 a b) })) :
    Completes i s fun t =>
      (s.ranReg t c bs.length ∧ (t.core c).rw d = (s.core c).rw d ∧ (s.core c).keepsB (t.core c) [pairLo d, pairHi d]) ∧
      (t.core c).flagsAre (s.core c) (decide (a.toNat < b.toNat)) (a - b == 0) (a - b).msb
        (decide (a.toInt - b.toInt ≠ (a - b).toInt)) ((s.core c).flag 4) :=
  (completes_setF e h hb).imp fun _ ⟨⟨hr, hbs⟩, hf⟩ =>
    ⟨⟨hr, Core.rw_of_b hbs d, Core.keepsB_of_b hbs (Core.keepsB_refl _ _)⟩, Core.flagsAre_word hf⟩

/-- MTM ends a product in flight (assumption 8). -/
theorem completes_mtm (r : Fin 8) (h : s.issues c [0x4B, w1 r] = true) : Completes (.mtm c r) s fun t =>
    s.onlyCell t c ∧ (s.cell c).keepsAll (t.cell c) ∧ (t.core c).mhml = (s.core c).rw r ∧ (t.core c).prod = none ∧
      (t.core c).b = (s.core c).b ∧ (t.core c).f = (s.core c).f ∧ (t.core c).sp = (s.core c).sp := by
  refine Completes.seq rfl h (y := { s.cell c with core := mtmCore r (s.core c) }) rfl ⟨State.onlyCell_setCell .., ?_⟩
  have ha : (mtmCore r (s.core c)).age 2 = mtmCore r (s.core c) := Core.age_none _ 2 rfl
  rw [State.setCell_cell_self, State.setCell_core]
  refine ⟨Cell.ranOn_keepsAll (Cell.keepsAll_core ..) .., ?_⟩
  rw [Cell.ranOn, Cell.complete_core, ha]
  exact ⟨rfl, rfl, rfl, rfl, rfl⟩

end Words

/-- Settles O5: each word instruction by the register and the flags that it writes. -/
theorem wordInstructions : Obligations.WordInstructions := by
  intro s c d r v u k ww w pair out sum diff
  refine ⟨fun h => completes_setW (f := k.f) rfl h rfl, fun h => completes_setW (f := k.f) rfl h rfl,
    fun h => (completes_setW rfl h rfl).imp fun t ⟨ho, hf⟩ => ⟨ho, Core.flagsAre_word hf⟩,
    fun h => (completes_setW rfl h rfl).imp fun t ⟨ho, hf⟩ => ⟨ho, Core.flagsAre_word hf⟩,
    fun h => (completes_setW rfl h rfl).imp fun t ⟨ho, hf⟩ => ⟨ho, Core.flagsAre_word hf⟩,
    fun h => completes_cmpw d rfl h rfl, fun h => completes_cmpw d rfl h rfl,
    fun h => (completes_setW rfl h rfl).imp fun t ⟨ho, hf⟩ => ⟨ho, Core.flagsAre_z hf⟩,
    fun h => (completes_setW rfl h rfl).imp fun t ⟨ho, hf⟩ => ?_,
    fun h => completes_core (k' := { k with sp := k.rw r }) rfl h rfl ⟨rfl, rfl, rfl, rfl⟩,
    fun h => completes_setW (f := k.f) rfl h rfl,
    fun h => (completes_setW (f := k.f) rfl h rfl).imp fun t ⟨⟨hr, hw, hk⟩, hf⟩ => ⟨hr, hk, hf, fun hp => ?_⟩,
    completes_mtm r⟩
  case refine_1 =>
    have hd : k.rw d + 0xFFFF = k.rw d - 1 := by bv_omega
    exact ⟨hd ▸ ho, hd ▸ Core.flagsAre_z hf⟩
  case refine_2 =>
    exact hw.trans (congrArg Core.mhml (Core.age_none k 1 hp))

end Sys2Proof.Machine
end

section
/-! PROOFS for spec/03_ek8_programming.md: loads and stores (O7). -/

namespace Sys2Proof.Machine

/-! ## Stores at translated addresses (R66, R166) -/

section Stores

variable (x : Cell) {a : Half} {w : Bool} {n : Nat} {ps : List Nat} {vs : List Byte}

/-- Stores change the memory and what notes a store. -/
theorem Cell.putMem_eq (ps : List Nat) (vs : List Byte) : ∃ m v d, x.putMem ps vs = { x with mem := m, vid := v, dirty := d } := by
  induction ps generalizing x vs with
  | nil => cases vs <;> exact ⟨_, _, _, rfl⟩
  | cons p r ih =>
    cases vs with
    | nil => exact ⟨_, _, _, rfl⟩
    | cons v q =>
      obtain ⟨m, vid, d, e⟩ := ih (x.writeMem p v) q
      exact ⟨m, vid, d, e⟩

@[simp] theorem Cell.putMem_core : (x.putMem ps vs).core = x.core := by
  obtain ⟨_, _, _, e⟩ := x.putMem_eq ps vs
  rw [e]

theorem Cell.putMem_keepsButMem (k : Core) : x.keepsButMem { x.putMem ps vs with core := k } := by
  obtain ⟨_, _, _, e⟩ := x.putMem_eq ps vs
  rw [e]
  exact ⟨rfl, rfl, rfl, rfl, rfl, rfl, rfl, rfl, rfl, rfl, rfl, rfl, rfl, rfl, rfl, rfl, rfl, rfl, rfl, rfl, rfl⟩

/-- Bytes stored at distinct addresses read back. -/
theorem Cell.putMem_readMem_map (hn : ps.Nodup) (hl : ps.length = vs.length) : ps.map (x.putMem ps vs).readMem = vs := by
  induction ps generalizing x vs with
  | nil => exact (List.length_eq_zero_iff.mp hl.symm).symm
  | cons p r ih =>
    cases vs with
    | nil => cases hl
    | cons v q =>
      obtain ⟨hp, hr⟩ := List.nodup_cons.mp hn
      have head : ((x.writeMem p v).putMem r q).readMem p = v := by
        rw [Cell.putMem_readMem_ne _ _ _ _ hp, Cell.writeMem_readMem, if_pos rfl]
      rw [Cell.putMem, List.map_cons, head, ih _ hr (Nat.succ.inj hl)]

/-- The mapper keeps the place of a byte within its window (R166). -/
theorem Mapper.through_mod {m : Mapper} {u : Half} {p : Nat} (h : m.through u a w = .ok p) : p % 8192 = a.toNat % 8192 := by
  unfold Mapper.through at h
  repeat' split at h
  all_goals cases h
  omega

theorem Cell.dAddr_mod {p : Nat} (h : x.dAddr a w = .ok p) : p % 8192 = a.toNat % 8192 := by
  unfold Cell.dAddr at h
  split at h
  case h_1 hx =>
    cases h
    exact Mapper.through_mod hx
  case h_2 => cases h

/-- Successive addresses stand at successive places within their windows. -/
theorem Cell.dAddrs_mod (h : x.dAddrs a w n = .ok ps) : ps.map (· % 8192) = (List.range n).map fun i => (a.toNat + i) % 8192 := by
  induction n generalizing a ps with
  | zero => cases h; rfl
  | succ n ih =>
    rw [Cell.dAddrs] at h
    split at h
    case h_1 => cases h
    case h_2 p hp =>
      split at h
      case h_1 => cases h
      case h_2 qs hqs =>
        cases h
        have hw (i : Nat) : ((a + 1).toNat + i) % 8192 = (a.toNat + (i + 1)) % 8192 := by
          rw [BitVec.toNat_add]
          have h1 : (1 : Half).toNat = 1 := rfl
          omega
        rw [List.map_cons, ih hqs, x.dAddr_mod hp, List.range_succ_eq_map, List.map_cons, List.map_map]
        exact congrArg _ (List.map_congr_left fun i _ => hw i)

theorem Cell.dAddrs_length (h : x.dAddrs a w n = .ok ps) : ps.length = n := by
  simpa using congrArg List.length (x.dAddrs_mod h)

/-- An access of at most a window's size meets no byte twice. -/
theorem Cell.dAddrs_nodup (h : x.dAddrs a w n = .ok ps) (hn : n ≤ 8192) : ps.Nodup := by
  refine List.Nodup.of_map (· % 8192) ?_
  rw [x.dAddrs_mod h]
  refine List.Nodup.map_on (fun i hi j hj e => ?_) List.nodup_range
  rw [List.mem_range] at hi hj
  omega

theorem Cell.dWrite_ok (h : x.dAddrs a true ps.length = .ok ps) (hl : ps.length = vs.length) :
    x.dWrite a vs = .ok (x.putMem ps vs) := by
  rw [Cell.dWrite, ← hl, h]

theorem Cell.dRead_ok (h : x.dAddrs a false ps.length = .ok ps) : x.dRead a ps.length = .ok (ps.map x.readMem) := by
  rw [Cell.dRead, h]

theorem Cell.dAddr_of_dAddrs {p : Nat} (h : x.dAddrs a w [p].length = .ok [p]) : x.dAddr a w = .ok p := by
  simp only [List.length_singleton, Cell.dAddrs] at h
  split at h
  case h_1 => cases h
  case h_2 hp =>
    cases h
    exact hp

theorem Cell.keepsButMem_trans {x y z : Cell} (h : x.keepsButMem y) (k : y.keepsAll z) : x.keepsButMem z := by
  unfold Cell.keepsButMem Cell.keepsAll at *
  simp_all

end Stores

/-! ## Base registers (R64, R65) -/

section Bases

variable (k : Core) (d : Fin 16) (q : Option (Fin 8)) (u : Fin 8) (n : Half) (v : Byte)

/-- The byte registers of the base that a post-increment writes back. -/
def basePair : Option (Fin 8) → List (Fin 16)
  | none => []
  | some u => [pairLo u, pairHi u]

theorem Core.bump_fields : (k.bump q n).sp = k.sp ∧ (k.bump q n).f = k.f ∧ k.keepsControl (k.bump q n) := by
  cases q <;> exact ⟨rfl, rfl, rfl, rfl, rfl, rfl⟩

theorem Core.bump_keepsB : k.keepsB (k.bump q n) (basePair q) := by
  cases q with
  | none => exact Core.keepsB_refl _ _
  | some u => exact Core.keepsB_setW (Core.keepsB_refl _ _) (by simp [basePair]) (by simp [basePair]) _

theorem Core.bump_rw : (k.bump (some u) n).rw u = k.rw u + n := Core.setW_rw_self ..

theorem Core.setB_rw_ne {k : Core} {d : Fin 16} {u : Fin 8} (hl : d ≠ pairLo u) (hh : d ≠ pairHi u) (v : Byte) :
    (k.setB d v).rw u = k.rw u := by
  simp [Core.rw, hl.symm, hh.symm]

theorem Core.keepsB_mono {j k : Core} {l m : List (Fin 16)} (h : j.keepsB k l) (hs : l ⊆ m) : j.keepsB k m :=
  fun i hi => h i fun hl => hi (hs hl)

theorem baseKept_subset : basePair (baseKept d q) ⊆ basePair q := by
  cases q with
  | none => exact List.Subset.refl _
  | some u =>
    rw [baseKept]
    split
    · exact List.nil_subset _
    · exact List.Subset.refl _

/-- Outside its own two bytes a load leaves the increment of its base (R65). -/
theorem baseKept_ne {d : Fin 16} {u : Fin 8} (hl : d ≠ pairLo u) (hh : d ≠ pairHi u) : baseKept d (some u) = some u := by
  have h : d.val / 2 ≠ u.val := by
    intro e
    have hl' : d.val ≠ 2 * u.val := fun e' => hl (Fin.ext e')
    have hh' : d.val ≠ 2 * u.val + 1 := fun e' => hh (Fin.ext e')
    omega
  rw [baseKept, if_neg h]

/-- The core after a load of `v` to byte register `d` with base `q`. -/
def Core.loadB : Core := (k.bump (baseKept d q) n).setB d v

theorem Core.loadB_fields : (k.loadB d q n v).sp = k.sp ∧ (k.loadB d q n v).f = k.f ∧ k.keepsControl (k.loadB d q n v) :=
  k.bump_fields (baseKept d q) n

theorem Core.loadB_rb : (k.loadB d q n v).rb d = v := by simp [Core.loadB]

theorem Core.loadB_keepsB : k.keepsB (k.loadB d q n v) (d :: basePair q) := by
  refine Core.keepsB_setB (Core.keepsB_mono (k.bump_keepsB (baseKept d q) n) ?_) (by simp) v
  exact List.Subset.trans (baseKept_subset d q) (List.subset_cons_self ..)

theorem Core.loadB_base {d : Fin 16} {u : Fin 8} (hl : d ≠ pairLo u) (hh : d ≠ pairHi u) :
    (k.loadB d (some u) n v).rw u = k.rw u + n := by
  rw [Core.loadB, Core.setB_rw_ne hl hh, baseKept_ne hl hh, Core.bump_rw]

/-- The core after a load of `h` to word register `u` with base `q`. -/
def Core.loadW (h : Half) : Core := (k.bump q n).setW u h

theorem Core.loadW_fields (h : Half) :
    (k.loadW q u n h).sp = k.sp ∧ (k.loadW q u n h).f = k.f ∧ k.keepsControl (k.loadW q u n h) :=
  k.bump_fields q n

theorem Core.loadW_rw (h : Half) : (k.loadW q u n h).rw u = h := Core.setW_rw_self ..

theorem Core.loadW_keepsB (h : Half) : k.keepsB (k.loadW q u n h) (pairLo u :: pairHi u :: basePair q) := by
  refine Core.keepsB_setW (Core.keepsB_mono (k.bump_keepsB q n) ?_) (by simp) (by simp) h
  exact fun i hi => List.mem_cons_of_mem _ (List.mem_cons_of_mem _ hi)

theorem Core.loadW_base {u b : Fin 8} (hb : u ≠ b) (h : Half) : (k.loadW (some b) u n h).rw b = k.rw b + n := by
  rw [Core.loadW, Core.setW_rw_ne _ _ _ _ hb.symm, Core.bump_rw]

theorem basePair_incOf_subset (inc : Bool) (b : Fin 8) : basePair (incOf inc b) ⊆ [pairLo b, pairHi b] := by
  cases inc
  · exact List.nil_subset _
  · exact List.Subset.refl _

end Bases

/-! ## Loads and stores that complete -/

section Accesses

variable {s : State} {c : CellNo} {bs : List Byte} {cycles taken : Nat} {body : CellNo → State → EkRes} {i : Instr}

/-- A load to a byte register. -/
theorem completes_loadB {d : Fin 16} {q : Option (Fin 8)} {n : Half} {v : Byte}
    (e : exec i s = runInstr c bs cycles taken body s) (h : s.issues c bs = true)
    (hb : body c s = .seq (s.setCell c { s.cell c with core := (s.core c).loadB d q n v })) :
    Completes i s fun t => s.ranReg t c bs.length ∧ (t.core c).rb d = v ∧ (t.core c).f = (s.core c).f ∧
      (∀ u, q = some u → d ≠ pairLo u → d ≠ pairHi u → (t.core c).rw u = (s.core c).rw u + n) ∧
      (s.core c).keepsB (t.core c) (d :: basePair q) := by
  obtain ⟨hsp, hf, hk⟩ := (s.core c).loadB_fields d q n v
  refine (completes_reg e h hb hk hsp).imp fun t ⟨hr, hbs, hft⟩ => ⟨hr, ?_, hft.trans hf, ?_, ?_⟩
  · exact (Core.rb_of_b hbs d).trans (Core.loadB_rb ..)
  · rintro u rfl hl hh
    exact (Core.rw_of_b hbs u).trans (Core.loadB_base _ _ _ hl hh)
  · exact Core.keepsB_of_b hbs (Core.loadB_keepsB _ _ _ _ _)

/-- A load to a word register by base register `b`. -/
theorem completes_loadW {w b : Fin 8} {inc : Bool} {n h' : Half} (e : exec i s = runInstr c bs cycles taken body s)
    (h : s.issues c bs = true)
    (hb : body c s = .seq (s.setCell c { s.cell c with core := (s.core c).loadW (incOf inc b) w n h' })) :
    Completes i s fun t => s.ranReg t c bs.length ∧ (t.core c).rw w = h' ∧ (t.core c).f = (s.core c).f ∧
      (inc = true → decide (w = b) = false → (t.core c).rw b = (s.core c).rw b + n) ∧
      (s.core c).keepsB (t.core c) [pairLo w, pairHi w, pairLo b, pairHi b] := by
  obtain ⟨hsp, hf, hk⟩ := (s.core c).loadW_fields (incOf inc b) w n h'
  refine (completes_reg e h hb hk hsp).imp fun t ⟨hr, hbs, hft⟩ => ⟨hr, ?_, hft.trans hf, ?_, ?_⟩
  · exact (Core.rw_of_b hbs w).trans (Core.loadW_rw ..)
  · rintro rfl hw
    exact (Core.rw_of_b hbs b).trans (Core.loadW_base _ _ (of_decide_eq_false hw) _)
  · refine Core.keepsB_of_b hbs (Core.keepsB_mono (Core.loadW_keepsB _ _ _ _ _) ?_)
    exact List.cons_subset_cons _ (List.cons_subset_cons _ (basePair_incOf_subset inc b))

/-- The memory of cell `c` after a store by way of a cell `x` with the same memory. -/
theorem State.storedAt_of {x y : Cell} {ps : List Nat} {vs : List Byte} (hy : y.mem = (x.putMem ps vs).mem)
    (hx : x.mem = (s.cell c).mem) (hn : ps.Nodup) (hl : ps.length = vs.length) : s.storedAt (s.setCell c y) c ps vs := by
  have hr : ((s.setCell c y).cell c).readMem = (x.putMem ps vs).readMem := by
    funext a
    rw [State.setCell_cell_self, Cell.readMem, hy]
    rfl
  have hs : x.readMem = (s.cell c).readMem := by
    funext a
    rw [Cell.readMem, hx]
    rfl
  rw [State.storedAt, hr, ← hs]
  exact ⟨Cell.putMem_readMem_map _ hn hl, fun a ha => Cell.putMem_readMem_ne _ _ _ _ ha⟩

/-- A store that goes on in sequence, with the core registers those of `k'`. -/
theorem completes_store {k' : Core} {a : Half} {ps : List Nat} {vs : List Byte}
    (e : exec i s = runInstr c bs cycles taken body s) (h : s.issues c bs = true) (hw : s.writesAt c a ps)
    (hl : ps.length = vs.length) (hn : ps.length ≤ 8192)
    (hb : body c s = .seq (s.setCell c { (s.cell c).putMem ps vs with core := k' })) (hk : (s.core c).keepsControl k') :
    Completes i s fun t => s.ranStore t c bs.length ps vs ∧ (t.core c).f = k'.f ∧ (t.core c).sp = k'.sp ∧ (t.core c).b = k'.b := by
  refine Completes.seq e h hb ⟨⟨State.onlyCell_setCell .., ?_, ?_, ?_⟩, ?_⟩
  · rw [State.setCell_cell_self]
    exact Cell.keepsButMem_trans (Cell.putMem_keepsButMem ..) (Cell.ranOn_keepsAll (Cell.keepsAll_core _ k') ..)
  · rw [State.setCell_core]
    exact Cell.ranOn_wentOn (y := { (s.cell c).putMem ps vs with core := k' }) hk ..
  · exact State.storedAt_of (Cell.ranOn_mem ..) rfl (Cell.dAddrs_nodup _ hw hn) hl
  · rw [State.setCell_core]
    exact ⟨Cell.ranOn_f .., Cell.ranOn_sp .., Cell.ranOn_b ..⟩

theorem State.eccRead_clean (s : State) (c : CellNo) (a : Nat) : s.eccRead c a .clean = (s, (s.cell c).readMem a) := by
  unfold State.eccRead
  split <;> rfl

theorem bodyLd_reads {d : Fin 16} {m : LdMode} {p : Nat} (h : s.readsAt c (m.addr (s.core c)) [p]) :
    bodyLd d m .clean c s =
      .seq (s.setCell c { s.cell c with core := (s.core c).loadB d m.wb 1 ((s.cell c).readMem p) }) := by
  have ha : (s.cell c).dAddr (m.addr (s.cell c).core) false = .ok p := Cell.dAddr_of_dAddrs _ h
  simp only [bodyLd, ha, State.eccRead_clean] <;> rfl

theorem bodyLdw_reads {w b : Fin 8} {inc : Bool} {p q : Nat} (h : s.readsAt c ((s.core c).rw b) [p, q]) :
    bodyLdw w b inc c s = .seq (s.setCell c { s.cell c with
      core := (s.core c).loadW (incOf inc b) w 2 ((s.cell c).readMem q ++ (s.cell c).readMem p) }) := by
  have hr : (s.cell c).dRead ((s.cell c).core.rw b) 2 = .ok [(s.cell c).readMem p, (s.cell c).readMem q] :=
    Cell.dRead_ok _ h
  simp only [bodyLdw, hr] <;> rfl

theorem Cell.iRead_ok {x : Cell} {a : Half} {p : Nat} (h : x.map.xlatI a = .ok p) : x.iRead a = .ok (x.codeByte p) := by
  rw [Cell.iRead, h]

theorem bodyLdc_reads {d : Fin 16} {b : Fin 8} {inc : Bool} {p : Nat} (h : (s.cell c).map.xlatI ((s.core c).rw b) = .ok p) :
    bodyLdc d b inc c s = .seq (s.setCell c { s.cell c with
      core := (s.core c).loadB d (incOf inc b) 1 ((s.cell c).codeByte p) }) := by
  have hr : (s.cell c).iRead ((s.cell c).core.rw b) = .ok ((s.cell c).codeByte p) := Cell.iRead_ok h
  simp only [bodyLdc, hr] <;> rfl

theorem bodyLdcw_reads {w b : Fin 8} {inc : Bool} {p q : Nat} (hp : (s.cell c).map.xlatI ((s.core c).rw b) = .ok p)
    (hq : (s.cell c).map.xlatI ((s.core c).rw b + 1) = .ok q) :
    bodyLdcw w b inc c s = .seq (s.setCell c { s.cell c with
      core := (s.core c).loadW (incOf inc b) w 2 ((s.cell c).codeByte q ++ (s.cell c).codeByte p) }) := by
  have hr : (s.cell c).iReads ((s.cell c).core.rw b) 2 = .ok [(s.cell c).codeByte p, (s.cell c).codeByte q] := by
    have hp' : (s.cell c).iRead ((s.cell c).core.rw b) = .ok ((s.cell c).codeByte p) := Cell.iRead_ok hp
    have hq' : (s.cell c).iRead ((s.cell c).core.rw b + 1) = .ok ((s.cell c).codeByte q) := Cell.iRead_ok hq
    simp only [Cell.iReads, hp', hq']
  simp only [bodyLdcw, hr] <;> rfl

theorem bodySt_writes {r : Fin 16} {m : LdMode} {p : Nat} (h : s.writesAt c (m.addr (s.core c)) [p]) :
    bodySt r m c s = .seq (s.setCell c { (s.cell c).putMem [p] [(s.core c).rb r] with core := (s.core c).bump m.wb 1 }) := by
  have hw : (s.cell c).dWrite (m.addr (s.cell c).core) [(s.cell c).core.rb r] = .ok ((s.cell c).putMem [p] [(s.core c).rb r]) :=
    Cell.dWrite_ok _ h rfl
  simp only [bodySt, hw, Cell.putMem_core] <;> rfl

theorem bodyStw_writes {w b : Fin 8} {inc : Bool} {p q : Nat} (h : s.writesAt c ((s.core c).rw b) [p, q]) :
    bodyStw w b inc c s = .seq (s.setCell c { (s.cell c).putMem [p, q] (wordBytes ((s.core c).rw w)) with
      core := (s.core c).bump (incOf inc b) 2 }) := by
  have hw : (s.cell c).dWrite ((s.cell c).core.rw b) (wordBytes ((s.cell c).core.rw w)) =
      .ok ((s.cell c).putMem [p, q] (wordBytes ((s.core c).rw w))) := Cell.dWrite_ok _ h rfl
  simp only [bodyStw, hw, Cell.putMem_core] <;> rfl

end Accesses

/-- Settles O7: each access reaches the addresses of its form, and what it loads or raises is `Core.loadB`, `Core.loadW` or
`Core.bump`. -/
theorem loadsAndStores : Obligations.LoadsAndStores := by
  refine ⟨?_, ?_⟩
  · intro s c d w b m inc p q k rd grown op
    refine ⟨fun h hr => ?_, fun h hr => ?_, fun h hx => ?_, fun h hp hq => ?_⟩
    case refine_1 =>
      refine (completes_loadB rfl h (bodyLd_reads hr)).imp fun t ⟨hran, hv, hf, hbase, hkeep⟩ => ⟨hran, hv, hf, ?_, hbase⟩
      intro n hnd hn
      refine hkeep n fun hmem => ?_
      cases hm : m.wb with
      | none => simp [hm, basePair, hnd] at hmem
      | some u => simp [hm, basePair, hnd, hn u hm] at hmem
    case refine_2 =>
      cases inc <;> exact completes_loadW rfl h (bodyLdw_reads hr)
    case refine_3 =>
      have load : Completes (.ldc c d b inc) s fun t => s.ranReg t c 2 ∧ (t.core c).rb d = (s.cell c).codeByte p ∧
          (t.core c).f = k.f ∧ (∀ u, incOf inc b = some u → d ≠ pairLo u → d ≠ pairHi u → (t.core c).rw u = k.rw u + 1) ∧
          k.keepsB (t.core c) (d :: basePair (incOf inc b)) := by
        cases inc <;> exact completes_loadB rfl h (bodyLdc_reads hx)
      refine load.imp fun t ⟨hran, hv, hf, hbase, hkeep⟩ => ⟨hran, hv, hf, ?_, ?_⟩
      · rintro rfl hd
        rw [decide_eq_false_iff_not, not_or] at hd
        exact hbase b rfl hd.1 hd.2
      · exact Core.keepsB_mono hkeep (List.cons_subset_cons _ (basePair_incOf_subset inc b))
    case refine_4 =>
      cases inc <;> exact completes_loadW rfl h (bodyLdcw_reads hp hq)
  · intro s c r w b m inc p q k
    refine ⟨fun h hw => ?_, fun h hw => ?_⟩
    case refine_1 =>
      obtain ⟨hsp, hf, hk⟩ := k.bump_fields m.wb 1
      refine (completes_store rfl h hw rfl (by simp) (bodySt_writes hw) hk).imp
        fun t ⟨hran, hft, hspt, hbt⟩ => ⟨hran, hft.trans hf, hspt.trans hsp, fun hm => ?_, fun u hm => ?_⟩
      · rw [hbt, hm]; rfl
      · rw [hm] at hbt
        exact ⟨(Core.rw_of_b hbt u).trans (Core.bump_rw ..), Core.keepsB_of_b hbt (Core.bump_keepsB _ _ _)⟩
    case refine_2 =>
      obtain ⟨hsp, hf, hk⟩ := k.bump_fields (incOf inc b) 2
      have store : Completes (.stw c w b inc) s fun t => s.ranStore t c 2 [p, q] (wordBytes (k.rw w)) ∧
          (t.core c).f = (k.bump (incOf inc b) 2).f ∧ (t.core c).sp = (k.bump (incOf inc b) 2).sp ∧
          (t.core c).b = (k.bump (incOf inc b) 2).b := by
        cases inc <;> exact completes_store rfl h hw rfl (by simp) (bodyStw_writes hw) hk
      refine store.imp fun t ⟨hran, hft, hspt, hbt⟩ => ⟨hran, hft.trans hf, hspt.trans hsp, ?_, ?_⟩
      · rintro rfl
        exact hbt
      · rintro rfl
        exact ⟨(Core.rw_of_b hbt b).trans (Core.bump_rw ..), Core.keepsB_of_b hbt (Core.bump_keepsB _ _ _)⟩

end Sys2Proof.Machine
end

section
/-! PROOFS for spec/03_ek8_programming.md: transfers of control (O9) and the loop unit (O10). -/

namespace Sys2Proof.Machine

/-! ## Branches and jumps (R79, R80) -/

section Branches

variable {s : State} {c : CellNo} {bs : List Byte} {cycles taken : Nat} {body : CellNo → State → EkRes} {i : Instr}

/-- A condition on the flags of a core, by their bits (R79). -/
def Cond.onFlags (q : Cond) (k : Core) : Bool :=
  let C := k.flag 0; let Z := k.flag 1; let N := k.flag 2; let V := k.flag 3
  match q with
  | .ra => true | .eq => Z | .ne => !Z | .cs => C | .cc => !C | .mi => N | .pl => !N | .vs => V | .vc => !V
  | .hi => !C && !Z | .ls => C || Z | .ge => N == V | .lt => N != V | .gt => !Z && N == V | .le => Z || N != V

theorem hasFlag_bits (f : Byte) : hasFlag f fZ = f.getLsbD 1 ∧ hasFlag f fN = f.getLsbD 2 ∧ hasFlag f fV = f.getLsbD 3 := by
  revert f; decide

theorem Cond.holds_eq (q : Cond) (k : Core) : q.holds k.f = q.onFlags k := by
  obtain ⟨hz, hn, hv⟩ := hasFlag_bits k.f
  cases q <;> simp only [Cond.holds, Cond.onFlags, Core.flag, hasFlag_fC, hz, hn, hv]

/-- An instruction that goes to `pc` and changes no register. -/
theorem completes_goto {pc : Half} (e : exec i s = runInstr c bs cycles taken body s) (h : s.issues c bs = true)
    (hb : body c s = .jump s pc) : Completes i s fun t => s.wentTo t c pc := by
  have hb' : body c s = .jump (s.setCell c (s.cell c)) pc := by rw [hb, State.setCell_self]
  refine Completes.jump e h hb' ⟨State.onlyCell_setCell .., ?_⟩
  rw [State.setCell_cell_self, State.setCell_core, Cell.complete_core]
  exact ⟨Cell.complete_keepsAll .., rfl, Core.age_b .., Core.age_f .., Core.age_sp .., rfl⟩

/-- A branch goes to its target where its condition holds, and on in sequence elsewhere. -/
theorem completes_br (q : Cond) {op d8 : Byte} (e : exec i s = runInstr c [op, d8] 2 3 (bodyBr q d8) s)
    (h : s.issues c [op, d8] = true) : Completes i s fun t =>
      (q.onFlags (s.core c) = true → s.wentTo t c ((s.core c).pc + 2 + d8.signExtend 16)) ∧
      (q.onFlags (s.core c) = false → s.ranReg t c 2 ∧ (t.core c).b = (s.core c).b ∧ (t.core c).f = (s.core c).f) := by
  have hq : q.holds (s.cell c).core.f = q.onFlags (s.core c) := q.holds_eq _
  cases hc : q.onFlags (s.core c) with
  | true =>
    have hb : bodyBr q d8 c s = .jump s ((s.core c).pc + 2 + d8.signExtend 16) := by
      rw [bodyBr, hq, hc]
      rfl
    exact (completes_goto e h hb).imp fun t ht => ⟨fun _ => ht, nofun⟩
  | false =>
    have hb : bodyBr q d8 c s = .seq (s.setCell c { s.cell c with core := { s.core c with f := (s.core c).f } }) := by
      rw [bodyBr, hq, hc]
      exact congrArg EkRes.seq (s.setCell_self c).symm
    exact (completes_setF e h hb).imp fun t ⟨⟨hr, hbt⟩, hf⟩ => ⟨nofun, fun _ => ⟨hr, hbt, hf⟩⟩

end Branches

/-! ## Calls (R67, R80) -/

section Calls

variable {s : State} {c : CellNo} {bs : List Byte} {cycles taken : Nat} {body : CellNo → State → EkRes} {i : Instr}

theorem Cell.push_ok {x : Cell} {ps : List Nat} {vs : List Byte}
    (h : x.dAddrs (x.core.sp - BitVec.ofNat 16 vs.length) true ps.length = .ok ps) (hl : ps.length = vs.length) :
    x.push vs = .ok { x.putMem ps vs with core := { x.core with sp := x.core.sp - BitVec.ofNat 16 vs.length } } := by
  simp only [Cell.push, Cell.dWrite_ok _ h hl, Cell.putMem_core]

/-- A call stores the return address below the stack and goes to its target. -/
theorem completes_call {ret dest : Half} {p q : Nat} (e : exec i s = runInstr c bs cycles taken body s)
    (h : s.issues c bs = true) (hw : s.writesAt c ((s.core c).sp - 2) [p, q]) (hb : body c s = callTo ret dest c s) :
    Completes i s fun t =>
      s.onlyCell t c ∧ (s.cell c).keepsButMem (t.cell c) ∧ (t.core c).pc = dest ∧ (t.core c).sp = (s.core c).sp - 2 ∧
      (t.core c).b = (s.core c).b ∧ (t.core c).f = (s.core c).f ∧ (t.core c).loops = (s.core c).loops ∧
      s.storedAt t c [p, q] [loByte ret, hiByte ret] := by
  have hp : (s.cell c).push (wordBytes ret) = _ := Cell.push_ok (ps := [p, q]) hw rfl
  have hb' : body c s = .jump (s.setCell c { (s.cell c).putMem [p, q] (wordBytes ret) with
      core := { s.core c with sp := (s.core c).sp - 2 } }) dest := by
    simp only [hb, callTo, hp] <;> rfl
  refine Completes.jump e h hb' ⟨State.onlyCell_setCell .., ?_⟩
  rw [State.setCell_cell_self, State.setCell_core, Cell.complete_core]
  refine ⟨?_, rfl, Core.age_sp .., Core.age_b .., Core.age_f .., rfl, ?_⟩
  · exact Cell.keepsButMem_trans (Cell.putMem_keepsButMem ..) (Cell.complete_keepsAll ..)
  · exact State.storedAt_of (Cell.complete_mem ..) rfl (Cell.dAddrs_nodup _ hw (by simp)) rfl

theorem callBytes_length (tg : Target) : (callBytes tg).length = tg.len := by cases tg <;> rfl

end Calls

/-! ## DJNZ (R80) -/

theorem completes_djnz {s : State} {c : CellNo} {d : Fin 16} {d8 : Byte}
    (h : s.issues c [0x94, BitVec.ofNat 8 d.val, d8] = true) : Completes (.djnz c d d8) s fun t =>
      s.onlyCell t c ∧ (s.cell c).keepsAll (t.cell c) ∧ (t.core c).rb d = (s.core c).rb d - 1 ∧
      (s.core c).keepsB (t.core c) [d] ∧ (t.core c).f = (s.core c).f ∧ (t.core c).sp = (s.core c).sp ∧
      ((s.core c).rb d ≠ 1 → (t.core c).pc = (s.core c).pc + 3 + d8.signExtend 16) ∧
      ((s.core c).rb d = 1 → (s.core c).loops = [] → (t.core c).pc = (s.core c).pc + 3) := by
  have hz : (s.core c).rb d - 1 = 0 ↔ (s.core c).rb d = 1 := by bv_omega
  by_cases h1 : (s.core c).rb d = 1
  · have hb : bodyDjnz d d8 c s =
        .seq (s.setCell c { s.cell c with core := (s.core c).setB d ((s.core c).rb d - 1) }) := if_pos (hz.mpr h1)
    refine (completes_setB (f := (s.core c).f) rfl h hb).imp fun t ⟨⟨⟨hr, hsp⟩, hd, hk⟩, hf⟩ => ?_
    obtain ⟨hc, hkeep, ⟨hpc, _⟩, _⟩ := hr
    exact ⟨hc, hkeep, hd, hk, hf, hsp, fun hn => absurd h1 hn, fun _ hl => (hpc hl).1⟩
  · have hb : bodyDjnz d d8 c s = .jump (s.setCell c { s.cell c with core := (s.core c).setB d ((s.core c).rb d - 1) })
        ((s.core c).pc + 3 + d8.signExtend 16) := if_neg fun e => h1 (hz.mp e)
    refine Completes.jump rfl h hb ⟨State.onlyCell_setCell .., ?_⟩
    rw [State.setCell_cell_self, State.setCell_core, Cell.complete_core]
    refine ⟨coreBody_keepsAll .., ?_, ?_, Core.age_f .., Core.age_sp .., fun _ => rfl, fun e => absurd e h1⟩
    · exact (Core.age_rb ..).trans ((Core.setB_rb ..).trans (if_pos rfl))
    · have hk : (s.core c).keepsB ((s.core c).setB d ((s.core c).rb d - 1)) [d] :=
        Core.keepsB_setB (Core.keepsB_refl _ _) (by simp) _
      exact Core.keepsB_of_b (Core.age_b ..) hk

/-- Settles O9: a branch by its condition on the flags, a call by the return address that it stores. -/
theorem controlTransfers : Obligations.ControlTransfers := by
  refine ⟨fun s c d8 => ?_, fun s c d8 tg d p q => ?_⟩
  · intro k C Z N V br
    exact ⟨completes_br .ra rfl, completes_br .eq rfl, completes_br .ne rfl, completes_br .cs rfl, completes_br .cc rfl,
      completes_br .mi rfl, completes_br .pl rfl, completes_br .vs rfl, completes_br .vc rfl, completes_br .hi rfl,
      completes_br .ls rfl, completes_br .ge rfl, completes_br .lt rfl, completes_br .gt rfl, completes_br .le rfl⟩
  · refine ⟨fun h hw => completes_call rfl h hw rfl, fun h hw => completes_call rfl h hw ?_, fun h => completes_goto rfl h rfl,
      completes_djnz⟩
    rw [callBytes_length]
    rfl

/-! ## The loop stack (R81 to R86) -/

section Loops

variable {s : State} {c : CellNo}

/-- Where the next address is not the end of the top entry's body, the loop unit stays out of the way (R83). -/
theorem loopBack_other {ed : Byte} {nxt : Half} {e : LoopEnt} {r : List LoopEnt} (h : e.le ≠ nxt) :
    loopBack ed nxt (e :: r) = (nxt, e :: r) := by
  simp [loopBack, h]

/-- An instruction that changes SP and the loop stack, and whose next address ends no loop body. -/
theorem completes_loops {bs : List Byte} {cycles taken : Nat} {body : CellNo → State → EkRes} {i : Instr} {sp : Half}
    {l : List LoopEnt} (e : exec i s = runInstr c bs cycles taken body s) (h : s.issues c bs = true)
    (hb : body c s = .seq (s.setCell c { s.cell c with core := { s.core c with sp := sp, loops := l } }))
    (hl : loopBack (s.core c).ed ((s.core c).pc + BitVec.ofNat 16 bs.length) l = ((s.core c).pc + BitVec.ofNat 16 bs.length, l)) :
    Completes i s fun t =>
      (s.onlyCell t c ∧ (s.cell c).keepsAll (t.cell c) ∧ (t.core c).f = (s.core c).f) ∧ (t.core c).sp = sp ∧
      (t.core c).b = (s.core c).b ∧ (t.core c).pc = (s.core c).pc + BitVec.ofNat 16 bs.length ∧ (t.core c).loops = l := by
  refine Completes.seq e h hb ?_
  simp only [State.setCell_cell_self, State.setCell_core, Cell.ranOn, Cell.complete_core, hl, and_true]
  exact ⟨⟨State.onlyCell_setCell .., coreBody_keepsAll .., Core.age_f ..⟩, Core.age_sp .., Core.age_b ..⟩

/-- The body of a loop has at least one byte, so its end is not its start (R82). -/
theorem loopEnd_ne (ls : Half) (len : Byte) : ls + len.zeroExtend 16 + 1 ≠ ls := by
  have hl : len.toNat < 256 := len.isLt
  have h1 : (1 : Half).toNat = 1 := rfl
  intro e
  have hn := congrArg BitVec.toNat e
  simp only [BitVec.toNat_add, BitVec.truncate_eq_setWidth, BitVec.toNat_setWidth, h1] at hn
  omega

theorem loopBytes_length (x : LoopSrc) (len : Byte) : (loopBytes x len).length = 3 := by cases x <;> rfl

variable {x : LoopSrc} {len : Byte}

/-- LOOP with count 0 goes past its body (R82). -/
theorem completes_loopSkip (h : s.issues c (loopBytes x len) = true) (h0 : x.val (s.core c) = 0) :
    Completes (.loop c x len) s fun t => s.wentTo t c ((s.core c).pc + 3 + len.zeroExtend 16 + 1) := by
  have hb : bodyLoop (loopBytes x len).length (x.val (s.core c)) len c s =
      .jump s ((s.core c).pc + 3 + len.zeroExtend 16 + 1) := by
    rw [loopBytes_length, bodyLoop, if_pos h0]
    rfl
  exact completes_goto rfl h hb

/-- The entry that LOOP opens (R82). -/
def Core.loopEntry (k : Core) (x : LoopSrc) (len : Byte) : LoopEnt :=
  ⟨k.pc + 3, k.pc + 3 + len.zeroExtend 16 + 1, x.val k, k.ed⟩

/-- LOOP with another count opens an entry where the loop stack has room. -/
theorem completes_loopOpen (h : s.issues c (loopBytes x len) = true) (h0 : x.val (s.core c) ≠ 0)
    (hl : (s.core c).loops.length < 4) : Completes (.loop c x len) s fun t =>
      (s.onlyCell t c ∧ (s.cell c).keepsAll (t.cell c) ∧ (t.core c).f = (s.core c).f) ∧ (t.core c).b = (s.core c).b ∧
      (t.core c).pc = (s.core c).pc + 3 ∧ (t.core c).loops = (s.core c).loopEntry x len :: (s.core c).loops := by
  have hl' : ¬ 4 ≤ (s.cell c).core.loops.length := Nat.not_le.mpr hl
  have hb : bodyLoop (loopBytes x len).length (x.val (s.core c)) len c s = .seq (s.setCell c { s.cell c with core :=
      { s.core c with sp := (s.core c).sp, loops := (s.core c).loopEntry x len :: (s.core c).loops } }) := by
    rw [loopBytes_length, bodyLoop, if_neg h0, if_neg hl']
    rfl
  have hnext : (s.core c).pc + BitVec.ofNat 16 (loopBytes x len).length = (s.core c).pc + 3 := by
    rw [loopBytes_length]
    rfl
  have hne : ((s.core c).loopEntry x len).le ≠ (s.core c).pc + BitVec.ofNat 16 (loopBytes x len).length :=
    fun e => loopEnd_ne ((s.core c).pc + 3) len (e.trans hnext)
  exact (completes_loops (i := .loop c x len) rfl h hb (loopBack_other hne)).imp
    fun _ ⟨hk, _, hbt, hpc, hloops⟩ => ⟨hk, hbt, hpc.trans hnext, hloops⟩

theorem frameEntry_invalid {vs : List Byte} (h : (vs.headD 0).getLsbD 7 = false) : frameEntry vs = none := by
  unfold frameEntry
  split
  case h_1 => exact if_neg (by simpa using h)
  case h_2 => rfl

theorem frameEntry_valid {v ed s0 s1 e0 e1 c0 c1 : Byte} (h : v.getLsbD 7 = true) :
    frameEntry [v, ed, s0, s1, e0, e1, c0, c1] = some ⟨s1 ++ s0, e1 ++ e0, c1 ++ c0, ed⟩ := if_pos h

variable {ps : List Nat}

theorem frame_read (hl : ps.length = 8) (hr : s.readsAt c (s.core c).sp ps) :
    (s.cell c).dRead (s.cell c).core.sp 8 = .ok (ps.map (s.cell c).readMem) := hl ▸ Cell.dRead_ok (s.cell c) hr

theorem bodyPopl_invalid (hl : ps.length = 8) (hr : s.readsAt c (s.core c).sp ps)
    (hv : ((s.cell c).readMem (ps.headD 0)).getLsbD 7 = false) :
    bodyPopl c s = .seq (s.setCell c { s.cell c with core := { s.core c with sp := (s.core c).sp + 8 } }) := by
  have hf : frameEntry (ps.map (s.cell c).readMem) = none := by
    cases ps with
    | nil => rfl
    | cons p r => exact frameEntry_invalid hv
  simp only [bodyPopl, frame_read hl hr, hf] <;> rfl

theorem bodyPopl_valid {e : LoopEnt} (hl : ps.length = 8) (hr : s.readsAt c (s.core c).sp ps)
    (hf : frameEntry (ps.map (s.cell c).readMem) = some e) (hn : (s.core c).loops.length < 4) :
    bodyPopl c s = .seq (s.setCell c { s.cell c with
      core := { s.core c with sp := (s.core c).sp + 8, loops := e :: (s.core c).loops } }) := by
  have hn' : ¬ 4 ≤ (s.cell c).core.loops.length := Nat.not_le.mpr hn
  simp only [bodyPopl, frame_read hl hr, hf, if_neg hn'] <;> rfl

end Loops

/-- Settles O10: LOOP and POPL by the entry that they open, whose end is not the next address; LEAVE by the empty stack. -/
theorem loopUnit : Obligations.LoopUnit := by
  intro s c x len w ps k bytes ls le kept m
  have hbytes : bytes = loopBytes x len := by cases x <;> rfl
  refine ⟨fun h h0 => ?_, fun h h0 hl => ?_, fun h ht => ?_, fun h hl hr hv hk => ?_,
    fun v ed s0 s1 e0 e1 c0 c1 h hl hr hm hv hn he => ?_, fun h => ?_⟩
  case refine_1 => exact completes_loopSkip (hbytes ▸ h) h0
  case refine_2 => exact completes_loopOpen (hbytes ▸ h) h0 hl
  case refine_3 =>
    refine (completes_loops (sp := k.sp) (l := k.loops.tail) rfl h rfl (by rw [ht]; rfl)).imp
      fun t ⟨hk, _, hb, hpc, hloops⟩ => ⟨hk, hb, hpc, hloops.trans ht⟩
  case refine_4 =>
    exact completes_core (k' := { k with sp := k.sp + 8 }) rfl h (bodyPopl_invalid hl hr hv) ⟨rfl, rfl, rfl, rfl⟩
  case refine_5 =>
    have hf : frameEntry (ps.map m) = _ := hm ▸ frameEntry_valid hv
    exact (completes_loops rfl h (bodyPopl_valid hl hr hf hn) (loopBack_other he)).imp
      fun t ⟨hk, hsp, hb, _, hloops⟩ => ⟨hk, hsp, hb, hloops⟩
  case refine_6 =>
    exact (completes_setW (f := k.f) rfl h rfl).imp fun t ⟨⟨hr, hw, hk⟩, hf⟩ => ⟨hr, hw, hk, hf⟩

end Sys2Proof.Machine
end

section
/-! PROOFS for spec/03_ek8_programming.md: IN and OUT, and the bit, field and permute instructions (O8). -/

namespace Sys2Proof.Machine

/-! ## Bits and fields (R76 to R78) -/

section FieldBits

theorem ones8_getLsbD (w : Nat) {i : Nat} (hi : i < 8) : (ones8 w).getLsbD i = decide (i < w) := by
  rw [ones8, BitVec.getLsbD_ofNat, Nat.testBit_two_pow_sub_one, decide_eq_true hi, Bool.true_and]

/-- INS puts the low bits of its source at the offset and keeps the rest (R78). -/
theorem ins8_getLsbD (d v : Byte) (w o i : Fin 8) : (ins8 d v (w.val + 1) o.val).getLsbD i.val =
    if o.val ≤ i.val ∧ i.val ≤ o.val + w.val then v.getLsbD (i.val - o.val) else d.getLsbD i.val := by
  have hi : i.val < 8 := i.isLt
  have hm : (ones8 (w.val + 1) <<< o.val).getLsbD i.val = decide (o.val ≤ i.val ∧ i.val ≤ o.val + w.val) := by
    rw [BitVec.getLsbD_shiftLeft, ones8_getLsbD _ (by omega), Bool.eq_iff_iff]
    simp only [Bool.and_eq_true, Bool.not_eq_true', decide_eq_true_eq, decide_eq_false_iff_not]
    omega
  rw [ins8, BitVec.getLsbD_or, BitVec.getLsbD_and, BitVec.getLsbD_not, BitVec.getLsbD_and, hm, BitVec.getLsbD_shiftLeft,
    decide_eq_true hi]
  by_cases h : o.val ≤ i.val ∧ i.val ≤ o.val + w.val
  · rw [decide_eq_true h, if_pos h, decide_eq_false (Nat.not_lt.mpr h.1)]
    simp only [Bool.not_true, Bool.and_false, Bool.false_or, Bool.not_false, Bool.true_and, Bool.and_true]
  · rw [decide_eq_false h, if_neg h]
    simp only [Bool.not_false, Bool.and_true, Bool.and_false, Bool.or_false]

/-- EXT gives the field, zero-extended (R78). -/
theorem ext8_getLsbD (v : Byte) (w o i : Fin 8) :
    (ext8 v (w.val + 1) o.val).getLsbD i.val = (decide (i.val ≤ w.val) && v.getLsbD (o.val + i.val)) := by
  rw [ext8, BitVec.getLsbD_and, BitVec.getLsbD_ushiftRight, ones8_getLsbD _ i.isLt, Bool.and_comm,
    decide_eq_decide.mpr Nat.lt_succ_iff]

/-- EXTS repeats the field's highest bit above it (R78). -/
theorem exts8_getLsbD (v : Byte) (w o i : Fin 8) :
    (exts8 v (w.val + 1) o.val).getLsbD i.val = v.getLsbD (o.val + min i.val w.val) := by
  have hs : (ext8 v (w.val + 1) o.val).getLsbD (w.val + 1 - 1) = v.getLsbD (o.val + w.val) := by
    simpa using ext8_getLsbD v w o w
  have hn : (~~~ ones8 (w.val + 1)).getLsbD i.val = decide (w.val < i.val) := by
    rw [BitVec.getLsbD_not, ones8_getLsbD _ i.isLt, decide_eq_true i.isLt, Bool.true_and, ← decide_not]
    exact decide_eq_decide.mpr (by omega)
  have hr : (exts8 v (w.val + 1) o.val).getLsbD i.val =
      (((decide (i.val ≤ w.val)) && v.getLsbD (o.val + i.val)) || (v.getLsbD (o.val + w.val) && decide (w.val < i.val))) := by
    rw [exts8, hs]
    cases v.getLsbD (o.val + w.val) with
    | true => rw [if_pos rfl, BitVec.getLsbD_or, ext8_getLsbD, hn, Bool.true_and]
    | false => rw [if_neg Bool.false_ne_true, ext8_getLsbD, Bool.false_and, Bool.or_false]
  rw [hr]
  rcases Nat.lt_or_ge w.val i.val with h | h
  · rw [Nat.min_eq_right (Nat.le_of_lt h), decide_eq_true h, decide_eq_false (Nat.not_le.mpr h), Bool.false_and, Bool.false_or,
      Bool.and_true]
  · rw [Nat.min_eq_left h, decide_eq_true h, decide_eq_false (Nat.not_lt.mpr h), Bool.true_and, Bool.and_false, Bool.or_false]

/-- The mask of bit `n`. -/
theorem oneBit_getLsbD (n i : Fin 8) : (1#8 <<< n.val).getLsbD i.val = (i == n) := by
  revert n i; decide

theorem setbByte_getLsbD (v : Byte) (n i : Fin 8) : (v ||| (1#8 <<< n.val)).getLsbD i.val = ((i == n) || v.getLsbD i.val) := by
  rw [BitVec.getLsbD_or, oneBit_getLsbD, Bool.or_comm]

theorem clrbByte_getLsbD (v : Byte) (n i : Fin 8) : (v &&& ~~~(1#8 <<< n.val)).getLsbD i.val = ((i != n) && v.getLsbD i.val) := by
  rw [BitVec.getLsbD_and, BitVec.getLsbD_not, oneBit_getLsbD, Bool.and_comm]
  simp [bne]

theorem quadByte_inj {q : Fin 4} {i j : Fin 4} : quadByte q i = quadByte q j ↔ i = j := by
  simp [quadByte, Fin.ext_iff]

/-- PERM writes each byte of its quad with the byte that the selector names, read before any write (R77). -/
theorem permCore_rb (d q j : Fin 4) (x : ByteSrc) (k : Core) :
    (permCore d q x k).rb (quadByte d j) = permByte q (x.val k) j.val k := by
  fin_cases j <;> simp [permCore, quadByte_inj]

theorem permCore_keepsB (d q : Fin 4) (x : ByteSrc) (k : Core) :
    k.keepsB (permCore d q x k) [quadByte d 0, quadByte d 1, quadByte d 2, quadByte d 3] := by
  unfold permCore
  refine Core.keepsB_setB (Core.keepsB_setB (Core.keepsB_setB (Core.keepsB_setB (Core.keepsB_refl _ _) ?_ _) ?_ _) ?_ _) ?_ _
  all_goals simp

end FieldBits

/-- A field instruction writes register `d`, and Z and N of what it writes. -/
theorem completes_field {s : State} {c : CellNo} {bs : List Byte} {cycles taken : Nat} {body : CellNo → State → EkRes} {i : Instr}
    {d : Fin 16} {r : Byte} (e : exec i s = runInstr c bs cycles taken body s) (h : s.issues c bs = true)
    (hb : body c s = .seq (s.setCell c { s.cell c with core := ((s.core c).setB d r).putF (fZ ||| fN) (zn8 r) })) :
    Completes i s fun t => (s.ranReg t c bs.length ∧ (s.core c).keepsB (t.core c) [d]) ∧
      (t.core c).flagsAre (s.core c) ((s.core c).flag 0) ((t.core c).rb d == 0) ((t.core c).rb d).msb ((s.core c).flag 3)
        ((s.core c).flag 4) ∧ (t.core c).rb d = r := by
  refine (completes_setB e h hb).imp fun t ⟨⟨hr, hd, hk⟩, hf⟩ => ⟨⟨hr, hk⟩, ?_, hd⟩
  rw [hd]
  exact Core.flagsAre_zn hf

/-! ## IN and OUT (R57, R75, R162) -/

section InOut

variable {s : State} {c : CellNo} {bs : List Byte} {cycles taken : Nat} {body : CellNo → State → EkRes} {i : Instr} {a : Nat}

/-- Counting an instruction leaves IO_UNMAPPED. -/
theorem Cell.complete_ioUnmapped (x : Cell) (n : Nat) (pc : Half) (l : List LoopEnt) :
    (x.complete n pc l).ctl.ioUnmapped = x.ctl.ioUnmapped := by
  obtain ⟨_, _, _, e⟩ := Cell.counted_eq { x with
    core := { x.core.age n with pc := pc, loops := l, entered := false }, dbg := { x.dbg with skipBreak := false } }
  rw [Cell.complete, e]

/-- An instruction that makes its cell `y` with the core registers of `k'`, and keeps memory, plain registers, F and SP. -/
theorem completes_io {y : Cell} {k' : Core} (e : exec i s = runInstr c bs cycles taken body s) (h : s.issues c bs = true)
    (hb : body c s = .seq (s.setCell c { y with core := k' })) (hm : y.mem = (s.cell c).mem ∧ y.regs = (s.cell c).regs)
    (hk : k'.sp = (s.core c).sp ∧ k'.f = (s.core c).f) : Completes i s fun t =>
      (s.onlyCell t c ∧ (t.cell c).mem = (s.cell c).mem ∧ (t.core c).f = (s.core c).f ∧ (t.core c).sp = (s.core c).sp ∧
        (t.cell c).regs = (s.cell c).regs) ∧
      (t.core c).b = k'.b ∧ (t.cell c).ic = y.ic ∧ (t.cell c).ctl.ioUnmapped = y.ctl.ioUnmapped := by
  refine Completes.seq e h hb ?_
  obtain ⟨hmem, hregs, _, _, hic, _⟩ := Cell.ranOn_keepsAll (Cell.keepsAll_core y k') cycles
    ((s.core c).pc + BitVec.ofNat 16 bs.length)
  rw [State.setCell_cell_self, State.setCell_core]
  exact ⟨⟨State.onlyCell_setCell .., hmem.trans hm.1, (Cell.ranOn_f ..).trans hk.2, (Cell.ranOn_sp ..).trans hk.1,
    hregs.trans hm.2⟩, Cell.ranOn_b .., hic, Cell.complete_ioUnmapped ..⟩

/-- The core's access to an address that holds no register (R57). -/
def Cell.ioMissed (x : Cell) : Cell := { x with ctl := { x.ctl with ioUnmapped := true } }

theorem ioRead_unmapped (h : (s.cell c).ioUnmapped a = true) : s.ioRead c .core a = (s.setCell c (s.cell c).ioMissed, 0xFF) := by
  simp [State.ioRead, h, State.ioMiss, Cell.ioMissed]

/-- IN of an address outside the extension space, by what its read answers. -/
theorem bodyIn_reads {d : Fin 16} {m : IoMode} {y : Cell} {v : Byte} (hx : extSpace (m.addr (s.core c)) = false)
    (hr : s.ioRead c .core (m.addr (s.core c)).toNat = (s.setCell c y, v)) (hy : y.core = s.core c) :
    bodyIn d m c s = .seq (s.setCell c { y with core := (s.core c).loadB d m.wb 1 v }) := by
  have hx' : extSpace (m.addr (s.cell c).core) = false := hx
  have hr' : s.ioRead c .core (m.addr (s.cell c).core).toNat = (s.setCell c y, v) := hr
  simp only [bodyIn, hx', hr', Bool.false_eq_true, if_false, State.modCore_eq, State.setCell_cell_self,
    State.setCell_setCell, hy] <;> rfl

/-- A write with no key resets nothing. -/
theorem outResets_none (hk : lockedAt a = none) (v : Byte) : s.outResets c a v = false := by
  obtain ⟨_, hn⟩ := (s.cell c).lockedWrite_unlocking hk v true
  rw [State.outResets, hn]
  rfl

/-- OUT to an address with no key outside the extension space, by what its write leaves of the cell. -/
theorem bodyOut_writes {r : Fin 16} {m : IoMode} {y : Cell} (hx : extSpace (m.addr (s.core c)) = false)
    (hk : lockedAt (m.addr (s.core c)).toNat = none)
    (hw : s.ioWriteAs c .core true (m.addr (s.core c)).toNat ((s.core c).rb r) = s.setCell c y) (hy : y.core = s.core c) :
    bodyOut r m c s = .seq (s.setCell c { y with core := (s.core c).bump m.wb 1 }) := by
  have hx' : extSpace (m.addr (s.cell c).core) = false := hx
  have hr' : s.outResets c (m.addr (s.cell c).core).toNat ((s.cell c).core.rb r) = false := outResets_none hk _
  have hw' : s.ioWriteAs c .core true (m.addr (s.cell c).core).toNat ((s.cell c).core.rb r) = s.setCell c y := hw
  simp only [bodyOut, hx', hr', State.ioWrite, hw', Bool.false_eq_true, if_false, State.modCore_eq, State.setCell_cell_self,
    State.setCell_setCell, hy]

/-- The core's write to an address that holds no register breaks the open sequence and stores nothing (R57, R557). -/
theorem ioWriteAs_unmapped {v : Byte} (hk : lockedAt a = none) (h : (s.cell c).ioUnmapped a = true) :
    s.ioWriteAs c .core true a v = s.setCell c (s.cell c).breakSeq.ioMissed := by
  have hp : (s.cell c).breakSeq.ioUnmapped a = true := by
    rw [Cell.ioUnmapped, ((s.cell c).breakSeq_keeps).1]
    exact h
  simp [State.ioWriteAs, Cell.lockedWrite, hk, hp, State.ioMiss, Cell.ioMissed]

/-- IN, by what its read answers and leaves of the cell. -/
theorem completes_in {d : Fin 16} {m : IoMode} {y : Cell} {v : Byte} (h : s.issues c (inBytes d m) = true)
    (hx : extSpace (m.addr (s.core c)) = false) (hr : s.ioRead c .core (m.addr (s.core c)).toNat = (s.setCell c y, v))
    (hy : y.core = s.core c) (hm : y.mem = (s.cell c).mem ∧ y.regs = (s.cell c).regs) : Completes (.in c d m) s fun t =>
      (s.onlyCell t c ∧ (t.cell c).mem = (s.cell c).mem ∧ (t.core c).f = (s.core c).f ∧ (t.core c).sp = (s.core c).sp ∧
        (t.cell c).regs = (s.cell c).regs) ∧
      (t.core c).rb d = v ∧ (t.cell c).ctl.ioUnmapped = y.ctl.ioUnmapped ∧ (s.core c).keepsB (t.core c) (d :: basePair m.wb) := by
  obtain ⟨hsp, hf, _⟩ := (s.core c).loadB_fields d m.wb 1 v
  refine (completes_io rfl h (bodyIn_reads hx hr hy) hm ⟨hsp, hf⟩).imp fun t ⟨hkept, hb, _, hio⟩ => ⟨hkept, ?_, hio, ?_⟩
  · exact (Core.rb_of_b hb d).trans (Core.loadB_rb ..)
  · exact Core.keepsB_of_b hb (Core.loadB_keepsB _ _ _ _ _)

/-- OUT to an address with no key, by what its write leaves of the cell. -/
theorem completes_out {r : Fin 16} {m : IoMode} {y : Cell} (h : s.issues c (outBytes r m) = true)
    (hx : extSpace (m.addr (s.core c)) = false) (hk : lockedAt (m.addr (s.core c)).toNat = none)
    (hw : s.ioWriteAs c .core true (m.addr (s.core c)).toNat ((s.core c).rb r) = s.setCell c y)
    (hy : y.core = s.core c) (hm : y.mem = (s.cell c).mem ∧ y.regs = (s.cell c).regs) : Completes (.out c r m) s fun t =>
      (s.onlyCell t c ∧ (t.cell c).mem = (s.cell c).mem ∧ (t.core c).f = (s.core c).f ∧ (t.core c).sp = (s.core c).sp ∧
        (t.cell c).regs = (s.cell c).regs) ∧
      (t.cell c).ic = y.ic ∧ (t.cell c).ctl.ioUnmapped = y.ctl.ioUnmapped ∧ (s.core c).keepsB (t.core c) (basePair m.wb) := by
  obtain ⟨hsp, hf, _⟩ := (s.core c).bump_fields m.wb 1
  refine (completes_io rfl h (bodyOut_writes hx hk hw hy) hm ⟨hsp, hf⟩).imp fun t ⟨hkept, hb, hic, hio⟩ => ⟨hkept, hic, hio, ?_⟩
  exact Core.keepsB_of_b hb (Core.bump_keepsB _ _ _)

/-- An abandoned sequence leaves the registers, memory and I/O registers of its cell. -/
theorem Cell.breakSeq_fields (x : Cell) : x.breakSeq.core = x.core ∧ x.breakSeq.mem = x.mem ∧ x.breakSeq.regs = x.regs := by
  obtain ⟨_, _, e⟩ := x.breakSeq_unlocking
  rw [e]
  exact ⟨rfl, rfl, rfl⟩

/-! ### IC_CFGn (R162) -/

variable (n : Fin 32)

theorem icCfg_address : inRanges ioRanges (0x120 + n.val) = true ∧ captureGroup (0x120 + n.val) = none ∧
    lockedAt (0x120 + n.val) = none ∧ extSpace (BitVec.ofNat 16 (0x120 + n.val)) = false ∧
    (BitVec.ofNat 16 (0x120 + n.val)).toNat = 0x120 + n.val := by
  revert n; decide

/-- A read of IC_CFGn clears nothing. -/
theorem Cell.readEffect_icCfg (x : Cell) : x.readEffect (0x120 + n.val) = x := by
  have hn : n.val < 32 := n.isLt
  have h₁ : ¬ 0x120 + n.val = 0x0043 ∧ ¬ 0x120 + n.val = 0x0058 ∧ ¬ 0x0180 ≤ 0x120 + n.val ∧ ¬ 0x120 + n.val = 0x03C1 ∧
      ¬ 0x120 + n.val = 0x0510 ∧ ¬ 0x120 + n.val = 0x0588 ∧ ¬ 0x120 + n.val = 0x0641 ∧ ¬ 0x120 + n.val = 0x0682 ∧
      ¬ 0x120 + n.val = 0x0806 := by omega
  simp [Cell.readEffect, h₁]

theorem viewIo_icCfg : s.viewIo c (0x120 + n.val) = (s.cell c).ic.cfg.get n := by
  have hn : n.val < 32 := n.isLt
  have hv : (s.cell c).ic.cfg.getD n.val 0 = (s.cell c).ic.cfg.get n := by simp [Vector.getD, Vector.get]
  rw [← hv]
  simp (disch := omega) only [State.viewIo, Cell.viewCore, Bool.and_eq_true, Bool.or_eq_true, decide_eq_true_eq, if_neg, if_pos,
    Nat.add_sub_cancel_left]

theorem ioRead_icCfg : s.ioRead c .core (0x120 + n.val) = (s.setCell c (s.cell c), (s.cell c).ic.cfg.get n) := by
  obtain ⟨hm, hg, _⟩ := icCfg_address n
  have ha : 0x120 + n.val < 0x0180 := by omega
  simp [State.ioRead, Cell.ioUnmapped, ioMapped_low _ ha, hm, ioDark_low ha, hg, Cell.readEffect_icCfg, viewIo_icCfg]

theorem Cell.writeCore_icCfg (x : Cell) (v : Byte) (h7 : n.val ≠ 7) (h23 : n.val ≠ 23) : x.writeCore (0x120 + n.val) v =
    { x with ic := { x.ic with cfg := x.ic.cfg.set n (v &&& 0x87) } } := by
  have hn : n.val < 32 := n.isLt
  have hw : rwMask x.prof (0x120 + n.val) = 0x87 := by
    simp (disch := omega) only [rwMask, rwMaskLow, Bool.and_eq_true, Bool.or_eq_true, decide_eq_true_eq, if_neg, if_pos]
  simp (disch := omega) only [Cell.writeCore, Bool.and_eq_true, decide_eq_true_eq, if_neg, if_pos, Nat.add_sub_cancel_left, hw]
  have hs : x.ic.cfg.setIfInBounds n.val (v &&& 0x87) = x.ic.cfg.set n (v &&& 0x87) := Vector.ext fun i hi => by
    simp [Vector.getElem_set, Vector.getElem_setIfInBounds]
  rw [hs]

/-- The core's write of IC_CFGn, n other than 7 and 23, breaks the open sequence and changes EN and LEVEL of source n (R162). -/
theorem ioWriteAs_icCfg {v : Byte} (h7 : n.val ≠ 7) (h23 : n.val ≠ 23) :
    s.ioWriteAs c .core true (0x120 + n.val) v = s.setCell c { (s.cell c).breakSeq with
      ic := { (s.cell c).ic with cfg := (s.cell c).ic.cfg.set n (v &&& 0x87) } } := by
  obtain ⟨hm, _, hk, _⟩ := icCfg_address n
  rw [ioWriteAs_core true (by omega) hm hk, Cell.writeCore_icCfg n _ _ h7 h23, ((s.cell c).breakSeq_keeps).2]

end InOut

/-- Settles O8: IN and OUT by what the I/O space answers and keeps at their address; the other instructions bit by bit. -/
theorem fieldsAndInOut : Obligations.FieldsAndInOut := by
  refine ⟨?_, ?_⟩
  · intro s c d m n k a wb kept
    obtain ⟨hcore, hmem, hregs⟩ := (s.cell c).breakSeq_fields
    obtain ⟨_, _, hkey, hext, hnat⟩ := icCfg_address n
    refine ⟨fun h hx hu => ?_, fun h e => ?_, fun h hx hk hu => ?_, fun h e h7 h23 => ?_⟩
    case refine_1 => exact completes_in h hx (ioRead_unmapped hu) rfl ⟨rfl, rfl⟩
    case refine_2 =>
      have ha : a.toNat = 0x120 + n.val := e ▸ hnat
      have hr : s.ioRead c .core a.toNat = (s.setCell c (s.cell c), (s.cell c).ic.cfg.get n) := by rw [ha, ioRead_icCfg]
      exact (completes_in h ((congrArg extSpace e).trans hext) hr rfl ⟨rfl, rfl⟩).imp
        fun t ⟨hkept, hd, _, hb⟩ => ⟨hkept, hd, hb⟩
    case refine_3 =>
      exact (completes_out h hx hk (ioWriteAs_unmapped hk hu) hcore ⟨hmem, hregs⟩).imp
        fun t ⟨hkept, _, hio, hb⟩ => ⟨hkept, hio, hb⟩
    case refine_4 =>
      have ha : a.toNat = 0x120 + n.val := e ▸ hnat
      have hw : s.ioWriteAs c .core true a.toNat (k.rb d) = _ := ha ▸ ioWriteAs_icCfg n h7 h23
      refine (completes_out h ((congrArg extSpace e).trans hext) ((congrArg lockedAt ha).trans hkey) hw hcore ⟨hmem, hregs⟩).imp
        fun t ⟨hkept, hic, _, hb⟩ => ⟨hkept, ?_, fun j hj => ?_, by rw [hic], hb⟩
      · rw [hic, Vector.get_set, if_pos rfl]
      · rw [hic, Vector.get_set, if_neg hj]
  · intro s c d r w o n dq sq x j k rr fo qq nd src out zn
    refine ⟨fun h => (completes_setB (f := k.f) rfl h rfl).imp fun t ⟨⟨hr, hd, hk⟩, hf⟩ => ⟨⟨hr, hk⟩, hf, fun i => ?_⟩,
      fun h => (completes_field rfl h rfl).imp fun t ⟨ho, hf, hd⟩ => ⟨ho, hf, fun i => ?_⟩,
      fun h => (completes_field rfl h rfl).imp fun t ⟨ho, hf, hd⟩ => ⟨ho, hf, fun i => ?_⟩,
      fun h => ?_,
      fun h => (completes_setF rfl h rfl).imp fun t ⟨⟨hr, hb⟩, hf⟩ => ⟨hr, hb, Core.flagsAre_z hf⟩,
      fun h => (completes_setB (f := k.f) rfl h rfl).imp fun t ⟨⟨hr, hd, hk⟩, hf⟩ => ⟨⟨hr, hk⟩, hf, fun i => ?_⟩,
      fun h => (completes_setB (f := k.f) rfl h rfl).imp fun t ⟨⟨hr, hd, hk⟩, hf⟩ => ⟨⟨hr, hk⟩, hf, fun i => ?_⟩⟩
    case refine_1 => exact hd ▸ ins8_getLsbD ..
    case refine_2 => exact hd ▸ ext8_getLsbD ..
    case refine_3 => exact hd ▸ exts8_getLsbD ..
    case refine_4 =>
      have perm : Completes (.perm c dq sq x) s fun t => s.ranReg t c 3 ∧ (t.core c).b = (permCore dq sq x k).b ∧
          (t.core c).f = k.f := by
        cases x <;> exact completes_reg rfl h rfl ⟨rfl, rfl, rfl, rfl⟩ rfl
      refine perm.imp fun t ⟨hr, hb, hf⟩ => ⟨hr, hf, ?_, ?_⟩
      · exact Core.keepsB_of_b hb (permCore_keepsB dq sq x k)
      · exact (Core.rb_of_b hb _).trans (permCore_rb dq sq j x k)
    case refine_5 => exact hd ▸ setbByte_getLsbD ..
    case refine_6 => exact hd ▸ clrbByte_getLsbD ..

end Sys2Proof.Machine
end

section
/-! PROOFS for spec/03_ek8_programming.md: entries and returns (O11). -/

namespace Sys2Proof.Machine

/-! ## An entry that is made (R90, R112, R558) -/

section MadeEntries

variable {s : State} {c : CellNo} {vector : Nat} {target ret : Half} {ps : List Nat}

theorem Cell.entryOk_of_plan {x : Cell} (hed : x.core.ed ≠ 255) (hp : x.entryPlan vector = .ok (target, ps)) :
    x.entryOk vector = true := by
  rw [Cell.entryOk, hp, bne_iff_ne.mpr hed]
  rfl

/-- The three bytes of an entry stand at three addresses. -/
theorem Cell.entryPlan_ps {x : Cell} (h : x.entryPlan vector = .ok (target, ps)) : ps.Nodup ∧ ps.length = 3 := by
  unfold Cell.entryPlan at h
  split at h
  case h_1 => cases h
  case h_2 =>
    split at h
    case h_1 => cases h
    case h_2 pcs hpcs =>
      split at h
      case h_1 => cases h
      case h_2 fs hfs =>
        cases h
        have hl : (pcs ++ fs).length = 3 := by
          rw [List.length_append, x.dAddrs_length hpcs, x.dAddrs_length hfs]
        refine ⟨List.Nodup.of_map (· % 8192) ?_, hl⟩
        have hsp := x.core.sp.isLt
        have h2 : (x.core.sp - 2).toNat = (x.core.sp.toNat + 65534) % 65536 := by rw [BitVec.toNat_sub]; simp; omega
        have h3 : (x.core.sp - 3).toNat = (x.core.sp.toNat + 65533) % 65536 := by rw [BitVec.toNat_sub]; simp; omega
        rw [List.map_append, x.dAddrs_mod hpcs, x.dAddrs_mod hfs, h2, h3]
        simp [List.range_succ]
        omega

/-- An entry stores into the memory, and changes the registers of its cell. -/
theorem Cell.enter_eq (y : Cell) : ∃ v d, y.enter target ret ps = { y with
    mem := (y.putMem ps [loByte ret, hiByte ret, y.core.land.f]).mem, vid := v, dirty := d,
    core := { y.core.land with pc := target, sp := y.core.land.sp - 3, ed := y.core.land.ed + 1, entered := true } } := by
  obtain ⟨_, v, d, e⟩ := y.putMem_eq ps [loByte ret, hiByte ret, y.core.land.f]
  exact ⟨v, d, by rw [Cell.enter, e]⟩

/-- What an entry leaves that starts from a cell with the registers and the memory of cell `c` (R90). -/
theorem State.entered_of {y : Cell} (hc : y.core = s.core c) (hm : y.mem = (s.cell c).mem) (hps : ps.Nodup ∧ ps.length = 3) :
    s.entered (s.setCell c ((y.enter target ret ps).counted)) c target ret ps := by
  obtain ⟨v, d, e⟩ := y.enter_eq (target := target) (ret := ret) (ps := ps)
  have hmem : ((y.enter target ret ps).counted).mem = (y.putMem ps [loByte ret, hiByte ret, (s.core c).f]).mem := by
    rw [Cell.counted_mem, e, Core.land_f, hc]
  have hcore : ((y.enter target ret ps).counted).core = { (s.core c).land with
      pc := target, sp := (s.core c).land.sp - 3, ed := (s.core c).land.ed + 1, entered := true } := by
    rw [Cell.counted_core, e, hc]
  rw [State.entered, State.setCell_core, hcore, Core.land_sp, Core.land_ed]
  exact ⟨State.onlyCell_setCell .., rfl, rfl, rfl, Core.land_b _, Core.land_f _, Core.land_loops _,
    State.storedAt_of hmem hm hps.1 hps.2⟩

/-- An entry that is ready is made, also from a cell in which what asked for it has changed. -/
theorem State.enterVector_made {y : Cell} (hr : s.entryReady c vector target ps) (hc : y.core = s.core c)
    (hp : y.entryPlan vector = (s.cell c).entryPlan vector) :
    (s.setCell c y).enterVector c vector ret none = s.setCell c ((y.enter target ret ps).counted) := by
  obtain ⟨hed, hplan⟩ := hr
  have hed' : y.core.ed ≠ 255 := hc ▸ hed
  have hplan' : y.entryPlan vector = .ok (target, ps) := hp.trans hplan
  simp only [State.enterVector, State.setCell_cell_self, Cell.recordRefusal, if_neg hed', hplan', State.setCell_setCell]

/-- A WDW that is pending stays so while instructions are counted. -/
theorem Cell.counted_wdw (x : Cell) : x.counted.wd.wdw = x.wd.wdw := by
  unfold Cell.counted
  extract_lets d
  unfold Cell.expireLocked
  split
  case h_1 => rfl
  case h_2 q _ =>
    split
    case isTrue => rfl
    case isFalse =>
      dsimp only
      cases q.reg <;> rfl

/-- The other blocks of a cell that an entry leaves (R152, R313): the interrupt controller, WDW and PACE. -/
theorem Cell.enter_counted_fields (y : Cell) :
    ((y.enter target ret ps).counted).ic = y.ic ∧ ((y.enter target ret ps).counted).wd.wdw = y.wd.wdw ∧
      ((y.enter target ret ps).counted).pace.pend = y.pace.pend := by
  obtain ⟨v, d, e⟩ := y.enter_eq (target := target) (ret := ret) (ps := ps)
  rw [Cell.counted_ic, Cell.counted_wdw, Cell.counted_pace, e]
  exact ⟨rfl, rfl, rfl⟩

/-- The state after an entry from cell `y`, which has the registers, memory and mapping of cell `c`. -/
theorem State.enterVector_enters {y : Cell} (hr : s.entryReady c vector target ps) (hc : y.core = s.core c)
    (hm : y.mem = (s.cell c).mem) (hp : y.entryPlan vector = (s.cell c).entryPlan vector) :
    let t := (s.setCell c y).enterVector c vector ret none
    s.entered t c target ret ps ∧ (t.cell c).ic = y.ic ∧ (t.cell c).wd.wdw = y.wd.wdw ∧ (t.cell c).pace.pend = y.pace.pend := by
  intro t
  have ht : t = s.setCell c ((y.enter target ret ps).counted) := State.enterVector_made hr hc hp
  rw [ht, State.setCell_cell_self]
  exact ⟨State.entered_of hc hm (Cell.entryPlan_ps hr.2), y.enter_counted_fields⟩

end MadeEntries

/-! ## The interrupt entry (R92, R152) -/

section InterruptEntry

theorem putBit_false_self {w : Nat} (v : BitVec w) (i : Nat) : (putBit v i false).getLsbD i = false := by
  rw [putBit, if_neg Bool.false_ne_true, BitVec.getLsbD_and, BitVec.getLsbD_not, BitVec.getLsbD_shiftLeft]
  rcases Nat.lt_or_ge i w with h | h
  · simp [h]; omega
  · rw [BitVec.getLsbD_of_ge v i h, Bool.false_and]

theorem putBit_false_ne {w : Nat} (v : BitVec w) {i j : Nat} (h : j ≠ i) : (putBit v i false).getLsbD j = v.getLsbD j := by
  rw [putBit, if_neg Bool.false_ne_true, BitVec.getLsbD_and, BitVec.getLsbD_not, BitVec.getLsbD_shiftLeft]
  rcases Nat.lt_or_ge j w with hj | hj
  · simp [hj]; omega
  · rw [BitVec.getLsbD_of_ge v j hj, Bool.false_and]

/-- The cell of which source `n` has been taken: its pending bit is clear, and the running-priority stack holds it (R151, R152). -/
def Cell.took (x : Cell) (n : Nat) : Cell :=
  { x with ic := { x.ic with pend := putBit x.ic.pend n false, stack := (x.ic.level n, n) :: x.ic.stack } }

/-- An interrupt entry that can be made takes its source first. -/
theorem State.enterInterrupt_took {s : State} {c : CellNo} {n : Nat} (hc : (s.cell c).ic.candidate = some n)
    (hok : (s.cell c).entryOk (8 + (s.cell c).ic.level n) = true) : s.enterInterrupt c =
      (s.setCell c ((s.cell c).took n)).enterVector c (8 + (s.cell c).ic.level n) (s.core c).pc none := by
  rw [State.enterInterrupt, hc]
  simp only [State.enterSource, hok, if_true, State.modIc_eq] <;> rfl

end InterruptEntry

/-! ## RETT and RETI (R93, R151) -/

section Returns

variable {s : State} {c : CellNo} {p q r : Nat}

/-- A return gives back F and PC from the frame; `k` is what it leaves of the interrupt controller. -/
theorem completes_return {cycles taken : Nat} {body : CellNo → State → EkRes} {i : Instr} {bs : List Byte} {k : Ic}
    (e : exec i s = runInstr c bs cycles taken body s) (h : s.issues c bs = true)
    (hb : body c s = .jump (s.setCell c { s.cell c with
      core := retCore ([p, q, r].map (s.cell c).readMem) (s.core c), ic := k }) ((s.cell c).readMem r ++ (s.cell c).readMem q)) :
    Completes i s fun t =>
      (s.onlyCell t c ∧ (t.cell c).mem = (s.cell c).mem ∧ (t.core c).f = (s.cell c).readMem p &&& 0x3F ∧
        (t.core c).pc = (s.cell c).readMem r ++ (s.cell c).readMem q ∧ (t.core c).sp = (s.core c).sp + 3 ∧
        (t.core c).b = (s.core c).b ∧ (t.core c).ed = (if (s.core c).ed = 0 then 0 else (s.core c).ed - 1)) ∧
      (t.cell c).ic = k := by
  refine Completes.jump e h hb ?_
  have hic := Cell.complete_keepsAll { s.cell c with
    core := retCore ([p, q, r].map (s.cell c).readMem) (s.core c), ic := k } taken
    ((s.cell c).readMem r ++ (s.cell c).readMem q) (s.core c).loops
  obtain ⟨hmem, _, _, _, hic, _⟩ := hic
  rw [State.setCell_cell_self, State.setCell_core, Cell.complete_core]
  exact ⟨⟨State.onlyCell_setCell .., hmem, Core.age_f .., rfl, Core.age_sp .., Core.age_b .., Core.age_ed ..⟩, hic⟩

theorem return_read (h : s.readsAt c (s.core c).sp [p, q, r]) :
    (s.cell c).dRead (s.cell c).core.sp 3 = .ok ([p, q, r].map (s.cell c).readMem) := Cell.dRead_ok (s.cell c) h

theorem bodyRett_returns (h : s.readsAt c (s.core c).sp [p, q, r]) :
    bodyRett c s = .jump (s.setCell c { s.cell c with
      core := retCore ([p, q, r].map (s.cell c).readMem) (s.core c), ic := (s.cell c).ic })
      ((s.cell c).readMem r ++ (s.cell c).readMem q) := by
  simp only [bodyRett, return_read h] <;> rfl

/-- RETI that no qualifying source abandons (R154). -/
theorem bodyRetiOr_returns (h : s.readsAt c (s.core c).sp [p, q, r])
    (hn : (s.core c).flag 5 = false ∨ (s.cell c).ic.candidate = none) :
    bodyRetiOr c s = .jump (s.setCell c { s.cell c with
      core := retCore ([p, q, r].map (s.cell c).readMem) (s.core c), ic := (s.cell c).ic.pop })
      ((s.cell c).readMem r ++ (s.cell c).readMem q) := by
  have hi : (hasFlag (s.cell c).core.f fI && (s.cell c).ic.candidate.isSome) = false := by
    rw [hasFlag_fI]
    rcases hn with hf | hc
    · rw [show (s.cell c).core.f.getLsbD 5 = false from hf, Bool.false_and]
    · rw [hc, Option.isSome_none, Bool.and_false]
  simp only [bodyRetiOr, hi, Bool.false_eq_true, if_false, bodyReti, return_read h, State.modCore_eq, State.modIc_eq,
    State.setCell_setCell, State.setCell_cell_self] <;> rfl

end Returns

/-- Settles O11: each entry is made by `State.enterVector` from the cell whose request it has taken; returns read their frame. -/
theorem entriesAndReturns : Obligations.EntriesAndReturns := by
  refine ⟨?_, ?_⟩
  · intro s c n target ps p q r k m back
    refine ⟨fun h hr => ?_, fun h hr => completes_return rfl h (bodyRett_returns hr), fun h hn hr => ?_⟩
    case refine_1 =>
      have hent := State.enterVector_enters (y := s.cell c) (ret := k.pc + 2) hr rfl rfl rfl
      rw [State.setCell_self] at hent
      exact ⟨_, execTrap_enters h, hent.1⟩
    case refine_2 =>
      refine (completes_return rfl h (bodyRetiOr_returns hr hn)).imp fun t ⟨hback, hic⟩ => ⟨hback, ?_⟩
      rw [hic]
      exact (s.cell c).ic.pop_keeps
  · intro s c n target ps x free
    refine ⟨fun ⟨hp, he⟩ hw hr => ?_, fun ⟨hp, he⟩ hw hq hr => ?_, fun ⟨hp, he⟩ hw hq hi hc hr => ?_⟩
    case refine_1 =>
      have hok : x.entryOk 29 = true := Cell.entryOk_of_plan hr.1 hr.2
      obtain ⟨hent, hic, hwdw, _⟩ := State.enterVector_enters
        (y := { x with wd := { x.wd with wdw := !x.entryOk 29 } }) (ret := x.core.pc) hr rfl rfl rfl
      exact ⟨_, execWdwEntry_enters hp he hw, hent, hwdw.trans (by rw [hok]; rfl), hic⟩
    case refine_2 =>
      have hok : x.entryOk 26 = true := Cell.entryOk_of_plan hr.1 hr.2
      obtain ⟨hent, hic, _, hpend⟩ := State.enterVector_enters
        (y := { x with pace := { x.pace with pend := !x.entryOk 26 } }) (ret := x.core.pc) hr rfl rfl rfl
      exact ⟨_, execPaceEntry_enters hp he hw hq, hent, hpend.trans (by rw [hok]; rfl), hic⟩
    case refine_3 =>
      obtain ⟨hent, hic, _, _⟩ := State.enterVector_enters (y := x.took n.val) (ret := x.core.pc) hr rfl rfl rfl
      refine ⟨_, (execInterruptEntry_enters hp he hw hq hi).trans
        (congrArg _ (State.enterInterrupt_took hc (Cell.entryOk_of_plan hr.1 hr.2))), hent, ?_⟩
      exact ⟨(congrArg (·.pend.getLsbD n.val) hic).trans (putBit_false_self ..),
        fun j hj => (congrArg (·.pend.getLsbD j) hic).trans (putBit_false_ne _ hj), congrArg Ic.stack hic⟩

end Sys2Proof.Machine
end
